-- ==== Sys2Proof/Word.lean ====
section
/-!
DEFINITION. The words the manual treats as bits: bytes, 64-bit registers (R5), 32-bit vector lanes,
96-bit Beads (R47) and 128-bit command words (R76).
-/
namespace Sys2Proof

/-- One byte of a memory or a payload. -/
abbrev Byte := BitVec 8

/-- A 64-bit word: a control-space register (R5), a general register, a header word of a frame. -/
abbrev Word := BitVec 64

/-- One 32-bit lane of a vector register (Table 3.1). -/
abbrev Lane := BitVec 32

/-- A Bead: a 96-bit two's-complement integer (R47). -/
abbrev Bead := BitVec 96

/-- The 128-bit command word of R76. -/
abbrev CmdWord := BitVec 128

/-- A fabric node identifier (R200). -/
abbrev Fnid := BitVec 16

end Sys2Proof
end

