-- ==== Sys2Proof/Syntax.lean ====
section
/-!
DEFINITION. The commands of the block: one constructor of Instr for each row of the table of operations
and events (spec/opcode_table.json), with the operands the row needs: which unit, and what arrives at a
land, a pin or a bus.
-/
namespace Sys2Proof

/-- Rod core number (R16). -/
abbrev CoreId := Fin 256
/-- Port number, the index of the port's first quad (R17). -/
abbrev PortId := Fin 128
/-- Lane number (R16). -/
abbrev LaneId := Fin 512
/-- Rod island number (R16). -/
abbrev IslandId := Fin 64
/-- HBM stack number (Table 1.1). -/
abbrev StackId := Fin 12
/-- Brew slot number (R271). -/
abbrev SlotId := Fin 8
/-- A general register g0 to g31. -/
abbrev GReg := BitVec 5
/-- A four-bit selector: a token or an address register. -/
abbrev Sel := BitVec 4
/-- An engine queue: 0 VQ, 1 TQ, 2 SQ, 3 FQ, 4 MQ (Table 3.4, PUSH). -/
abbrev QueueId := Fin 5
/-- A virtual channel (Table 7.13). -/
abbrev Vc := BitVec 4

/-- A JFP frame as words (R204, R206): header H0 to H3, payload bytes, trailer. -/
structure Frame where
  h0 : Word
  h1 : Word
  h2 : Word
  h3 : Word
  payload : List Byte
  trailer : Word
deriving DecidableEq, Repr, Inhabited

/-- A frame as it arrives at a port's lands, with what the link shows about it: a START word that is
valid (R212 check 1), an end where LEN places it (check 8), and, when its ingress ended early, how many
payload bytes arrived (R211). -/
structure RxFrame where
  frame : Frame
  startOk : Bool
  endOk : Bool
  cut : Option Nat
  room : Bool := true
deriving DecidableEq, Repr, Inhabited

/-- Where a frame that a unit handles comes from: a port's lands, or the switch's own store of frames
that wait to be consumed (frames it originated to itself, frames a resequencer released, frames that
wait at ingress). -/
inductive Src where
  | port (p : PortId) (rx : RxFrame)
  | inbox (i : Nat)
deriving DecidableEq, Repr, Inhabited

/-- Who writes control space (R7, R422): the operator out of band, or a fabric source. -/
inductive Party where
  | oob
  | fnid (n : Fnid)
deriving DecidableEq, Repr, Inhabited

/-- A control message of the management port (R377): the header's four words, the data, and the 96
signature bytes (none in a HELLO), with the address and port its reply goes to, and whether the flash is in use when it comes
(R379, log entry 100). -/
structure CtlMsg where
  w0 : Word
  w1 : Word
  w2 : Word
  w3 : Word
  data : List Byte
  sig : List Byte
  fromAddr : BitVec 128
  fromPort : BitVec 16
  busy : Bool := false
deriving DecidableEq, Repr, Inhabited

/-- A PLDM command in an MCTP packet on SMBus (R365): the SMBus address it is sent to and the requester's, its endpoint identifiers and tag, whether its
packet error code is correct, and the PLDM instance, type, command code and request data. -/
structure PldmReq where
  addr : BitVec 7
  from_ : BitVec 7 := 0
  srcEid : Byte := 0
  tag : BitVec 3 := 0
  pecOk : Bool := true
  eid : Byte
  iid : BitVec 5
  ptype : Byte
  code : Byte
  data : List Byte
deriving DecidableEq, Repr, Inhabited

/-- Where an uncorrectable SRAM or HBM ECC error strikes (R129, R169, R279, Table 3.13). -/
inductive EccSite where
  | rodMem (c : CoreId) (addr : BitVec 19)
  | instrMem (c : CoreId) (addr : BitVec 16)
  | beadFile (c : CoreId) (slot : BitVec 13)
  | contribution (inst : BitVec 32) (step : Word) (member : Nat) (blk : Nat)
  | activation (layer : BitVec 32) (step : Word) (owner : Fnid) (token : BitVec 32)
  | output (layer : BitVec 32) (step : Word) (owner : Fnid) (token : BitVec 32)
  | hbm (off : BitVec 48)
  /-- An error that ECC corrected in an SRAM block of a core die, or in a bank of a stack (R350, log entry 108). -/
  | sramCorrected (die : Fin 4) (block : BitVec 12)
  | hbmCorrected (k : StackId) (bank : BitVec 16)
deriving DecidableEq, Repr, Inhabited

/-- Where a core stalls (R82): the head command of a queue that waits for a token, or the control core in
TWAIT or PUSH. -/
inductive StallSite where
  | queue (q : QueueId)
  | control
deriving DecidableEq, Repr, Inhabited

/-- The strap pins latched at time 0 of the boot sequence (R403). -/
structure Straps where
  bootsel : Bool := false
  smbaddr : BitVec 3 := 0
  recov : Bool := false
deriving DecidableEq, Repr, Inhabited

/-- What a stack quiz measured (R356, Table 13.13). -/
structure StackQuizResult where
  margin : BitVec 12
  pin : BitVec 16
  banks : List (BitVec 16 × Nat)
  uncorrectable : Nat
  aborted : Bool
deriving DecidableEq, Repr, Inhabited

/-- What an HBM stack reports when it is trained (R350, R374). -/
structure StackTrain where
  stack : StackId
  ok : Bool
  dieId : Word
  repairUsed : BitVec 12
  repairFree : BitVec 12
  margin : BitVec 12
  pin : BitVec 16 := 0
  /-- Errors that ECC corrected in the patrol read of a RETURN, by bank (R356). -/
  banks : List (BitVec 16 × Nat) := []
deriving DecidableEq, Repr, Inhabited

/-- What the Kettle controller samples for its PLDM sensors (Table 13.21): VDD_CORE in mV and in A. -/
structure SensorSample where
  coreMv : Nat
  coreAmps : Nat
deriving DecidableEq, Repr, Inhabited

/-- How a switch stands in its plane (R29, R201). -/
inductive Tier where
  | single
  | leaf
  | spine
deriving DecidableEq, Repr, Inhabited

/-- The PMD of a port's lanes: for backplane and board channels, or for copper cable assemblies (R405). -/
inductive Pmd where
  | kr | cr
deriving DecidableEq, Repr, Inhabited

/-- What PORTMAP says of one port (R17, R201, R369): its speed, its down-port coordinate when it faces
an endpoint, the FNID of the switch when it faces one, its flags, and the PMD that the LANE section sets (R405). -/
structure PortSpec where
  port : PortId
  wide : Bool
  coord : Option (BitVec 6)
  faces : Option Fnid
  disabled : Bool
  required : Bool
  kaok : Bool
  pmd : Pmd := .kr
deriving DecidableEq, Repr, Inhabited

/-- What the sections of an image carry (R369). The manual gives the byte layout of the header, the
directory and REGINIT only, so the content of the other sections comes with the command, as the values the
boot ROM reads from them (log entry 9). -/
structure ImageContent where
  fnid : Fnid
  tier : Tier
  ports : List PortSpec
  regs : List (BitVec 32 × Word)
  brewAuth : List Fnid
  keys : List (Nat × Nat × Nat)
  mgmtAddr : BitVec 128
  /-- Bits of the management prefix. -/
  mgmtNet : Fin 129
  teleAddr : BitVec 128
  telePort : BitVec 16
  ctlPort : BitVec 16
deriving DecidableEq, Repr, Inhabited

/-- The source and destination of an ICMPv6 message. -/
structure IcmpEnds where
  src : BitVec 128
  dst : BitVec 128
deriving DecidableEq, Repr, Inhabited

/-- One constructor per row of the table of operations and events. -/
inductive Instr where
  | controlRegisterWrite (by_ : Party) (off : BitVec 32) (v : Word)
  -- control core (Table 3.4)
  | add (c : CoreId) (rd rs1 rs2 : GReg)
  | sub (c : CoreId) (rd rs1 rs2 : GReg)
  | and (c : CoreId) (rd rs1 rs2 : GReg)
  | or (c : CoreId) (rd rs1 rs2 : GReg)
  | xor (c : CoreId) (rd rs1 rs2 : GReg)
  | sll (c : CoreId) (rd rs1 rs2 : GReg)
  | srl (c : CoreId) (rd rs1 rs2 : GReg)
  | sra (c : CoreId) (rd rs1 rs2 : GReg)
  | slt (c : CoreId) (rd rs1 rs2 : GReg)
  | sltu (c : CoreId) (rd rs1 rs2 : GReg)
  | mul (c : CoreId) (rd rs1 rs2 : GReg)
  | mulhu (c : CoreId) (rd rs1 rs2 : GReg)
  | addi (c : CoreId) (rd rs1 : GReg) (imm : BitVec 16)
  | andi (c : CoreId) (rd rs1 : GReg) (imm : BitVec 16)
  | ori (c : CoreId) (rd rs1 : GReg) (imm : BitVec 16)
  | xori (c : CoreId) (rd rs1 : GReg) (imm : BitVec 16)
  | slli (c : CoreId) (rd rs1 : GReg) (imm : BitVec 16)
  | srli (c : CoreId) (rd rs1 : GReg) (imm : BitVec 16)
  | srai (c : CoreId) (rd rs1 : GReg) (imm : BitVec 16)
  | lui (c : CoreId) (rd : GReg) (imm : BitVec 16)
  | shori (c : CoreId) (rd rs1 : GReg) (imm : BitVec 16)
  | slti (c : CoreId) (rd rs1 : GReg) (imm : BitVec 16)
  | ld (c : CoreId) (rd rs1 : GReg) (imm : BitVec 16)
  | lw (c : CoreId) (rd rs1 : GReg) (imm : BitVec 16)
  | st (c : CoreId) (rs rs1 : GReg) (imm : BitVec 16)
  | sw (c : CoreId) (rs rs1 : GReg) (imm : BitVec 16)
  | beq (c : CoreId) (rs1 rs2 : GReg) (off : BitVec 16)
  | bne (c : CoreId) (rs1 rs2 : GReg) (off : BitVec 16)
  | blt (c : CoreId) (rs1 rs2 : GReg) (off : BitVec 16)
  | bge (c : CoreId) (rs1 rs2 : GReg) (off : BitVec 16)
  | bltu (c : CoreId) (rs1 rs2 : GReg) (off : BitVec 16)
  | bgeu (c : CoreId) (rs1 rs2 : GReg) (off : BitVec 16)
  | jal (c : CoreId) (off : BitVec 26)
  | jalr (c : CoreId) (rd rs1 : GReg) (imm : BitVec 16)
  | arset (c : CoreId) (sel : Sel) (fld : BitVec 4) (rs1 : GReg)
  | arget (c : CoreId) (rd : GReg) (sel : Sel) (fld : BitVec 4)
  | arstep (c : CoreId) (sel : Sel) (rs1 : GReg)
  | araddr (c : CoreId) (rd : GReg) (sel : Sel)
  | push (c : CoreId) (q : QueueId) (rs1 rs2 : GReg)
  | pushStallEnd (c : CoreId)
  | qcnt (c : CoreId) (rd : GReg) (q : QueueId)
  | tsig (c : CoreId) (t : Sel)
  | twait (c : CoreId) (t : Sel)
  | tokenWaitGrant (c : CoreId) (t : Sel)
  | tread (c : CoreId) (rd : GReg) (t : Sel)
  | rdstep (c : CoreId) (rd : GReg)
  | rdcyc (c : CoreId) (rd : GReg)
  | rdent (c : CoreId) (rd : GReg)
  | rdid (c : CoreId) (rd : GReg)
  | stepend (c : CoreId)
  | stepwaitEnter (c : CoreId)
  | halt (c : CoreId)
  | illegalInstruction (c : CoreId)
  -- vector engine (Table 3.7): the head command of VQ of core c
  | vnop (c : CoreId)
  | vld (c : CoreId)
  | vst (c : CoreId)
  | vbcast (c : CoreId)
  | viadd (c : CoreId)
  | visub (c : CoreId)
  | vimul (c : CoreId)
  | vand (c : CoreId)
  | vor (c : CoreId)
  | vxor (c : CoreId)
  | vshl (c : CoreId)
  | vshr (c : CoreId)
  | vmin (c : CoreId)
  | vmax (c : CoreId)
  | vcmp (c : CoreId)
  | vsel (c : CoreId)
  | vfadd (c : CoreId)
  | vfmul (c : CoreId)
  | vffma (c : CoreId)
  | vcvt (c : CoreId)
  | vunpk (c : CoreId)
  | vpack (c : CoreId)
  | vperm (c : CoreId)
  | vexp2 (c : CoreId)
  | vrmax (c : CoreId)
  | bexp (c : CoreId)
  | bacc (c : CoreId)
  | bmac (c : CoreId)
  | baddp (c : CoreId)
  | bout (c : CoreId)
  | bst (c : CoreId)
  | bclr (c : CoreId)
  | btal (c : CoreId)
  | bscat (c : CoreId)
  -- tensor engine (Table 3.9)
  | tnop (c : CoreId)
  | tmm (c : CoreId)
  | tmmComplete (c : CoreId)
  -- Strainer (Table 6.1)
  | snop (c : CoreId)
  | ssort (c : CoreId)
  | ssortComplete (c : CoreId)
  | smerge (c : CoreId)
  | smergeComplete (c : CoreId)
  | sfilt (c : CoreId)
  | sfiltComplete (c : CoreId)
  | scomp (c : CoreId)
  | scompComplete (c : CoreId)
  | sscan (c : CoreId)
  | sscanComplete (c : CoreId)
  | spick (c : CoreId)
  | spickComplete (c : CoreId)
  | srand (c : CoreId)
  | srandComplete (c : CoreId)
  -- fabric engine (Table 3.10)
  | fnop (c : CoreId)
  | fsend (c : CoreId)
  | fsendAccepted (c : CoreId)
  | frecv (c : CoreId)
  | fmem (c : CoreId)
  | fmemTimeout (c : CoreId) (i : Nat)
  | fsync (c : CoreId)
  | ffence (c : CoreId)
  -- memory engine (Table 3.11)
  | mnop (c : CoreId)
  | mcopy (c : CoreId)
  | mcopyComplete (c : CoreId)
  | mfill (c : CoreId)
  | mfillComplete (c : CoreId)
  | mgather (c : CoreId)
  | mgatherComplete (c : CoreId)
  | stallLimitExpiry (c : CoreId) (w : StallSite)
  | rodHaltSet (by_ : Party) (c : CoreId) (v : Word)
  | rodHaltClear (by_ : Party) (c : CoreId) (v : Word)
  | hazclr (by_ : Party) (c : CoreId) (v : Word)
  | talclr (by_ : Party) (c : CoreId) (v : Word)
  | uncorrectableEcc (e : EccSite)
  -- collective and sampling instances
  | collContribRx (f : Src)
  | collExpsumRx (f : Src)
  | collGexpRx (f : Src)
  | collPartialRx (f : Src)
  | collLtallyRx (f : Src)
  | collResultRx (f : Src)
  | collStatusRx (f : Src)
  | collBlockReduced (inst : BitVec 32) (step : Word) (b : Nat)
  | collTimeout (inst : BitVec 32) (step : Word)
  | collUnmatchedExpiry (i : Nat)
  -- expert layers
  | actRx (f : Src)
  | tendRx (f : Src)
  | tokenRouted (layer : BitVec 32) (step : Word) (toks : List (Fnid × BitVec 32))
  | expoutRx (f : Src)
  | cancelRx (f : Src)
  | layerTimeout (layer : BitVec 32) (step : Word)
  | placementWrite (by_ : Party) (i : Fin 131072) (v : Word)
  | placementEffstepWrite (by_ : Party) (b : Fin 2) (v : Word)
  -- forwarding and egress
  | frameForward (f : Src)
  | reseqHoldExpiry (g : Fin 9) (src dst : Fnid) (seq : BitVec 24)
  | reseqLearnEnd (g : Fin 9) (src dst : Fnid)
  | reseqEntryIdle (g : Fin 9) (src dst : Fnid)
  | mcastFrameRx (f : Src)
  | egressFrameStart (p : PortId)
  | egressFrameEnd (p : PortId)
  | coarseWheelSlot (p : PortId) (slot : Fin 1024)
  | egressAgeing (p : PortId) (q : Fin 32) (i : Nat)
  | creditRx (p : PortId) (w : Word)
  | csyncRx (p : PortId) (w : Word)
  | linkWordBad (p : PortId) (w : Word)
  | creditRefresh (p : PortId)
  | csyncSend (p : PortId) (v : Vc)
  | routeBankArm (by_ : Party) (b : Fin 2) (v : Word)
  | routeBankDisarm (by_ : Party) (b : Fin 2) (v : Word)
  | routeBankMakeCurrent (by_ : Party) (b : Fin 2) (v : Word)
  | routeBankDrainEnd (b : Fin 2)
  | caddyWaitGrant
  | queueSample
  | qclr (by_ : Party) (p : PortId) (v : Word)
  -- clears
  | caddyClr (by_ : Party) (v : Word)
  | beadTallyClr (by_ : Party) (v : Word)
  | schedCollClr (by_ : Party) (v : Word)
  | schedExpClr (by_ : Party) (v : Word)
  | schedSampClr (by_ : Party) (v : Word)
  | portFrclr (by_ : Party) (p : PortId) (v : Word)
  | routeTallyClr (by_ : Party) (v : Word)
  | schedBreachClr (by_ : Party) (v : Word)
  | globalStrictClr (by_ : Party) (v : Word)
  | memregClr (by_ : Party) (v : Word)
  | cboardClr (by_ : Party) (v : Word)
  | globalRejClr (by_ : Party) (v : Word)
  -- memory and Counting board requests
  | mreqLoad (f : Src)
  | mreqStore (f : Src)
  | doneAckSend (src : Fnid)
  | add32 (f : Src)
  | add64 (f : Src)
  | beadadd (f : Src)
  | mins64 (f : Src)
  | maxs64 (f : Src)
  | minu64 (f : Src)
  | maxu64 (f : Src)
  | and64 (f : Src)
  | or64 (f : Src)
  | xor64 (f : Src)
  | swap64 (f : Src)
  | cas64 (f : Src)
  | cas128 (f : Src)
  | fadd32 (f : Src)
  | replayLogExpiry (src : Fnid) (tag : BitVec 12)
  | logRoomGrant
  | syncArrive (f : Src)
  | syncWait (f : Src)
  | syncAdd (f : Src)
  | syncReset (f : Src)
  | syncRead (f : Src)
  | releaseForm (n : BitVec 16)
  | releaseRx (f : Src)
  | mrspRx (f : Src)
  | ackDoneRx (f : Src)
  | nackLostRx (f : Src)
  -- membership, replay, Brews
  | epochArrive (f : Src)
  | authArrive (f : Src)
  | rewindArrive (f : Src)
  | rewindCmdWrite (by_ : Party) (k : SlotId) (v : Word)
  | rewindDone (k : SlotId)
  | commitArrive (f : Src)
  | commitComplete
  | unloadArrive (f : Src)
  | unloadWrite (by_ : Party) (v : Word)
  | unloadDone
  | strictWrite (by_ : Party) (v : Word)
  | auditRecheckGo (by_ : Party) (v : Word)
  | auditRecheckDone
  -- links and units
  | beatRx (f : Src)
  | beatSend (p : PortId)
  | heartbeatInterval (p : PortId)
  | trainingSuccess (p : PortId)
  | trainingTimeout (p : PortId)
  | trainingRestart (p : PortId)
  | probationPass (p : PortId)
  | d2dLinkFail (a b : Fin 4)
  | portRemove (by_ : Party) (v : Word)
  | portReturn (by_ : Party) (v : Word)
  | coreRemove (by_ : Party) (v : Word)
  | coreReturn (by_ : Party) (v : Word)
  | stackRemove (by_ : Party) (v : Word)
  | stackReturn (by_ : Party) (v : Word)
  | stackScrubDone (t : StackTrain) (uncorrectable : Bool)
  | unitReturnTimeout
  | holdEnter (mv : Nat)
  | holdExit (minMv : Nat)
  | brownoutReset (minMv : Nat)
  | brownoutResetEnd
  | railUndervoltage
  -- health
  | shadowCheckDone (i : Nat) (upset : Option (List Byte))
  | shadowArbiterDone (i : Nat) (upset : Option (List Byte))
  | shadowCheckAbandon (i : Nat)
  | coreQuizDue (c : CoreId)
  | coreQuizEnd (c : CoreId) (expected obtained : BitVec 32)
  | laneQuizDue (p : PortId)
  | mgmtQuizFrame (f : Src)
  | laneQuizNoecho (p : PortId)
  | stackQuizDue (k : StackId)
  | stackQuizEnd (k : StackId) (r : StackQuizResult)
  | tempSample (die : Fin 24) (t : BitVec 16)
  | slackSample (n : IslandId) (ps : BitVec 16)
  | driftSample (n : IslandId) (d : BitVec 16)
  | eyeSample (l : LaneId) (height : BitVec 11) (width : BitVec 10)
  | shadowClear (by_ : Party) (v : Word)
  | eyeClear (by_ : Party) (v : Word)
  | slackClear (by_ : Party) (v : Word)
  | tempClear (by_ : Party) (v : Word)
  | hourlyRecords
  | tallyBookWrite (flashOk : Bool)
  | bookBudgetRefill
  | telemetryPeriod (room : Nat)
  | journalReplay (by_ : Party) (v : Word)
  | pldmSensorRefresh (x : SensorSample)
  | getTid (r : PldmReq)
  | getPldmTypes (r : PldmReq)
  | getPldmCommands (r : PldmReq)
  | getPldmVersion (r : PldmReq)
  | getSensorReading (r : PldmReq)
  | getStateSensorReadings (r : PldmReq)
  | getPdrRepositoryInfo (r : PldmReq)
  | getPdr (r : PldmReq)
  | pldmUnsupportedCommand (r : PldmReq)
  -- boot, power, out of band
  | powerOn
  | kettlePowerLoss
  | sysPwrokFall
  | sysRstNAssert
  | bootStart (x : Straps)
  | imageVerifyDone (a b : ImageContent)
  | bootReady (trained : List StackTrain) (pllOk : Bool)
  | hello (m : CtlMsg)
  | oobRead (m : CtlMsg)
  | oobWrite (m : CtlMsg)
  | oobReset (m : CtlMsg)
  | imgerase (m : CtlMsg)
  | imgwrite (m : CtlMsg)
  | bookread (m : CtlMsg)
  | islandSleep (n : IslandId)
  | islandWake (n : IslandId)
  | prewakeDue (i : Fin 4096)
  | kaIdleTimeout (p : PortId)
  | kaReq (f : Src)
  | kaAck (f : Src)
  | kaNak (f : Src)
  | kaExit (f : Src)
  | keepaliveEntered (p : PortId)
  | keepaliveEntryTimeout (p : PortId)
  | keepaliveExitDone (p : PortId)
  | keepaliveExitTimeout (p : PortId)
  | mgmtWake (f : Src)
  | mgmtUnknown (f : Src)
  | pwrCmdRun (by_ : Party) (v : Word)
  | pwrCmdIdle (by_ : Party) (v : Word)
  | pwrCmdKettleOnly (by_ : Party) (v : Word)
  | paceStep (watts : Nat)
  | thermalTrip (die : Fin 24) (t : BitVec 16)
  | thermtripRelease
  | jtagBypass (bits : List Bool)
  | jtagIdcode
  | jtagSamplePreload (preload : List Bool)
  | jtagExtest
  | jtagExtestPulse
  | jtagExtestTrain
  | linkWordResync (p : PortId) (w : Word)
  | uncorrectableCodeword (p : PortId) (during : Option RxFrame)
  | correctedCodeword (p : PortId) (syms : List (LaneId × Nat))
  | reservedMop (m : CtlMsg)
  | icmpv6EchoRequest (src : IcmpEnds) (body : List Byte)
  | neighbourSolicitation (src target : BitVec 128)
  | journalReplayEnd
  | idleEntryDone
  | idleExitDone
  | combineBlockDone (layer : BitVec 32) (step : Word) (owner : Fnid) (token : BitVec 32) (b : Nat)
deriving DecidableEq, Repr

end Sys2Proof
end

