-- ==== Sys2Proof/Decode.lean ====
section
/-!
DEFINITION. Reading instructions. The table of operations gives no row any bits, so no word of it spells a command
(decodeTableWord). What a Rod core fetches from its instruction memory is a 32-bit word: decodeRod reads it by Tables
3.3 and 3.4, and encodeRod writes it. An encoding outside Table 3.4 is refused (R70).
-/
namespace Sys2Proof

/-- The command that a word spells by the table's bits: the table gives none of its rows bits. -/
def decodeTableWord (_nbits _w : Nat) : Option Instr := none

namespace Rod

/-- OP, bits [31:26] (Table 3.3). -/
def op (w : BitVec 32) : Nat := (w.extractLsb' 26 6).toNat
/-- RD of formats R, I and S; RS1 of format B. -/
def rd (w : BitVec 32) : GReg := w.extractLsb' 21 5
/-- RS1 of formats R, I and S; RS2 of format B. -/
def rs1 (w : BitVec 32) : GReg := w.extractLsb' 16 5
/-- RS2 of format R. -/
def rs2 (w : BitVec 32) : GReg := w.extractLsb' 11 5
/-- FN of format R. -/
def fn (w : BitVec 32) : Nat := (w.extractLsb' 0 11).toNat
/-- IMM of format I, OFF of format B. -/
def imm (w : BitVec 32) : BitVec 16 := w.extractLsb' 0 16
/-- SEL of format S. -/
def sel (w : BitVec 32) : Sel := w.extractLsb' 12 4
/-- FLD of format S. -/
def fld (w : BitVec 32) : BitVec 4 := w.extractLsb' 8 4
/-- OFF of format J. -/
def joff (w : BitVec 32) : BitVec 26 := w.extractLsb' 0 26
/-- In format S, bits [7:0] are zero and FLD is below 6 (R70). -/
def sOk (w : BitVec 32) : Bool := (w.extractLsb' 0 8 == 0#8) && decide ((fld w).toNat < 6)

end Rod

/-- The queue a PUSH or QCNT names in FN[2:0]; none where FN lies outside the table. -/
def queueOf (fn : Nat) : Option QueueId := if h : fn < 5 then some ⟨fn, h⟩ else none

/-- OP 0x00 by FN (Table 3.4). -/
def decodeAlu (c : CoreId) (fn : Nat) (d a b : GReg) : Option Instr :=
  match fn with
  | 0 => some (.add c d a b)
  | 1 => some (.sub c d a b)
  | 2 => some (.and c d a b)
  | 3 => some (.or c d a b)
  | 4 => some (.xor c d a b)
  | 5 => some (.sll c d a b)
  | 6 => some (.srl c d a b)
  | 7 => some (.sra c d a b)
  | 8 => some (.slt c d a b)
  | 9 => some (.sltu c d a b)
  | 10 => some (.mul c d a b)
  | 11 => some (.mulhu c d a b)
  | _ => none

/-- The formats I, B and J by OP (Table 3.4). -/
def decodeImm (c : CoreId) (w : BitVec 32) : Option Instr :=
  let d := Rod.rd w
  let a := Rod.rs1 w
  let i := Rod.imm w
  match Rod.op w with
  | 0x01 => some (.addi c d a i)
  | 0x02 => some (.andi c d a i)
  | 0x03 => some (.ori c d a i)
  | 0x04 => some (.xori c d a i)
  | 0x05 => some (.slli c d a i)
  | 0x06 => some (.srli c d a i)
  | 0x07 => some (.srai c d a i)
  | 0x08 => some (.lui c d i)
  | 0x09 => some (.shori c d a i)
  | 0x0A => some (.slti c d a i)
  | 0x10 => some (.ld c d a i)
  | 0x11 => some (.lw c d a i)
  | 0x12 => some (.st c d a i)
  | 0x13 => some (.sw c d a i)
  | 0x18 => some (.beq c d a i)
  | 0x19 => some (.bne c d a i)
  | 0x1A => some (.blt c d a i)
  | 0x1B => some (.bge c d a i)
  | 0x1C => some (.bltu c d a i)
  | 0x1D => some (.bgeu c d a i)
  | 0x1E => some (.jal c (Rod.joff w))
  | 0x1F => some (.jalr c d a i)
  | _ => none

/-- The format S by OP (Table 3.4). -/
def decodeSel (c : CoreId) (w : BitVec 32) : Option Instr :=
  let d := Rod.rd w
  let a := Rod.rs1 w
  let t := Rod.sel w
  if Rod.sOk w then
    match Rod.op w with
    | 0x20 => some (.arset c t (Rod.fld w) a)
    | 0x21 => some (.arget c d t (Rod.fld w))
    | 0x22 => some (.arstep c t a)
    | 0x23 => some (.araddr c d t)
    | 0x2C => some (.tsig c t)
    | 0x2D => some (.twait c t)
    | 0x2E => some (.tread c d t)
    | 0x30 => some (.rdstep c d)
    | 0x31 => some (.rdcyc c d)
    | 0x32 => some (.rdent c d)
    | 0x33 => some (.rdid c d)
    | 0x34 => some (.stepend c)
    | 0x35 => some (.halt c)
    | _ => none
  else none

/-- The instruction that core c reads in the word w; none where the encoding is illegal (R70). The word of zero is illegal (R64), although Table 3.4
read alone would give it to ADD g0, g0, g0 (DEDUCED, log entry 119). -/
def decodeRod (c : CoreId) (w : BitVec 32) : Option Instr :=
  if w = 0 then none
  else match Rod.op w with
  | 0x00 => decodeAlu c (Rod.fn w) (Rod.rd w) (Rod.rs1 w) (Rod.rs2 w)
  | 0x28 => (queueOf (Rod.fn w)).map (fun q => .push c q (Rod.rs1 w) (Rod.rs2 w))
  | 0x29 => (queueOf (Rod.fn w)).map (fun q => .qcnt c (Rod.rd w) q)
  | _ => (decodeImm c w).orElse (fun _ => decodeSel c w)

/-- A word as an encoding: the word of zero is none (R64). -/
def nonzeroWord (w : BitVec 32) : Option (BitVec 32) := if w = 0 then none else some w

/-- Format R (Table 3.3). -/
def encR (op : Nat) (d a b : GReg) (fn : Nat) : BitVec 32 :=
  BitVec.ofNat 6 op ++ d ++ a ++ b ++ BitVec.ofNat 11 fn
/-- Formats I and B. -/
def encI (op : Nat) (d a : GReg) (i : BitVec 16) : BitVec 32 := BitVec.ofNat 6 op ++ d ++ a ++ i
/-- Format J. -/
def encJ (op : Nat) (o : BitVec 26) : BitVec 32 := BitVec.ofNat 6 op ++ o
/-- Format S. -/
def encS (op : Nat) (d a : GReg) (t : Sel) (f : BitVec 4) : BitVec 32 :=
  BitVec.ofNat 6 op ++ d ++ a ++ t ++ f ++ 0#8

/-- The word of a control-core instruction (Tables 3.3 and 3.4), unused fields zero; none for the other rows. -/
def encodeRod : Instr → Option (BitVec 32)
  | .add _ d a b => nonzeroWord (encR 0x00 d a b 0)
  | .sub _ d a b => some (encR 0x00 d a b 1)
  | .and _ d a b => some (encR 0x00 d a b 2)
  | .or _ d a b => some (encR 0x00 d a b 3)
  | .xor _ d a b => some (encR 0x00 d a b 4)
  | .sll _ d a b => some (encR 0x00 d a b 5)
  | .srl _ d a b => some (encR 0x00 d a b 6)
  | .sra _ d a b => some (encR 0x00 d a b 7)
  | .slt _ d a b => some (encR 0x00 d a b 8)
  | .sltu _ d a b => some (encR 0x00 d a b 9)
  | .mul _ d a b => some (encR 0x00 d a b 10)
  | .mulhu _ d a b => some (encR 0x00 d a b 11)
  | .addi _ d a i => some (encI 0x01 d a i)
  | .andi _ d a i => some (encI 0x02 d a i)
  | .ori _ d a i => some (encI 0x03 d a i)
  | .xori _ d a i => some (encI 0x04 d a i)
  | .slli _ d a i => some (encI 0x05 d a i)
  | .srli _ d a i => some (encI 0x06 d a i)
  | .srai _ d a i => some (encI 0x07 d a i)
  | .lui _ d i => some (encI 0x08 d 0 i)
  | .shori _ d a i => some (encI 0x09 d a i)
  | .slti _ d a i => some (encI 0x0A d a i)
  | .ld _ d a i => some (encI 0x10 d a i)
  | .lw _ d a i => some (encI 0x11 d a i)
  | .st _ d a i => some (encI 0x12 d a i)
  | .sw _ d a i => some (encI 0x13 d a i)
  | .beq _ a b o => some (encI 0x18 a b o)
  | .bne _ a b o => some (encI 0x19 a b o)
  | .blt _ a b o => some (encI 0x1A a b o)
  | .bge _ a b o => some (encI 0x1B a b o)
  | .bltu _ a b o => some (encI 0x1C a b o)
  | .bgeu _ a b o => some (encI 0x1D a b o)
  | .jal _ o => some (encJ 0x1E o)
  | .jalr _ d a i => some (encI 0x1F d a i)
  | .arset _ t f a => some (encS 0x20 0 a t f)
  | .arget _ d t f => some (encS 0x21 d 0 t f)
  | .arstep _ t a => some (encS 0x22 0 a t 0)
  | .araddr _ d t => some (encS 0x23 d 0 t 0)
  | .push _ q a b => some (encR 0x28 0 a b q.val)
  | .qcnt _ d q => some (encR 0x29 d 0 0 q.val)
  | .tsig _ t => some (encS 0x2C 0 0 t 0)
  | .twait _ t => some (encS 0x2D 0 0 t 0)
  | .tread _ d t => some (encS 0x2E d 0 t 0)
  | .rdstep _ d => some (encS 0x30 d 0 0 0)
  | .rdcyc _ d => some (encS 0x31 d 0 0 0)
  | .rdent _ d => some (encS 0x32 d 0 0 0)
  | .rdid _ d => some (encS 0x33 d 0 0 0)
  | .stepend _ => some (encS 0x34 0 0 0 0)
  | .halt _ => some (encS 0x35 0 0 0 0)
  | _ => none

/-- The core an instruction of a control core names; core 0 for the other rows. -/
def rodCore : Instr → CoreId
  | .add c .. | .sub c .. | .and c .. | .or c .. | .xor c .. | .sll c .. | .srl c .. | .sra c .. | .slt c ..
  | .sltu c .. | .mul c .. | .mulhu c .. => c
  | .addi c .. | .andi c .. | .ori c .. | .xori c .. | .slli c .. | .srli c .. | .srai c .. | .lui c ..
  | .shori c .. | .slti c .. => c
  | .ld c .. | .lw c .. | .st c .. | .sw c .. => c
  | .beq c .. | .bne c .. | .blt c .. | .bge c .. | .bltu c .. | .bgeu c .. | .jal c .. | .jalr c .. => c
  | .arset c .. | .arget c .. | .arstep c .. | .araddr c .. | .push c .. | .qcnt c .. => c
  | .tsig c .. | .twait c .. | .tread c .. | .rdstep c .. | .rdcyc c .. | .rdent c .. | .rdid c .. => c
  | .stepend c => c
  | .halt c => c
  | _ => 0

end Sys2Proof
end

