-- ==== Sys2Proof/Config.lean ====
section
/-!
DEFINITION. What an implementation fixes and the manual leaves open: the free values.
A free value is an opaque constant applied to the model's own counter State.free, so nothing can be
proved about the number it is (log entries 3 and 4).
-/
namespace Sys2Proof.Config

open Sys2Proof

/-- The n-th value that the manual leaves open: entropy (R73, R378), the values of a case with
undefined results (R14, R346), a silent corner. -/
opaque freeWord : Nat → Word

/-- Which of two FP32 lanes VMIN, VMAX and VRMAX return where a lane is a NaN or both are zeros of different sign: least or largest, and the two
lanes. A function of the operands, since the commands are not marked "may vary" (R13, log entry 6). -/
opaque pickFirst : Bool → Nat → Nat → Bool

/-- What a FINITE contribution m × 2^e adds to a Bead under an exponent code that is no exponent (0x00 or 0xFF), which nothing fixes (R13, log entry 6). -/
opaque openEntry : Nat → Int → Int → Int

/-- The Bead that TMM writes in MODE 2 for column j of a NONFINITE row, from the row of A and from B in bytes (R13, log entry 6). -/
opaque openSum : List Byte → List Byte → Nat → Bead

/-- Whether admission takes a PREWAKE entry with a DELAY other than 0 to wake its island before a stage of the path of a descriptor (its table and number): R274
does not say when a stage runs after a step release (log entry 33). -/
opaque wakesBefore : Nat → Nat → Nat → Bool

/-- How a FAULT record's W2 names a stack and an address in it, and a die and an SRAM block: Table 13.17 gives no places of the bits (log entry 79). -/
opaque faultStack : Nat → Nat → Word
opaque faultSram : Nat → Nat → Word

/-- The number of the SRAM block of a die that holds an address of a memory: Rod memory, instruction memory, Bead file or Caddy (0 to 3), the core or
partition, and the address. Nothing numbers the blocks (log entry 79). -/
opaque sramBlock : Nat → Nat → Nat → Nat

/-- The key hash that this device's fuses hold (R370): what the part was given before its first power-on. -/
opaque fuseKeyHash : List Byte

/-- How many of the 64 security-version fuses are blown when the device is first powered (R371). -/
opaque fuseSvn : Fin 65

/-- The identifiers in the fuses of the core and I/O dies (Table 13.2). -/
opaque dieId : Nat → Word

/-- The terminus identifier that GetTID answers (R365 gives none). -/
opaque pldmTid : Byte

/-- The version that GetPLDMVersion answers for a PLDM type (R365 gives none). -/
opaque pldmVersion : Nat → BitVec 32

/-- What the platform description records hold in a field that R365 does not give: record and place in it. -/
opaque pdrOpen : Nat → Nat → BitVec 32

/-- The link-local address of the management port (R377 says that it has one). -/
opaque linkLocal : BitVec 128

/-- The link-layer address of the management port, which a neighbour advertisement carries. -/
opaque macAddr : BitVec 48

end Sys2Proof.Config
end

