-- ==== Sys2Proof/Machine/Regs.lean ====
section
/-!
DEFINITION. The registers of the device (Table 16.6): for each its control offset from 0x00FF_0000_0000
(R420), how many elements its array has, and the fields of its defining table with their access types
(Table 0.3) and reset values (R10: a field whose reset is IMG reads zero until the image is loaded).
Reserved fields are in no list: they read as zero and ignore writes (R9).
-/
namespace Sys2Proof.Machine

open Sys2Proof

/-- Access types (Table 0.3). -/
inductive Access where
  | ro | rw | w1c | rwo | oob | brew
deriving DecidableEq, Repr

/-- One field of a register's field map: bits hi down to lo, its access type and its reset value. -/
structure RField where
  hi : Nat
  lo : Nat
  acc : Access
  rst : Nat
deriving DecidableEq, Repr

/-- The registers of Table 16.6, in its order. -/
inductive Reg where
  | GLOBAL_MODE
  | GLOBAL_REJ
  | GLOBAL_REJ_CLR
  | GLOBAL_FAULT
  | GLOBAL_FAULT_MASK
  | GLOBAL_HOLD
  | GLOBAL_MEPOCH
  | GLOBAL_UNITCMD
  | GLOBAL_STRICT_TALLY
  | GLOBAL_STRICT_CLR
  | GLOBAL_AUTH
  | GLOBAL_FENCE
  | KETTLE_ID
  | KETTLE_BOOT
  | KETTLE_OOB_STAT
  | KETTLE_PWR_CMD
  | KETTLE_PWR_CAP
  | KETTLE_PWR_STAT
  | KETTLE_HEALTH_CLR
  | KETTLE_SHADOW_CFG
  | KETTLE_SHADOW_STAT
  | KETTLE_QUIZ_CFG
  | KETTLE_QUIZ_STAT
  | KETTLE_DIEID
  | KETTLE_TEMP
  | PORT_HB_CFG
  | PORT_FWDMODE
  | PORT_EGCFG
  | PORT_RXFRAME
  | PORT_RXREJ
  | PORT_LINKERR
  | PORT_FRCLR
  | PORT_HEALTH
  | PORT_KA
  | PORT_QMAP
  | PORT_VCCRED
  | PORT_QSHAPE
  | PORT_QSTAT
  | LANE_CFG
  | LANE_EYE
  | LANE_FEC
  | LANE_PMAP
  | LANE_FECCW
  | ROUTE_ADAPT_CFG
  | ROUTE_RESEQ_CFG
  | ROUTE_FWD_TALLY
  | ROUTE_PATH_TALLY
  | ROUTE_TALLY_CLR
  | ROUTE_BANK
  | ROUTE_RESEQ_TALLY
  | ROUTE_UPMASK
  | ROUTE_UPPORT
  | ROUTE_DOWNPORT
  | ROUTE_RSET
  | MCAST_TALLY
  | MCAST_LOCAL
  | MCAST_GRP
  | SCHED_SKEW_CFG
  | SCHED_ADMIT
  | SCHED_COMMIT
  | SCHED_UNLOAD
  | SCHED_BREACH
  | SCHED_BREACH_FIRST
  | SCHED_BREACH_CLR
  | SCHED_COLL_CLR
  | SCHED_EXP_DROP
  | SCHED_EXP_TOK
  | SCHED_EXP_SPEC
  | SCHED_EXP_SQ
  | SCHED_EXP_EVT
  | SCHED_EXP_END
  | SCHED_EXP_CLR
  | SCHED_SAMP_CLR
  | SCHED_COLL_DROP
  | SCHED_COLL_END
  | SCHED_COLL_SPARSE
  | SCHED_SKEW
  | SCHED_LATE
  | SCHED_SAMP_EVT
  | SCHED_STEP
  | SCHED_SEEDN
  | SCHED_REWIND
  | SCHED_REWIND_CMD
  | SCHED_PLACE_EFF
  | SCHED_SEED
  | SCHED_PREWAKE
  | SCHED_XLAYER
  | SCHED_SAMPLE
  | SCHED_MEMBER
  | SCHED_CAL
  | SCHED_BMAP
  | SCHED_AFFIN
  | SCHED_COLL
  | SCHED_PLACE
  | CADDY_HBM
  | CADDY_EVT
  | CADDY_CLR
  | CADDY_POOL
  | CADDY_QUOTA
  | CADDY_QUSE
  | CADDY_QTALLY
  | CADDY_PSTAT
  | CADDY_PART
  | ROD_STALL_LIMIT
  | ROD_STATUS
  | ROD_CTRL
  | ROD_ENTRY
  | ROD_TOKENS_LO
  | ROD_TOKENS_HI
  | ROD_HAZ_CNT
  | ROD_HAZ_FIRST
  | ROD_CMD_TALLY
  | ROD_STR_TALLY
  | ROD_ISLAND
  | ROD_MARGIN
  | ROD_SHADOW
  | BEAD_TALLY_CLR
  | BEAD_TALLY
  | HBM_HEALTH
  | MEMREG_CFG
  | MEMREG_TALLY
  | MEMREG_ERR
  | MEMREG_CLR
  | MEMREG_RANGE
  | MEMREG_CTL
  | MEMREG_FSTAT
  | CBOARD_TALLY
  | CBOARD_CLR
  | TALLY_BOOK_STAT
  | TALLY_TELE_CFG
  | AUDIT_RECHK
  | AUDIT_PWD
deriving DecidableEq, Repr

/-- Part 0 of the list of registers. -/
def Reg.part0 : List Reg := [.GLOBAL_MODE, .GLOBAL_REJ, .GLOBAL_REJ_CLR, .GLOBAL_FAULT, .GLOBAL_FAULT_MASK, .GLOBAL_HOLD, .GLOBAL_MEPOCH, .GLOBAL_UNITCMD, .GLOBAL_STRICT_TALLY, .GLOBAL_STRICT_CLR, .GLOBAL_AUTH, .GLOBAL_FENCE, .KETTLE_ID, .KETTLE_BOOT, .KETTLE_OOB_STAT, .KETTLE_PWR_CMD, .KETTLE_PWR_CAP, .KETTLE_PWR_STAT, .KETTLE_HEALTH_CLR, .KETTLE_SHADOW_CFG, .KETTLE_SHADOW_STAT, .KETTLE_QUIZ_CFG, .KETTLE_QUIZ_STAT, .KETTLE_DIEID]

/-- Part 1 of the list of registers. -/
def Reg.part1 : List Reg := [.KETTLE_TEMP, .PORT_HB_CFG, .PORT_FWDMODE, .PORT_EGCFG, .PORT_RXFRAME, .PORT_RXREJ, .PORT_LINKERR, .PORT_FRCLR, .PORT_HEALTH, .PORT_KA, .PORT_QMAP, .PORT_VCCRED, .PORT_QSHAPE, .PORT_QSTAT, .LANE_CFG, .LANE_EYE, .LANE_FEC, .LANE_PMAP, .LANE_FECCW, .ROUTE_ADAPT_CFG, .ROUTE_RESEQ_CFG, .ROUTE_FWD_TALLY, .ROUTE_PATH_TALLY, .ROUTE_TALLY_CLR]

/-- Part 2 of the list of registers. -/
def Reg.part2 : List Reg := [.ROUTE_BANK, .ROUTE_RESEQ_TALLY, .ROUTE_UPMASK, .ROUTE_UPPORT, .ROUTE_DOWNPORT, .ROUTE_RSET, .MCAST_TALLY, .MCAST_LOCAL, .MCAST_GRP, .SCHED_SKEW_CFG, .SCHED_ADMIT, .SCHED_COMMIT, .SCHED_UNLOAD, .SCHED_BREACH, .SCHED_BREACH_FIRST, .SCHED_BREACH_CLR, .SCHED_COLL_CLR, .SCHED_EXP_DROP, .SCHED_EXP_TOK, .SCHED_EXP_SPEC, .SCHED_EXP_SQ, .SCHED_EXP_EVT, .SCHED_EXP_END, .SCHED_EXP_CLR]

/-- Part 3 of the list of registers. -/
def Reg.part3 : List Reg := [.SCHED_SAMP_CLR, .SCHED_COLL_DROP, .SCHED_COLL_END, .SCHED_COLL_SPARSE, .SCHED_SKEW, .SCHED_LATE, .SCHED_SAMP_EVT, .SCHED_STEP, .SCHED_SEEDN, .SCHED_REWIND, .SCHED_REWIND_CMD, .SCHED_PLACE_EFF, .SCHED_SEED, .SCHED_PREWAKE, .SCHED_XLAYER, .SCHED_SAMPLE, .SCHED_MEMBER, .SCHED_CAL, .SCHED_BMAP, .SCHED_AFFIN, .SCHED_COLL, .SCHED_PLACE, .CADDY_HBM, .CADDY_EVT]

/-- Part 4 of the list of registers. -/
def Reg.part4 : List Reg := [.CADDY_CLR, .CADDY_POOL, .CADDY_QUOTA, .CADDY_QUSE, .CADDY_QTALLY, .CADDY_PSTAT, .CADDY_PART, .ROD_STALL_LIMIT, .ROD_STATUS, .ROD_CTRL, .ROD_ENTRY, .ROD_TOKENS_LO, .ROD_TOKENS_HI, .ROD_HAZ_CNT, .ROD_HAZ_FIRST, .ROD_CMD_TALLY, .ROD_STR_TALLY, .ROD_ISLAND, .ROD_MARGIN, .ROD_SHADOW, .BEAD_TALLY_CLR, .BEAD_TALLY, .HBM_HEALTH, .MEMREG_CFG]

/-- Part 5 of the list of registers. -/
def Reg.part5 : List Reg := [.MEMREG_TALLY, .MEMREG_ERR, .MEMREG_CLR, .MEMREG_RANGE, .MEMREG_CTL, .MEMREG_FSTAT, .CBOARD_TALLY, .CBOARD_CLR, .TALLY_BOOK_STAT, .TALLY_TELE_CFG, .AUDIT_RECHK, .AUDIT_PWD]

/-- Every register, in the order of Table 16.6. -/
def Reg.all : List Reg :=
  Reg.part0 ++ Reg.part1 ++ Reg.part2 ++ Reg.part3 ++ Reg.part4 ++ Reg.part5

/-- The control offset of a register's first element (Tables 16.1 and 16.6). -/
def Reg.base : Reg → Nat
  | .GLOBAL_MODE => 0x0000000
  | .GLOBAL_REJ => 0x0000008
  | .GLOBAL_REJ_CLR => 0x0000010
  | .GLOBAL_FAULT => 0x0000020
  | .GLOBAL_FAULT_MASK => 0x0000028
  | .GLOBAL_HOLD => 0x0000030
  | .GLOBAL_MEPOCH => 0x0000038
  | .GLOBAL_UNITCMD => 0x0000040
  | .GLOBAL_STRICT_TALLY => 0x0000048
  | .GLOBAL_STRICT_CLR => 0x0000050
  | .GLOBAL_AUTH => 0x0000100
  | .GLOBAL_FENCE => 0x0000200
  | .KETTLE_ID => 0x1000000
  | .KETTLE_BOOT => 0x1000008
  | .KETTLE_OOB_STAT => 0x1000010
  | .KETTLE_PWR_CMD => 0x1000018
  | .KETTLE_PWR_CAP => 0x1000020
  | .KETTLE_PWR_STAT => 0x1000028
  | .KETTLE_HEALTH_CLR => 0x1000030
  | .KETTLE_SHADOW_CFG => 0x1000038
  | .KETTLE_SHADOW_STAT => 0x1000040
  | .KETTLE_QUIZ_CFG => 0x1000048
  | .KETTLE_QUIZ_STAT => 0x1000050
  | .KETTLE_DIEID => 0x1000100
  | .KETTLE_TEMP => 0x1000200
  | .PORT_HB_CFG => 0x2000000
  | .PORT_FWDMODE => 0x2001000
  | .PORT_EGCFG => 0x2002000
  | .PORT_RXFRAME => 0x2003000
  | .PORT_RXREJ => 0x2004000
  | .PORT_LINKERR => 0x2005000
  | .PORT_FRCLR => 0x2006000
  | .PORT_HEALTH => 0x2007000
  | .PORT_KA => 0x2008000
  | .PORT_QMAP => 0x2010000
  | .PORT_VCCRED => 0x2020000
  | .PORT_QSHAPE => 0x2030000
  | .PORT_QSTAT => 0x2040000
  | .LANE_CFG => 0x3000000
  | .LANE_EYE => 0x3001000
  | .LANE_FEC => 0x3002000
  | .LANE_PMAP => 0x3003000
  | .LANE_FECCW => 0x3004000
  | .ROUTE_ADAPT_CFG => 0x4000000
  | .ROUTE_RESEQ_CFG => 0x4000008
  | .ROUTE_FWD_TALLY => 0x4000010
  | .ROUTE_PATH_TALLY => 0x4000018
  | .ROUTE_TALLY_CLR => 0x4000020
  | .ROUTE_BANK => 0x4000100
  | .ROUTE_RESEQ_TALLY => 0x4000200
  | .ROUTE_UPMASK => 0x4001000
  | .ROUTE_UPPORT => 0x4002000
  | .ROUTE_DOWNPORT => 0x4003000
  | .ROUTE_RSET => 0x4008000
  | .MCAST_TALLY => 0x5000000
  | .MCAST_LOCAL => 0x5001000
  | .MCAST_GRP => 0x5040000
  | .SCHED_SKEW_CFG => 0x6000000
  | .SCHED_ADMIT => 0x6000008
  | .SCHED_COMMIT => 0x6000010
  | .SCHED_UNLOAD => 0x6000018
  | .SCHED_BREACH => 0x6000020
  | .SCHED_BREACH_FIRST => 0x6000028
  | .SCHED_BREACH_CLR => 0x6000030
  | .SCHED_COLL_CLR => 0x6000038
  | .SCHED_EXP_DROP => 0x6000040
  | .SCHED_EXP_TOK => 0x6000048
  | .SCHED_EXP_SPEC => 0x6000050
  | .SCHED_EXP_SQ => 0x6000058
  | .SCHED_EXP_EVT => 0x6000060
  | .SCHED_EXP_END => 0x6000068
  | .SCHED_EXP_CLR => 0x6000070
  | .SCHED_SAMP_CLR => 0x6000078
  | .SCHED_COLL_DROP => 0x6000100
  | .SCHED_COLL_END => 0x6000180
  | .SCHED_COLL_SPARSE => 0x6000200
  | .SCHED_SKEW => 0x6000280
  | .SCHED_LATE => 0x6000300
  | .SCHED_SAMP_EVT => 0x6000380
  | .SCHED_STEP => 0x6000400
  | .SCHED_SEEDN => 0x6000440
  | .SCHED_REWIND => 0x6000480
  | .SCHED_REWIND_CMD => 0x60004C0
  | .SCHED_PLACE_EFF => 0x6000500
  | .SCHED_SEED => 0x6001000
  | .SCHED_PREWAKE => 0x6008000
  | .SCHED_XLAYER => 0x6010000
  | .SCHED_SAMPLE => 0x6020000
  | .SCHED_MEMBER => 0x6040000
  | .SCHED_CAL => 0x6060000
  | .SCHED_BMAP => 0x6080000
  | .SCHED_AFFIN => 0x6100000
  | .SCHED_COLL => 0x6200000
  | .SCHED_PLACE => 0x6400000
  | .CADDY_HBM => 0x7000000
  | .CADDY_EVT => 0x7000008
  | .CADDY_CLR => 0x7000010
  | .CADDY_POOL => 0x7000100
  | .CADDY_QUOTA => 0x7001000
  | .CADDY_QUSE => 0x7002000
  | .CADDY_QTALLY => 0x7003000
  | .CADDY_PSTAT => 0x7008000
  | .CADDY_PART => 0x7020000
  | .ROD_STALL_LIMIT => 0x8000000
  | .ROD_STATUS => 0x8001000
  | .ROD_CTRL => 0x8001800
  | .ROD_ENTRY => 0x8002000
  | .ROD_TOKENS_LO => 0x8002800
  | .ROD_TOKENS_HI => 0x8003000
  | .ROD_HAZ_CNT => 0x8003800
  | .ROD_HAZ_FIRST => 0x8004000
  | .ROD_CMD_TALLY => 0x8004800
  | .ROD_STR_TALLY => 0x8005000
  | .ROD_ISLAND => 0x8006000
  | .ROD_MARGIN => 0x8006200
  | .ROD_SHADOW => 0x8008000
  | .BEAD_TALLY_CLR => 0x9000000
  | .BEAD_TALLY => 0x9000100
  | .HBM_HEALTH => 0xA000000
  | .MEMREG_CFG => 0xB000000
  | .MEMREG_TALLY => 0xB000008
  | .MEMREG_ERR => 0xB000010
  | .MEMREG_CLR => 0xB000018
  | .MEMREG_RANGE => 0xB008000
  | .MEMREG_CTL => 0xB010000
  | .MEMREG_FSTAT => 0xB018000
  | .CBOARD_TALLY => 0xC000000
  | .CBOARD_CLR => 0xC000008
  | .TALLY_BOOK_STAT => 0xD000000
  | .TALLY_TELE_CFG => 0xD000008
  | .AUDIT_RECHK => 0xE000000
  | .AUDIT_PWD => 0xE000100

/-- The number of elements (Table 16.6). -/
def Reg.count : Reg → Nat
  | .GLOBAL_AUTH => 8
  | .GLOBAL_FENCE => 64
  | .KETTLE_DIEID => 24
  | .KETTLE_TEMP => 24
  | .PORT_FWDMODE => 128
  | .PORT_EGCFG => 128
  | .PORT_RXFRAME => 128
  | .PORT_RXREJ => 128
  | .PORT_LINKERR => 128
  | .PORT_FRCLR => 128
  | .PORT_HEALTH => 128
  | .PORT_KA => 128
  | .PORT_QMAP => 384
  | .PORT_VCCRED => 2048
  | .PORT_QSHAPE => 4096
  | .PORT_QSTAT => 4096
  | .LANE_CFG => 512
  | .LANE_EYE => 512
  | .LANE_FEC => 512
  | .LANE_PMAP => 128
  | .LANE_FECCW => 128
  | .ROUTE_BANK => 2
  | .ROUTE_RESEQ_TALLY => 9
  | .ROUTE_UPMASK => 256
  | .ROUTE_UPPORT => 128
  | .ROUTE_DOWNPORT => 256
  | .ROUTE_RSET => 4096
  | .MCAST_LOCAL => 256
  | .MCAST_GRP => 32768
  | .SCHED_COLL_DROP => 10
  | .SCHED_COLL_END => 10
  | .SCHED_COLL_SPARSE => 10
  | .SCHED_SKEW => 10
  | .SCHED_LATE => 10
  | .SCHED_SAMP_EVT => 10
  | .SCHED_STEP => 8
  | .SCHED_SEEDN => 8
  | .SCHED_REWIND => 8
  | .SCHED_REWIND_CMD => 8
  | .SCHED_PLACE_EFF => 2
  | .SCHED_SEED => 2048
  | .SCHED_PREWAKE => 4096
  | .SCHED_XLAYER => 8192
  | .SCHED_SAMPLE => 8192
  | .SCHED_MEMBER => 16384
  | .SCHED_CAL => 16384
  | .SCHED_BMAP => 32768
  | .SCHED_AFFIN => 65536
  | .SCHED_COLL => 131072
  | .SCHED_PLACE => 131072
  | .CADDY_POOL => 18
  | .CADDY_QUOTA => 384
  | .CADDY_QUSE => 384
  | .CADDY_QTALLY => 384
  | .CADDY_PSTAT => 4096
  | .CADDY_PART => 16384
  | .ROD_STATUS => 256
  | .ROD_CTRL => 256
  | .ROD_ENTRY => 256
  | .ROD_TOKENS_LO => 256
  | .ROD_TOKENS_HI => 256
  | .ROD_HAZ_CNT => 256
  | .ROD_HAZ_FIRST => 256
  | .ROD_CMD_TALLY => 256
  | .ROD_STR_TALLY => 256
  | .ROD_ISLAND => 64
  | .ROD_MARGIN => 64
  | .ROD_SHADOW => 4096
  | .BEAD_TALLY => 8
  | .HBM_HEALTH => 12
  | .MEMREG_RANGE => 4096
  | .MEMREG_CTL => 4096
  | .MEMREG_FSTAT => 4096
  | .AUDIT_PWD => 16
  | _ => 1

/-- How many words one table entry of the register takes: SCHED_COLL(8i + w) and the like (R427). -/
def Reg.wordsPer : Reg → Nat
  | .SCHED_XLAYER | .SCHED_SAMPLE | .SCHED_COLL => 8
  | .SCHED_CAL | .SCHED_PLACE | .CADDY_PART => 4
  | _ => 1

/-- The fields of each word of an entry, reserved bits left out. -/
def Reg.words : Reg → List (List RField)
  | .GLOBAL_MODE => [[⟨1, 1, .oob, 0⟩, ⟨0, 0, .oob, 0⟩]]
  | .GLOBAL_REJ => [[⟨63, 48, .ro, 0⟩, ⟨47, 32, .ro, 0⟩, ⟨31, 16, .ro, 0⟩, ⟨15, 0, .ro, 0⟩]]
  | .GLOBAL_REJ_CLR => [[⟨0, 0, .oob, 0⟩]]
  | .GLOBAL_FAULT => [[⟨7, 7, .w1c, 0⟩, ⟨6, 6, .w1c, 0⟩, ⟨5, 5, .w1c, 0⟩, ⟨4, 4, .w1c, 0⟩, ⟨3, 3, .w1c, 0⟩, ⟨2, 2, .w1c, 0⟩, ⟨1, 1, .w1c, 0⟩, ⟨0, 0, .w1c, 0⟩]]
  | .GLOBAL_FAULT_MASK => [[⟨7, 0, .oob, 0⟩]]
  | .GLOBAL_HOLD => [[⟨63, 63, .ro, 0⟩, ⟨47, 32, .ro, 0⟩, ⟨31, 16, .ro, 0⟩, ⟨15, 0, .ro, 0⟩]]
  | .GLOBAL_MEPOCH => [[⟨63, 48, .ro, 0⟩, ⟨47, 32, .ro, 0⟩, ⟨31, 16, .ro, 0⟩, ⟨15, 0, .ro, 0⟩]]
  | .GLOBAL_UNITCMD => [[⟨63, 63, .ro, 0⟩, ⟨62, 62, .w1c, 0⟩, ⟨61, 61, .ro, 0⟩, ⟨11, 11, .oob, 0⟩, ⟨10, 10, .oob, 0⟩, ⟨9, 8, .oob, 0⟩, ⟨7, 0, .oob, 0⟩]]
  | .GLOBAL_STRICT_TALLY => [[⟨63, 48, .ro, 0⟩, ⟨47, 32, .ro, 0⟩, ⟨31, 16, .ro, 0⟩, ⟨15, 0, .ro, 0⟩]]
  | .GLOBAL_STRICT_CLR => [[⟨0, 0, .oob, 0⟩]]
  | .GLOBAL_AUTH => [[⟨16, 16, .ro, 0⟩, ⟨15, 0, .ro, 0⟩]]
  | .GLOBAL_FENCE => [[⟨63, 32, .ro, 0⟩, ⟨16, 16, .ro, 0⟩, ⟨15, 0, .ro, 0⟩]]
  | .KETTLE_ID => [[⟨63, 32, .ro, 0x12610AB7⟩, ⟨7, 0, .ro, 17⟩]]
  | .KETTLE_BOOT => [[⟨63, 63, .oob, 0⟩, ⟨62, 62, .oob, 0⟩, ⟨61, 61, .ro, 0⟩, ⟨60, 60, .ro, 0⟩, ⟨59, 59, .ro, 0⟩, ⟨58, 56, .ro, 0⟩, ⟨55, 53, .ro, 0⟩, ⟨47, 40, .ro, 0⟩, ⟨39, 32, .ro, 0⟩, ⟨7, 0, .ro, 0⟩]]
  | .KETTLE_OOB_STAT => [[⟨63, 48, .ro, 0⟩, ⟨47, 32, .ro, 0⟩, ⟨31, 0, .ro, 0⟩]]
  | .KETTLE_PWR_CMD => [[⟨2, 2, .oob, 0⟩, ⟨1, 0, .oob, 0⟩]]
  | .KETTLE_PWR_CAP => [[⟨23, 16, .oob, 10⟩, ⟨10, 0, .oob, 0⟩]]
  | .KETTLE_PWR_STAT => [[⟨63, 63, .w1c, 0⟩, ⟨62, 40, .ro, 0⟩, ⟨34, 32, .ro, 0⟩, ⟨17, 11, .ro, 64⟩, ⟨10, 0, .ro, 0⟩]]
  | .KETTLE_HEALTH_CLR => [[⟨3, 3, .oob, 0⟩, ⟨2, 2, .oob, 0⟩, ⟨1, 1, .oob, 0⟩, ⟨0, 0, .oob, 0⟩]]
  | .KETTLE_SHADOW_CFG => [[⟨23, 16, .oob, 3⟩, ⟨4, 0, .oob, 12⟩]]
  | .KETTLE_SHADOW_STAT => [[⟨63, 48, .ro, 0⟩, ⟨47, 32, .ro, 0⟩, ⟨31, 0, .ro, 0⟩]]
  | .KETTLE_QUIZ_CFG => [[⟨47, 32, .oob, 600⟩, ⟨31, 16, .oob, 100⟩, ⟨15, 0, .oob, 60⟩]]
  | .KETTLE_QUIZ_STAT => [[⟨63, 48, .ro, 0⟩, ⟨47, 32, .ro, 0⟩, ⟨31, 16, .ro, 0⟩, ⟨15, 0, .ro, 0⟩]]
  | .KETTLE_DIEID => [[⟨63, 0, .ro, 0⟩]]
  | .KETTLE_TEMP => [[⟨47, 32, .ro, 0⟩, ⟨31, 16, .ro, 0⟩, ⟨15, 0, .ro, 0⟩]]
  | .PORT_HB_CFG => [[⟨47, 32, .oob, 100⟩, ⟨31, 16, .oob, 4⟩, ⟨7, 0, .oob, 8⟩]]
  | .PORT_FWDMODE => [[⟨15, 0, .oob, 0⟩]]
  | .PORT_EGCFG => [[⟨47, 32, .oob, 0⟩, ⟨8, 8, .oob, 0⟩, ⟨7, 0, .oob, 0⟩]]
  | .PORT_RXFRAME => [[⟨63, 48, .ro, 0⟩, ⟨47, 32, .ro, 0⟩, ⟨31, 16, .ro, 0⟩, ⟨15, 0, .ro, 0⟩]]
  | .PORT_RXREJ => [[⟨63, 48, .ro, 0⟩, ⟨47, 32, .ro, 0⟩, ⟨31, 16, .ro, 0⟩, ⟨15, 0, .ro, 0⟩]]
  | .PORT_LINKERR => [[⟨63, 48, .ro, 0⟩, ⟨47, 32, .ro, 0⟩, ⟨31, 0, .ro, 0⟩]]
  | .PORT_FRCLR => [[⟨0, 0, .oob, 0⟩]]
  | .PORT_HEALTH => [[⟨63, 48, .ro, 0⟩, ⟨47, 32, .ro, 0⟩, ⟨31, 16, .ro, 0⟩, ⟨15, 8, .ro, 0⟩, ⟨2, 0, .ro, 0⟩]]
  | .PORT_KA => [[⟨63, 56, .ro, 0⟩, ⟨55, 48, .ro, 0⟩, ⟨47, 40, .ro, 0⟩, ⟨39, 32, .ro, 0⟩, ⟨16, 16, .oob, 0⟩, ⟨15, 0, .oob, 0⟩]]
  | .PORT_QMAP => [[⟨39, 35, .oob, 0⟩, ⟨34, 30, .oob, 0⟩, ⟨29, 25, .oob, 0⟩, ⟨24, 20, .oob, 0⟩, ⟨19, 15, .oob, 0⟩, ⟨14, 10, .oob, 0⟩, ⟨9, 5, .oob, 0⟩, ⟨4, 0, .oob, 0⟩]]
  | .PORT_VCCRED => [[⟨49, 32, .ro, 0⟩, ⟨17, 0, .oob, 0⟩]]
  | .PORT_QSHAPE => [[⟨63, 63, .oob, 0⟩, ⟨55, 32, .oob, 0⟩, ⟨20, 0, .oob, 0⟩]]
  | .PORT_QSTAT => [[⟨63, 40, .ro, 0⟩, ⟨35, 18, .ro, 0⟩, ⟨17, 0, .ro, 0⟩]]
  | .LANE_CFG => [[⟨33, 33, .oob, 0⟩, ⟨32, 32, .oob, 0⟩, ⟨31, 24, .oob, 0⟩, ⟨23, 16, .oob, 0⟩, ⟨15, 8, .oob, 0⟩, ⟨7, 0, .oob, 0⟩]]
  | .LANE_EYE => [[⟨63, 54, .ro, 1023⟩, ⟨53, 43, .ro, 2047⟩, ⟨31, 22, .ro, 0⟩, ⟨21, 11, .ro, 0⟩]]
  | .LANE_FEC => [[⟨63, 0, .ro, 0⟩]]
  | .LANE_PMAP => [[⟨1, 1, .oob, 0⟩, ⟨0, 0, .oob, 0⟩]]
  | .LANE_FECCW => [[⟨63, 32, .ro, 0⟩, ⟨31, 0, .ro, 0⟩]]
  | .ROUTE_ADAPT_CFG => [[⟨31, 16, .oob, 0⟩, ⟨11, 0, .oob, 16⟩]]
  | .ROUTE_RESEQ_CFG => [[⟨7, 0, .oob, 50⟩]]
  | .ROUTE_FWD_TALLY => [[⟨63, 48, .ro, 0⟩, ⟨47, 32, .ro, 0⟩, ⟨31, 16, .ro, 0⟩]]
  | .ROUTE_PATH_TALLY => [[⟨63, 32, .ro, 0⟩, ⟨31, 0, .ro, 0⟩]]
  | .ROUTE_TALLY_CLR => [[⟨0, 0, .oob, 0⟩]]
  | .ROUTE_BANK => [[⟨47, 32, .ro, 0⟩, ⟨9, 8, .oob, 0⟩, ⟨1, 0, .oob, 0⟩]]
  | .ROUTE_RESEQ_TALLY => [[⟨63, 48, .ro, 0⟩, ⟨47, 32, .ro, 0⟩, ⟨31, 16, .ro, 0⟩, ⟨15, 0, .ro, 0⟩]]
  | .ROUTE_UPMASK => [[⟨63, 0, .oob, 0⟩]]
  | .ROUTE_UPPORT => [[⟨7, 7, .oob, 0⟩, ⟨6, 0, .oob, 0⟩]]
  | .ROUTE_DOWNPORT => [[⟨7, 7, .oob, 0⟩, ⟨6, 0, .oob, 0⟩]]
  | .ROUTE_RSET => [[⟨14, 8, .brew, 0⟩, ⟨7, 7, .brew, 0⟩, ⟨5, 0, .brew, 0⟩]]
  | .MCAST_TALLY => [[⟨63, 48, .ro, 0⟩, ⟨47, 32, .ro, 0⟩, ⟨31, 16, .ro, 0⟩]]
  | .MCAST_LOCAL => [[⟨63, 0, .brew, 0⟩]]
  | .MCAST_GRP => [[⟨63, 0, .brew, 0⟩]]
  | .SCHED_SKEW_CFG => [[⟨39, 32, .oob, 8⟩, ⟨31, 0, .oob, 2000⟩]]
  | .SCHED_ADMIT => [[⟨63, 32, .ro, 0⟩, ⟨31, 16, .ro, 0⟩, ⟨15, 12, .ro, 0⟩, ⟨10, 8, .ro, 0⟩, ⟨7, 0, .ro, 0⟩]]
  | .SCHED_COMMIT => [[⟨63, 56, .ro, 0⟩, ⟨47, 32, .ro, 0⟩, ⟨31, 0, .ro, 0⟩]]
  | .SCHED_UNLOAD => [[⟨3, 3, .oob, 0⟩, ⟨2, 0, .oob, 0⟩]]
  | .SCHED_BREACH => [[⟨63, 48, .ro, 0⟩, ⟨47, 32, .ro, 0⟩, ⟨31, 16, .ro, 0⟩, ⟨15, 0, .ro, 0⟩]]
  | .SCHED_BREACH_FIRST => [[⟨63, 63, .w1c, 0⟩, ⟨62, 61, .ro, 0⟩, ⟨60, 60, .ro, 0⟩, ⟨54, 48, .ro, 0⟩, ⟨47, 32, .ro, 0⟩, ⟨31, 0, .ro, 0⟩]]
  | .SCHED_BREACH_CLR => [[⟨0, 0, .oob, 0⟩]]
  | .SCHED_COLL_CLR => [[⟨9, 0, .oob, 0⟩]]
  | .SCHED_EXP_DROP => [[⟨63, 48, .ro, 0⟩, ⟨47, 32, .ro, 0⟩, ⟨31, 16, .ro, 0⟩, ⟨15, 0, .ro, 0⟩]]
  | .SCHED_EXP_TOK => [[⟨63, 32, .ro, 0⟩, ⟨31, 16, .ro, 0⟩, ⟨15, 0, .ro, 0⟩]]
  | .SCHED_EXP_SPEC => [[⟨63, 32, .ro, 0⟩, ⟨31, 0, .ro, 0⟩]]
  | .SCHED_EXP_SQ => [[⟨63, 32, .ro, 0⟩, ⟨31, 16, .ro, 0⟩, ⟨15, 0, .ro, 0⟩]]
  | .SCHED_EXP_EVT => [[⟨63, 48, .ro, 0⟩, ⟨47, 32, .ro, 0⟩, ⟨31, 16, .ro, 0⟩, ⟨15, 0, .ro, 0⟩]]
  | .SCHED_EXP_END => [[⟨63, 32, .ro, 0⟩, ⟨31, 16, .ro, 0⟩, ⟨15, 0, .ro, 0⟩]]
  | .SCHED_EXP_CLR => [[⟨0, 0, .oob, 0⟩]]
  | .SCHED_SAMP_CLR => [[⟨9, 0, .oob, 0⟩]]
  | .SCHED_COLL_DROP => [[⟨63, 48, .ro, 0⟩, ⟨47, 32, .ro, 0⟩, ⟨31, 16, .ro, 0⟩, ⟨15, 0, .ro, 0⟩]]
  | .SCHED_COLL_END => [[⟨63, 32, .ro, 0⟩, ⟨31, 16, .ro, 0⟩, ⟨15, 0, .ro, 0⟩]]
  | .SCHED_COLL_SPARSE => [[⟨63, 48, .ro, 0⟩, ⟨47, 32, .ro, 0⟩, ⟨31, 16, .ro, 0⟩, ⟨15, 0, .ro, 0⟩]]
  | .SCHED_SKEW => [[⟨63, 48, .ro, 0⟩, ⟨31, 0, .ro, 0⟩]]
  | .SCHED_LATE => [[⟨63, 63, .w1c, 0⟩, ⟨47, 40, .ro, 0⟩, ⟨31, 16, .ro, 0⟩, ⟨15, 0, .ro, 0⟩]]
  | .SCHED_SAMP_EVT => [[⟨63, 48, .ro, 0⟩, ⟨47, 32, .ro, 0⟩, ⟨31, 16, .ro, 0⟩, ⟨15, 0, .ro, 0⟩]]
  | .SCHED_STEP => [[⟨63, 0, .ro, 0⟩]]
  | .SCHED_SEEDN => [[⟨8, 0, .ro, 0⟩]]
  | .SCHED_REWIND => [[⟨63, 63, .ro, 0⟩, ⟨62, 62, .w1c, 0⟩, ⟨47, 32, .ro, 0⟩, ⟨31, 16, .ro, 0⟩, ⟨15, 0, .ro, 0⟩]]
  | .SCHED_REWIND_CMD => [[⟨63, 0, .oob, 0⟩]]
  | .SCHED_PLACE_EFF => [[⟨63, 0, .brew, 0xFFFFFFFFFFFFFFFF⟩]]
  | .SCHED_SEED => [[⟨63, 0, .brew, 0⟩]]
  | .SCHED_PREWAKE => [[⟨63, 56, .brew, 0⟩, ⟨53, 48, .brew, 0⟩, ⟨31, 0, .brew, 0⟩]]
  | .SCHED_XLAYER => [[⟨63, 32, .brew, 0⟩, ⟨31, 28, .brew, 0⟩, ⟨27, 24, .brew, 0⟩, ⟨23, 20, .brew, 0⟩, ⟨19, 19, .brew, 0⟩, ⟨18, 18, .brew, 0⟩, ⟨17, 17, .brew, 0⟩, ⟨16, 12, .brew, 0⟩],
      [⟨63, 54, .brew, 0⟩, ⟨53, 44, .brew, 0⟩, ⟨43, 28, .brew, 0⟩, ⟨27, 12, .brew, 0⟩, ⟨11, 0, .brew, 0⟩],
      [⟨63, 16, .brew, 0⟩, ⟨15, 0, .brew, 0⟩],
      [⟨63, 16, .brew, 0⟩, ⟨15, 0, .brew, 0⟩],
      [⟨63, 44, .brew, 0⟩, ⟨31, 0, .brew, 0⟩],
      [⟨63, 48, .brew, 0⟩, ⟨47, 32, .brew, 0⟩, ⟨31, 0, .brew, 0⟩],
      [⟨63, 48, .brew, 0⟩, ⟨47, 32, .brew, 0⟩, ⟨31, 16, .brew, 0⟩, ⟨15, 4, .brew, 0⟩],
      [⟨31, 0, .brew, 0⟩]]
  | .SCHED_SAMPLE => [[⟨63, 32, .brew, 0⟩, ⟨27, 24, .brew, 0⟩, ⟨23, 23, .brew, 0⟩, ⟨22, 22, .brew, 0⟩, ⟨15, 0, .brew, 0⟩],
      [⟨47, 32, .brew, 0⟩, ⟨31, 18, .brew, 0⟩, ⟨10, 0, .brew, 0⟩],
      [⟨63, 32, .brew, 0⟩, ⟨31, 0, .brew, 0⟩],
      [⟨63, 50, .brew, 0⟩, ⟨49, 38, .brew, 0⟩, ⟨31, 16, .brew, 0⟩, ⟨15, 8, .brew, 0⟩, ⟨7, 0, .brew, 0⟩],
      [⟨63, 44, .brew, 0⟩, ⟨31, 0, .brew, 0⟩],
      [⟨47, 32, .brew, 0⟩, ⟨31, 0, .brew, 0⟩],
      [],
      [⟨31, 0, .brew, 0⟩]]
  | .SCHED_MEMBER => [[⟨63, 48, .brew, 0⟩, ⟨47, 32, .brew, 0⟩, ⟨31, 16, .brew, 0⟩, ⟨15, 0, .brew, 0⟩]]
  | .SCHED_CAL => [[⟨63, 32, .brew, 0⟩, ⟨31, 0, .brew, 0⟩],
      [⟨63, 0, .brew, 0⟩],
      [⟨63, 0, .brew, 0⟩],
      [⟨4, 0, .brew, 0⟩]]
  | .SCHED_BMAP => [[⟨47, 32, .brew, 0⟩, ⟨15, 0, .brew, 0⟩]]
  | .SCHED_AFFIN => [[⟨63, 48, .brew, 0⟩, ⟨47, 32, .brew, 0⟩, ⟨31, 16, .brew, 0⟩, ⟨15, 0, .brew, 0⟩]]
  | .SCHED_COLL => [[⟨63, 32, .brew, 0⟩, ⟨31, 28, .brew, 0⟩, ⟨27, 24, .brew, 0⟩, ⟨23, 20, .brew, 0⟩, ⟨19, 16, .brew, 0⟩, ⟨15, 8, .brew, 0⟩, ⟨7, 7, .brew, 0⟩, ⟨6, 5, .brew, 0⟩, ⟨4, 4, .brew, 0⟩, ⟨3, 3, .brew, 0⟩, ⟨2, 2, .brew, 0⟩, ⟨1, 1, .brew, 0⟩],
      [⟨63, 48, .brew, 0⟩, ⟨47, 32, .brew, 0⟩, ⟨31, 18, .brew, 0⟩],
      [⟨63, 40, .brew, 0⟩, ⟨39, 28, .brew, 0⟩, ⟨15, 0, .brew, 0⟩],
      [⟨63, 50, .brew, 0⟩, ⟨49, 38, .brew, 0⟩, ⟨31, 16, .brew, 0⟩],
      [⟨63, 44, .brew, 0⟩, ⟨31, 0, .brew, 0⟩],
      [⟨47, 32, .brew, 0⟩, ⟨31, 0, .brew, 0⟩],
      [⟨7, 0, .brew, 0⟩],
      [⟨31, 0, .brew, 0⟩]]
  | .SCHED_PLACE => [[⟨63, 48, .brew, 0⟩, ⟨47, 32, .brew, 0⟩, ⟨31, 16, .brew, 0⟩, ⟨15, 0, .brew, 0⟩],
      [⟨63, 48, .brew, 0⟩, ⟨47, 32, .brew, 0⟩, ⟨31, 16, .brew, 0⟩, ⟨15, 0, .brew, 0⟩],
      [⟨63, 48, .brew, 0⟩, ⟨47, 40, .brew, 0⟩, ⟨39, 39, .brew, 0⟩, ⟨38, 35, .brew, 0⟩],
      []]
  | .CADDY_HBM => [[⟨63, 32, .ro, 0⟩, ⟨31, 0, .ro, 0⟩]]
  | .CADDY_EVT => [[⟨63, 32, .ro, 0⟩, ⟨31, 0, .ro, 0⟩]]
  | .CADDY_CLR => [[⟨0, 0, .oob, 0⟩]]
  | .CADDY_POOL => [[⟨63, 32, .ro, 0⟩, ⟨31, 0, .ro, 0⟩]]
  | .CADDY_QUOTA => [[⟨49, 32, .oob, 0⟩, ⟨17, 0, .oob, 0⟩]]
  | .CADDY_QUSE => [[⟨49, 32, .ro, 0⟩, ⟨17, 0, .ro, 0⟩]]
  | .CADDY_QTALLY => [[⟨63, 32, .ro, 0⟩, ⟨31, 0, .ro, 0⟩]]
  | .CADDY_PSTAT => [[⟨63, 48, .ro, 0⟩, ⟨47, 32, .ro, 0⟩, ⟨31, 0, .ro, 0⟩]]
  | .CADDY_PART => [[⟨63, 32, .brew, 0⟩, ⟨31, 0, .brew, 0⟩],
      [⟨63, 32, .brew, 0⟩, ⟨31, 0, .brew, 0⟩],
      [⟨63, 32, .brew, 0⟩, ⟨31, 0, .brew, 0⟩],
      [⟨1, 0, .brew, 0⟩]]
  | .ROD_STALL_LIMIT => [[⟨31, 0, .oob, 2000⟩]]
  | .ROD_STATUS => [[⟨47, 32, .ro, 0⟩, ⟨31, 24, .ro, 0⟩, ⟨23, 21, .ro, 0⟩, ⟨15, 11, .ro, 0⟩, ⟨2, 0, .ro, 0⟩]]
  | .ROD_CTRL => [[⟨2, 2, .oob, 0⟩, ⟨1, 1, .oob, 0⟩, ⟨0, 0, .oob, 0⟩]]
  | .ROD_ENTRY => [[⟨15, 0, .brew, 0⟩]]
  | .ROD_TOKENS_LO => [[⟨63, 56, .ro, 0⟩, ⟨55, 48, .ro, 0⟩, ⟨47, 40, .ro, 0⟩, ⟨39, 32, .ro, 0⟩, ⟨31, 24, .ro, 0⟩, ⟨23, 16, .ro, 0⟩, ⟨15, 8, .ro, 0⟩, ⟨7, 0, .ro, 0⟩]]
  | .ROD_TOKENS_HI => [[⟨63, 56, .ro, 0⟩, ⟨55, 48, .ro, 0⟩, ⟨47, 40, .ro, 0⟩, ⟨39, 32, .ro, 0⟩, ⟨31, 24, .ro, 0⟩, ⟨23, 16, .ro, 0⟩, ⟨15, 8, .ro, 0⟩, ⟨7, 0, .ro, 0⟩]]
  | .ROD_HAZ_CNT => [[⟨63, 32, .ro, 0⟩, ⟨31, 0, .ro, 0⟩]]
  | .ROD_HAZ_FIRST => [[⟨63, 63, .ro, 0⟩, ⟨62, 61, .ro, 0⟩, ⟨60, 56, .ro, 0⟩, ⟨55, 43, .ro, 0⟩, ⟨31, 16, .ro, 0⟩, ⟨15, 0, .ro, 0⟩]]
  | .ROD_CMD_TALLY => [[⟨63, 32, .ro, 0⟩, ⟨31, 16, .ro, 0⟩, ⟨15, 0, .ro, 0⟩]]
  | .ROD_STR_TALLY => [[⟨63, 32, .ro, 0⟩, ⟨31, 0, .ro, 0⟩]]
  | .ROD_ISLAND => [[⟨63, 63, .ro, 0⟩, ⟨62, 62, .oob, 0⟩, ⟨61, 32, .ro, 0⟩, ⟨31, 0, .ro, 0⟩]]
  | .ROD_MARGIN => [[⟨63, 48, .ro, 0⟩, ⟨31, 16, .ro, 0xFFFF⟩, ⟨15, 0, .ro, 0⟩]]
  | .ROD_SHADOW => [[⟨63, 48, .ro, 0⟩, ⟨47, 0, .ro, 0⟩]]
  | .BEAD_TALLY_CLR => [[⟨7, 0, .oob, 0⟩]]
  | .BEAD_TALLY => [[⟨63, 0, .ro, 0⟩]]
  | .HBM_HEALTH => [[⟨63, 52, .ro, 0⟩, ⟨51, 40, .ro, 0⟩, ⟨39, 28, .ro, 0⟩, ⟨27, 0, .ro, 0⟩]]
  | .MEMREG_CFG => [[⟨51, 32, .oob, 1000⟩, ⟨13, 0, .oob, 200⟩]]
  | .MEMREG_TALLY => [[⟨63, 48, .ro, 0⟩, ⟨47, 32, .ro, 0⟩, ⟨31, 16, .ro, 0⟩, ⟨15, 0, .ro, 0⟩]]
  | .MEMREG_ERR => [[⟨63, 48, .ro, 0⟩, ⟨47, 32, .ro, 0⟩, ⟨31, 16, .ro, 0⟩, ⟨15, 0, .ro, 0⟩]]
  | .MEMREG_CLR => [[⟨0, 0, .oob, 0⟩]]
  | .MEMREG_RANGE => [[⟨63, 63, .oob, 0⟩, ⟨61, 54, .ro, 0⟩, ⟨53, 48, .oob, 0⟩, ⟨47, 0, .oob, 0⟩]]
  | .MEMREG_CTL => [[⟨63, 48, .oob, 0⟩, ⟨47, 32, .oob, 0⟩, ⟨31, 8, .oob, 0⟩, ⟨3, 0, .oob, 0⟩]]
  | .MEMREG_FSTAT => [[⟨63, 63, .w1c, 0⟩, ⟨47, 32, .ro, 0⟩, ⟨31, 0, .ro, 0⟩]]
  | .CBOARD_TALLY => [[⟨63, 32, .ro, 0⟩, ⟨31, 16, .ro, 0⟩, ⟨15, 8, .ro, 0⟩, ⟨7, 0, .ro, 0⟩]]
  | .CBOARD_CLR => [[⟨0, 0, .oob, 0⟩]]
  | .TALLY_BOOK_STAT => [[⟨63, 52, .ro, 0⟩, ⟨51, 40, .ro, 0⟩, ⟨39, 24, .ro, 0⟩, ⟨23, 8, .ro, 0⟩, ⟨7, 0, .ro, 0⟩]]
  | .TALLY_TELE_CFG => [[⟨21, 21, .oob, 0⟩, ⟨20, 20, .oob, 0⟩, ⟨19, 0, .oob, 1000⟩]]
  | .AUDIT_RECHK => [[⟨63, 63, .ro, 0⟩, ⟨62, 62, .w1c, 0⟩, ⟨61, 61, .ro, 0⟩, ⟨3, 3, .oob, 0⟩, ⟨2, 0, .oob, 0⟩]]
  | .AUDIT_PWD => [[⟨63, 0, .ro, 0⟩]]

/-- The fields of element word w of an entry (w = 0 but for entries of several words). -/
def Reg.fieldsAt (r : Reg) (w : Nat) : List RField := r.words.getD w []

/-- The fields of element i. RATE of PORT_QSHAPE is OOB for queues 1 to 19 only (Table 9.15), and ROUTE_RSET(0) is
OOB where the other elements are BREW (Table 8.3). -/
def Reg.fields (r : Reg) (i : Nat) : List RField :=
  let fs := r.fieldsAt (i % r.wordsPer)
  if r = .PORT_QSHAPE then
    if 1 ≤ i % 32 ∧ i % 32 ≤ 19 then fs else fs.map (fun f => if f.hi = 20 then { f with acc := .ro } else f)
  else if r = .ROUTE_RSET ∧ i = 0 then fs.map (fun f => { f with acc := .oob })
  else fs

/-- The reset value of element i: each field at its reset. -/
def Reg.rst (r : Reg) (i : Nat) : Word :=
  BitVec.ofNat 64 ((r.fieldsAt (i % r.wordsPer)).foldl (fun w f => w + f.rst <<< f.lo) 0)

/-- The control offset of element i (R420). -/
def Reg.off (r : Reg) (i : Nat) : Nat := r.base + 8 * i

/-- The register and element at a control offset; none where Table 16.6 assigns none (R421). -/
def Reg.at? (o : Nat) : Option (Reg × Nat) :=
  if o % 8 ≠ 0 then none
  else (Reg.all.find? (fun r => decide (r.base ≤ o ∧ o < r.base + 8 * r.count))).map (fun r => (r, (o - r.base) / 8))

/-- A named field: its register, lowest bit and width. -/
structure Fld where
  reg : Reg
  lo : Nat
  w : Nat
deriving DecidableEq, Repr

namespace F

/-- GLOBAL_MODE.RDOPEN [1]. -/
def GLOBAL_MODE_RDOPEN : Fld := ⟨.GLOBAL_MODE, 1, 1⟩
/-- GLOBAL_MODE.STRICT [0]. -/
def GLOBAL_MODE_STRICT : Fld := ⟨.GLOBAL_MODE, 0, 1⟩
/-- GLOBAL_REJ.OOBW [63:48]. -/
def GLOBAL_REJ_OOBW : Fld := ⟨.GLOBAL_REJ, 48, 16⟩
/-- GLOBAL_REJ.BREWW [47:32]. -/
def GLOBAL_REJ_BREWW : Fld := ⟨.GLOBAL_REJ, 32, 16⟩
/-- GLOBAL_REJ.VALUE [31:16]. -/
def GLOBAL_REJ_VALUE : Fld := ⟨.GLOBAL_REJ, 16, 16⟩
/-- GLOBAL_REJ.FORM [15:0]. -/
def GLOBAL_REJ_FORM : Fld := ⟨.GLOBAL_REJ, 0, 16⟩
/-- GLOBAL_REJ_CLR.CLR [0]. -/
def GLOBAL_REJ_CLR_CLR : Fld := ⟨.GLOBAL_REJ_CLR, 0, 1⟩
/-- GLOBAL_FAULT.D2D [7]. -/
def GLOBAL_FAULT_D2D : Fld := ⟨.GLOBAL_FAULT, 7, 1⟩
/-- GLOBAL_FAULT.STACKOUT [6]. -/
def GLOBAL_FAULT_STACKOUT : Fld := ⟨.GLOBAL_FAULT, 6, 1⟩
/-- GLOBAL_FAULT.COREQ [5]. -/
def GLOBAL_FAULT_COREQ : Fld := ⟨.GLOBAL_FAULT, 5, 1⟩
/-- GLOBAL_FAULT.HBMUE [4]. -/
def GLOBAL_FAULT_HBMUE : Fld := ⟨.GLOBAL_FAULT, 4, 1⟩
/-- GLOBAL_FAULT.SRAMUE [3]. -/
def GLOBAL_FAULT_SRAMUE : Fld := ⟨.GLOBAL_FAULT, 3, 1⟩
/-- GLOBAL_FAULT.BREACH [2]. -/
def GLOBAL_FAULT_BREACH : Fld := ⟨.GLOBAL_FAULT, 2, 1⟩
/-- GLOBAL_FAULT.RCERR [1]. -/
def GLOBAL_FAULT_RCERR : Fld := ⟨.GLOBAL_FAULT, 1, 1⟩
/-- GLOBAL_FAULT.BROWNOUT [0]. -/
def GLOBAL_FAULT_BROWNOUT : Fld := ⟨.GLOBAL_FAULT, 0, 1⟩
/-- GLOBAL_FAULT_MASK.MASK [7:0]. -/
def GLOBAL_FAULT_MASK_MASK : Fld := ⟨.GLOBAL_FAULT_MASK, 0, 8⟩
/-- GLOBAL_HOLD.INHOLD [63]. -/
def GLOBAL_HOLD_INHOLD : Fld := ⟨.GLOBAL_HOLD, 63, 1⟩
/-- GLOBAL_HOLD.EVENTS [47:32]. -/
def GLOBAL_HOLD_EVENTS : Fld := ⟨.GLOBAL_HOLD, 32, 16⟩
/-- GLOBAL_HOLD.LASTMINMV [31:16]. -/
def GLOBAL_HOLD_LASTMINMV : Fld := ⟨.GLOBAL_HOLD, 16, 16⟩
/-- GLOBAL_HOLD.LASTDUR [15:0]. -/
def GLOBAL_HOLD_LASTDUR : Fld := ⟨.GLOBAL_HOLD, 0, 16⟩
/-- GLOBAL_MEPOCH.AHEAD [63:48]. -/
def GLOBAL_MEPOCH_AHEAD : Fld := ⟨.GLOBAL_MEPOCH, 48, 16⟩
/-- GLOBAL_MEPOCH.OLD [47:32]. -/
def GLOBAL_MEPOCH_OLD : Fld := ⟨.GLOBAL_MEPOCH, 32, 16⟩
/-- GLOBAL_MEPOCH.ADVANCES [31:16]. -/
def GLOBAL_MEPOCH_ADVANCES : Fld := ⟨.GLOBAL_MEPOCH, 16, 16⟩
/-- GLOBAL_MEPOCH.MEPOCH [15:0]. -/
def GLOBAL_MEPOCH_MEPOCH : Fld := ⟨.GLOBAL_MEPOCH, 0, 16⟩
/-- GLOBAL_UNITCMD.BUSY [63]. -/
def GLOBAL_UNITCMD_BUSY : Fld := ⟨.GLOBAL_UNITCMD, 63, 1⟩
/-- GLOBAL_UNITCMD.DONE [62]. -/
def GLOBAL_UNITCMD_DONE : Fld := ⟨.GLOBAL_UNITCMD, 62, 1⟩
/-- GLOBAL_UNITCMD.PASS [61]. -/
def GLOBAL_UNITCMD_PASS : Fld := ⟨.GLOBAL_UNITCMD, 61, 1⟩
/-- GLOBAL_UNITCMD.GO [11]. -/
def GLOBAL_UNITCMD_GO : Fld := ⟨.GLOBAL_UNITCMD, 11, 1⟩
/-- GLOBAL_UNITCMD.ACTION [10]. -/
def GLOBAL_UNITCMD_ACTION : Fld := ⟨.GLOBAL_UNITCMD, 10, 1⟩
/-- GLOBAL_UNITCMD.KIND [9:8]. -/
def GLOBAL_UNITCMD_KIND : Fld := ⟨.GLOBAL_UNITCMD, 8, 2⟩
/-- GLOBAL_UNITCMD.INDEX [7:0]. -/
def GLOBAL_UNITCMD_INDEX : Fld := ⟨.GLOBAL_UNITCMD, 0, 8⟩
/-- GLOBAL_STRICT_TALLY.FLOATCONV [63:48]. -/
def GLOBAL_STRICT_TALLY_FLOATCONV : Fld := ⟨.GLOBAL_STRICT_TALLY, 48, 16⟩
/-- GLOBAL_STRICT_TALLY.RODREJ [47:32]. -/
def GLOBAL_STRICT_TALLY_RODREJ : Fld := ⟨.GLOBAL_STRICT_TALLY, 32, 16⟩
/-- GLOBAL_STRICT_TALLY.FADDREJ [31:16]. -/
def GLOBAL_STRICT_TALLY_FADDREJ : Fld := ⟨.GLOBAL_STRICT_TALLY, 16, 16⟩
/-- GLOBAL_STRICT_TALLY.MIXED [15:0]. -/
def GLOBAL_STRICT_TALLY_MIXED : Fld := ⟨.GLOBAL_STRICT_TALLY, 0, 16⟩
/-- GLOBAL_STRICT_CLR.CLR [0]. -/
def GLOBAL_STRICT_CLR_CLR : Fld := ⟨.GLOBAL_STRICT_CLR, 0, 1⟩
/-- GLOBAL_AUTH.VALID [16]. -/
def GLOBAL_AUTH_VALID : Fld := ⟨.GLOBAL_AUTH, 16, 1⟩
/-- GLOBAL_AUTH.FNID [15:0]. -/
def GLOBAL_AUTH_FNID : Fld := ⟨.GLOBAL_AUTH, 0, 16⟩
/-- GLOBAL_FENCE.DROPS [63:32]. -/
def GLOBAL_FENCE_DROPS : Fld := ⟨.GLOBAL_FENCE, 32, 32⟩
/-- GLOBAL_FENCE.VALID [16]. -/
def GLOBAL_FENCE_VALID : Fld := ⟨.GLOBAL_FENCE, 16, 1⟩
/-- GLOBAL_FENCE.FNID [15:0]. -/
def GLOBAL_FENCE_FNID : Fld := ⟨.GLOBAL_FENCE, 0, 16⟩
/-- KETTLE_ID.JTAGID [63:32]. -/
def KETTLE_ID_JTAGID : Fld := ⟨.KETTLE_ID, 32, 32⟩
/-- KETTLE_ID.STEPPING [7:0]. -/
def KETTLE_ID_STEPPING : Fld := ⟨.KETTLE_ID, 0, 8⟩
/-- KETTLE_BOOT.PREFV [63]. -/
def KETTLE_BOOT_PREFV : Fld := ⟨.KETTLE_BOOT, 63, 1⟩
/-- KETTLE_BOOT.PREF [62]. -/
def KETTLE_BOOT_PREF : Fld := ⟨.KETTLE_BOOT, 62, 1⟩
/-- KETTLE_BOOT.SLOT [61]. -/
def KETTLE_BOOT_SLOT : Fld := ⟨.KETTLE_BOOT, 61, 1⟩
/-- KETTLE_BOOT.FALLBACK [60]. -/
def KETTLE_BOOT_FALLBACK : Fld := ⟨.KETTLE_BOOT, 60, 1⟩
/-- KETTLE_BOOT.RECOV [59]. -/
def KETTLE_BOOT_RECOV : Fld := ⟨.KETTLE_BOOT, 59, 1⟩
/-- KETTLE_BOOT.FAILA [58:56]. -/
def KETTLE_BOOT_FAILA : Fld := ⟨.KETTLE_BOOT, 56, 3⟩
/-- KETTLE_BOOT.FAILB [55:53]. -/
def KETTLE_BOOT_FAILB : Fld := ⟨.KETTLE_BOOT, 53, 3⟩
/-- KETTLE_BOOT.FUSESVN [47:40]. -/
def KETTLE_BOOT_FUSESVN : Fld := ⟨.KETTLE_BOOT, 40, 8⟩
/-- KETTLE_BOOT.SVN [39:32]. -/
def KETTLE_BOOT_SVN : Fld := ⟨.KETTLE_BOOT, 32, 8⟩
/-- KETTLE_BOOT.CAUSE [7:0]. -/
def KETTLE_BOOT_CAUSE : Fld := ⟨.KETTLE_BOOT, 0, 8⟩
/-- KETTLE_OOB_STAT.AUTHFAIL [63:48]. -/
def KETTLE_OOB_STAT_AUTHFAIL : Fld := ⟨.KETTLE_OOB_STAT, 48, 16⟩
/-- KETTLE_OOB_STAT.REJECT [47:32]. -/
def KETTLE_OOB_STAT_REJECT : Fld := ⟨.KETTLE_OOB_STAT, 32, 16⟩
/-- KETTLE_OOB_STAT.ACCEPTED [31:0]. -/
def KETTLE_OOB_STAT_ACCEPTED : Fld := ⟨.KETTLE_OOB_STAT, 0, 32⟩
/-- KETTLE_PWR_CMD.GO [2]. -/
def KETTLE_PWR_CMD_GO : Fld := ⟨.KETTLE_PWR_CMD, 2, 1⟩
/-- KETTLE_PWR_CMD.TARGET [1:0]. -/
def KETTLE_PWR_CMD_TARGET : Fld := ⟨.KETTLE_PWR_CMD, 0, 2⟩
/-- KETTLE_PWR_CAP.WINDOW [23:16]. -/
def KETTLE_PWR_CAP_WINDOW : Fld := ⟨.KETTLE_PWR_CAP, 16, 8⟩
/-- KETTLE_PWR_CAP.CAPW [10:0]. -/
def KETTLE_PWR_CAP_CAPW : Fld := ⟨.KETTLE_PWR_CAP, 0, 11⟩
/-- KETTLE_PWR_STAT.CAPUNMET [63]. -/
def KETTLE_PWR_STAT_CAPUNMET : Fld := ⟨.KETTLE_PWR_STAT, 63, 1⟩
/-- KETTLE_PWR_STAT.UNMET [62:40]. -/
def KETTLE_PWR_STAT_UNMET : Fld := ⟨.KETTLE_PWR_STAT, 40, 23⟩
/-- KETTLE_PWR_STAT.STATE [34:32]. -/
def KETTLE_PWR_STAT_STATE : Fld := ⟨.KETTLE_PWR_STAT, 32, 3⟩
/-- KETTLE_PWR_STAT.PACE [17:11]. -/
def KETTLE_PWR_STAT_PACE : Fld := ⟨.KETTLE_PWR_STAT, 11, 7⟩
/-- KETTLE_PWR_STAT.POWER [10:0]. -/
def KETTLE_PWR_STAT_POWER : Fld := ⟨.KETTLE_PWR_STAT, 0, 11⟩
/-- KETTLE_HEALTH_CLR.SHADOW [3]. -/
def KETTLE_HEALTH_CLR_SHADOW : Fld := ⟨.KETTLE_HEALTH_CLR, 3, 1⟩
/-- KETTLE_HEALTH_CLR.EYE [2]. -/
def KETTLE_HEALTH_CLR_EYE : Fld := ⟨.KETTLE_HEALTH_CLR, 2, 1⟩
/-- KETTLE_HEALTH_CLR.SLACK [1]. -/
def KETTLE_HEALTH_CLR_SLACK : Fld := ⟨.KETTLE_HEALTH_CLR, 1, 1⟩
/-- KETTLE_HEALTH_CLR.TEMP [0]. -/
def KETTLE_HEALTH_CLR_TEMP : Fld := ⟨.KETTLE_HEALTH_CLR, 0, 1⟩
/-- KETTLE_SHADOW_CFG.THRESH [23:16]. -/
def KETTLE_SHADOW_CFG_THRESH : Fld := ⟨.KETTLE_SHADOW_CFG, 16, 8⟩
/-- KETTLE_SHADOW_CFG.RATE [4:0]. -/
def KETTLE_SHADOW_CFG_RATE : Fld := ⟨.KETTLE_SHADOW_CFG, 0, 5⟩
/-- KETTLE_SHADOW_STAT.UNRESOLVED [63:48]. -/
def KETTLE_SHADOW_STAT_UNRESOLVED : Fld := ⟨.KETTLE_SHADOW_STAT, 48, 16⟩
/-- KETTLE_SHADOW_STAT.MISMATCH [47:32]. -/
def KETTLE_SHADOW_STAT_MISMATCH : Fld := ⟨.KETTLE_SHADOW_STAT, 32, 16⟩
/-- KETTLE_SHADOW_STAT.SKIP [31:0]. -/
def KETTLE_SHADOW_STAT_SKIP : Fld := ⟨.KETTLE_SHADOW_STAT, 0, 32⟩
/-- KETTLE_QUIZ_CFG.STACKINT [47:32]. -/
def KETTLE_QUIZ_CFG_STACKINT : Fld := ⟨.KETTLE_QUIZ_CFG, 32, 16⟩
/-- KETTLE_QUIZ_CFG.LANEINT [31:16]. -/
def KETTLE_QUIZ_CFG_LANEINT : Fld := ⟨.KETTLE_QUIZ_CFG, 16, 16⟩
/-- KETTLE_QUIZ_CFG.COREINT [15:0]. -/
def KETTLE_QUIZ_CFG_COREINT : Fld := ⟨.KETTLE_QUIZ_CFG, 0, 16⟩
/-- KETTLE_QUIZ_STAT.COREFAIL [63:48]. -/
def KETTLE_QUIZ_STAT_COREFAIL : Fld := ⟨.KETTLE_QUIZ_STAT, 48, 16⟩
/-- KETTLE_QUIZ_STAT.LANEFAIL [47:32]. -/
def KETTLE_QUIZ_STAT_LANEFAIL : Fld := ⟨.KETTLE_QUIZ_STAT, 32, 16⟩
/-- KETTLE_QUIZ_STAT.STACKFAIL [31:16]. -/
def KETTLE_QUIZ_STAT_STACKFAIL : Fld := ⟨.KETTLE_QUIZ_STAT, 16, 16⟩
/-- KETTLE_QUIZ_STAT.NOECHO [15:0]. -/
def KETTLE_QUIZ_STAT_NOECHO : Fld := ⟨.KETTLE_QUIZ_STAT, 0, 16⟩
/-- KETTLE_DIEID.ID [63:0]. -/
def KETTLE_DIEID_ID : Fld := ⟨.KETTLE_DIEID, 0, 64⟩
/-- KETTLE_TEMP.TLIFE [47:32]. -/
def KETTLE_TEMP_TLIFE : Fld := ⟨.KETTLE_TEMP, 32, 16⟩
/-- KETTLE_TEMP.TMAX [31:16]. -/
def KETTLE_TEMP_TMAX : Fld := ⟨.KETTLE_TEMP, 16, 16⟩
/-- KETTLE_TEMP.TNOW [15:0]. -/
def KETTLE_TEMP_TNOW : Fld := ⟨.KETTLE_TEMP, 0, 16⟩
/-- PORT_HB_CFG.PROBMS [47:32]. -/
def PORT_HB_CFG_PROBMS : Fld := ⟨.PORT_HB_CFG, 32, 16⟩
/-- PORT_HB_CFG.UCWBURST [31:16]. -/
def PORT_HB_CFG_UCWBURST : Fld := ⟨.PORT_HB_CFG, 16, 16⟩
/-- PORT_HB_CFG.MISSLIM [7:0]. -/
def PORT_HB_CFG_MISSLIM : Fld := ⟨.PORT_HB_CFG, 0, 8⟩
/-- PORT_FWDMODE.CUT [15:0]. -/
def PORT_FWDMODE_CUT : Fld := ⟨.PORT_FWDMODE, 0, 16⟩
/-- PORT_EGCFG.CABLE [47:32]. -/
def PORT_EGCFG_CABLE : Fld := ⟨.PORT_EGCFG, 32, 16⟩
/-- PORT_EGCFG.QCLR [8]. -/
def PORT_EGCFG_QCLR : Fld := ⟨.PORT_EGCFG, 8, 1⟩
/-- PORT_EGCFG.OVH [7:0]. -/
def PORT_EGCFG_OVH : Fld := ⟨.PORT_EGCFG, 0, 8⟩
/-- PORT_RXFRAME.HCRCERR [63:48]. -/
def PORT_RXFRAME_HCRCERR : Fld := ⟨.PORT_RXFRAME, 48, 16⟩
/-- PORT_RXFRAME.PCRCERR [47:32]. -/
def PORT_RXFRAME_PCRCERR : Fld := ⟨.PORT_RXFRAME, 32, 16⟩
/-- PORT_RXFRAME.BADIN [31:16]. -/
def PORT_RXFRAME_BADIN : Fld := ⟨.PORT_RXFRAME, 16, 16⟩
/-- PORT_RXFRAME.LENERR [15:0]. -/
def PORT_RXFRAME_LENERR : Fld := ⟨.PORT_RXFRAME, 0, 16⟩
/-- PORT_RXREJ.KINDERR [63:48]. -/
def PORT_RXREJ_KINDERR : Fld := ⟨.PORT_RXREJ, 48, 16⟩
/-- PORT_RXREJ.ADDRERR [47:32]. -/
def PORT_RXREJ_ADDRERR : Fld := ⟨.PORT_RXREJ, 32, 16⟩
/-- PORT_RXREJ.SPOOF [31:16]. -/
def PORT_RXREJ_SPOOF : Fld := ⟨.PORT_RXREJ, 16, 16⟩
/-- PORT_RXREJ.CREDOVF [15:0]. -/
def PORT_RXREJ_CREDOVF : Fld := ⟨.PORT_RXREJ, 0, 16⟩
/-- PORT_LINKERR.LWERR [63:48]. -/
def PORT_LINKERR_LWERR : Fld := ⟨.PORT_LINKERR, 48, 16⟩
/-- PORT_LINKERR.AGED [47:32]. -/
def PORT_LINKERR_AGED : Fld := ⟨.PORT_LINKERR, 32, 16⟩
/-- PORT_LINKERR.LOSTCELL [31:0]. -/
def PORT_LINKERR_LOSTCELL : Fld := ⟨.PORT_LINKERR, 0, 32⟩
/-- PORT_FRCLR.CLR [0]. -/
def PORT_FRCLR_CLR : Fld := ⟨.PORT_FRCLR, 0, 1⟩
/-- PORT_HEALTH.QDROP [63:48]. -/
def PORT_HEALTH_QDROP : Fld := ⟨.PORT_HEALTH, 48, 16⟩
/-- PORT_HEALTH.DOWNS [47:32]. -/
def PORT_HEALTH_DOWNS : Fld := ⟨.PORT_HEALTH, 32, 16⟩
/-- PORT_HEALTH.PROBFAIL [31:16]. -/
def PORT_HEALTH_PROBFAIL : Fld := ⟨.PORT_HEALTH, 16, 16⟩
/-- PORT_HEALTH.MISSRUN [15:8]. -/
def PORT_HEALTH_MISSRUN : Fld := ⟨.PORT_HEALTH, 8, 8⟩
/-- PORT_HEALTH.LSTATE [2:0]. -/
def PORT_HEALTH_LSTATE : Fld := ⟨.PORT_HEALTH, 0, 3⟩
/-- PORT_KA.TRAINFAIL [63:56]. -/
def PORT_KA_TRAINFAIL : Fld := ⟨.PORT_KA, 56, 8⟩
/-- PORT_KA.MGMTUNK [55:48]. -/
def PORT_KA_MGMTUNK : Fld := ⟨.PORT_KA, 48, 8⟩
/-- PORT_KA.EXITS [47:40]. -/
def PORT_KA_EXITS : Fld := ⟨.PORT_KA, 40, 8⟩
/-- PORT_KA.ENTRIES [39:32]. -/
def PORT_KA_ENTRIES : Fld := ⟨.PORT_KA, 32, 8⟩
/-- PORT_KA.ENABLE [16]. -/
def PORT_KA_ENABLE : Fld := ⟨.PORT_KA, 16, 1⟩
/-- PORT_KA.IDLEMS [15:0]. -/
def PORT_KA_IDLEMS : Fld := ⟨.PORT_KA, 0, 16⟩
/-- PORT_VCCRED.AVAIL [49:32]. -/
def PORT_VCCRED_AVAIL : Fld := ⟨.PORT_VCCRED, 32, 18⟩
/-- PORT_VCCRED.LIMIT [17:0]. -/
def PORT_VCCRED_LIMIT : Fld := ⟨.PORT_VCCRED, 0, 18⟩
/-- PORT_QSHAPE.LEGACY [63]. -/
def PORT_QSHAPE_LEGACY : Fld := ⟨.PORT_QSHAPE, 63, 1⟩
/-- PORT_QSHAPE.LBURST [55:32]. -/
def PORT_QSHAPE_LBURST : Fld := ⟨.PORT_QSHAPE, 32, 24⟩
/-- PORT_QSHAPE.RATE [20:0]. -/
def PORT_QSHAPE_RATE : Fld := ⟨.PORT_QSHAPE, 0, 21⟩
/-- PORT_QSTAT.HOLDLY [63:40]. -/
def PORT_QSTAT_HOLDLY : Fld := ⟨.PORT_QSTAT, 40, 24⟩
/-- PORT_QSTAT.MAXDEPTH [35:18]. -/
def PORT_QSTAT_MAXDEPTH : Fld := ⟨.PORT_QSTAT, 18, 18⟩
/-- PORT_QSTAT.DEPTH [17:0]. -/
def PORT_QSTAT_DEPTH : Fld := ⟨.PORT_QSTAT, 0, 18⟩
/-- LANE_CFG.RXINV [33]. -/
def LANE_CFG_RXINV : Fld := ⟨.LANE_CFG, 33, 1⟩
/-- LANE_CFG.TXINV [32]. -/
def LANE_CFG_TXINV : Fld := ⟨.LANE_CFG, 32, 1⟩
/-- LANE_CFG.CM3 [31:24]. -/
def LANE_CFG_CM3 : Fld := ⟨.LANE_CFG, 24, 8⟩
/-- LANE_CFG.CM2 [23:16]. -/
def LANE_CFG_CM2 : Fld := ⟨.LANE_CFG, 16, 8⟩
/-- LANE_CFG.CM1 [15:8]. -/
def LANE_CFG_CM1 : Fld := ⟨.LANE_CFG, 8, 8⟩
/-- LANE_CFG.CP1 [7:0]. -/
def LANE_CFG_CP1 : Fld := ⟨.LANE_CFG, 0, 8⟩
/-- LANE_EYE.EYEWMIN [63:54]. -/
def LANE_EYE_EYEWMIN : Fld := ⟨.LANE_EYE, 54, 10⟩
/-- LANE_EYE.EYEHMIN [53:43]. -/
def LANE_EYE_EYEHMIN : Fld := ⟨.LANE_EYE, 43, 11⟩
/-- LANE_EYE.EYEW [31:22]. -/
def LANE_EYE_EYEW : Fld := ⟨.LANE_EYE, 22, 10⟩
/-- LANE_EYE.EYEH [21:11]. -/
def LANE_EYE_EYEH : Fld := ⟨.LANE_EYE, 11, 11⟩
/-- LANE_FEC.CSYM [63:0]. -/
def LANE_FEC_CSYM : Fld := ⟨.LANE_FEC, 0, 64⟩
/-- LANE_PMAP.RXREV [1]. -/
def LANE_PMAP_RXREV : Fld := ⟨.LANE_PMAP, 1, 1⟩
/-- LANE_PMAP.TXREV [0]. -/
def LANE_PMAP_TXREV : Fld := ⟨.LANE_PMAP, 0, 1⟩
/-- LANE_FECCW.CCW [63:32]. -/
def LANE_FECCW_CCW : Fld := ⟨.LANE_FECCW, 32, 32⟩
/-- LANE_FECCW.UCW [31:0]. -/
def LANE_FECCW_UCW : Fld := ⟨.LANE_FECCW, 0, 32⟩
/-- ROUTE_ADAPT_CFG.SALT [31:16]. -/
def ROUTE_ADAPT_CFG_SALT : Fld := ⟨.ROUTE_ADAPT_CFG, 16, 16⟩
/-- ROUTE_ADAPT_CFG.QSTEP [11:0]. -/
def ROUTE_ADAPT_CFG_QSTEP : Fld := ⟨.ROUTE_ADAPT_CFG, 0, 12⟩
/-- ROUTE_RESEQ_CFG.REORDER [7:0]. -/
def ROUTE_RESEQ_CFG_REORDER : Fld := ⟨.ROUTE_RESEQ_CFG, 0, 8⟩
/-- ROUTE_FWD_TALLY.EPOCHDROP [63:48]. -/
def ROUTE_FWD_TALLY_EPOCHDROP : Fld := ⟨.ROUTE_FWD_TALLY, 48, 16⟩
/-- ROUTE_FWD_TALLY.NOROUTE [47:32]. -/
def ROUTE_FWD_TALLY_NOROUTE : Fld := ⟨.ROUTE_FWD_TALLY, 32, 16⟩
/-- ROUTE_FWD_TALLY.LINKDOWN [31:16]. -/
def ROUTE_FWD_TALLY_LINKDOWN : Fld := ⟨.ROUTE_FWD_TALLY, 16, 16⟩
/-- ROUTE_PATH_TALLY.REROUTE [63:32]. -/
def ROUTE_PATH_TALLY_REROUTE : Fld := ⟨.ROUTE_PATH_TALLY, 32, 32⟩
/-- ROUTE_PATH_TALLY.PINDIV [31:0]. -/
def ROUTE_PATH_TALLY_PINDIV : Fld := ⟨.ROUTE_PATH_TALLY, 0, 32⟩
/-- ROUTE_TALLY_CLR.CLR [0]. -/
def ROUTE_TALLY_CLR_CLR : Fld := ⟨.ROUTE_TALLY_CLR, 0, 1⟩
/-- ROUTE_BANK.DRAINLEFT [47:32]. -/
def ROUTE_BANK_DRAINLEFT : Fld := ⟨.ROUTE_BANK, 32, 16⟩
/-- ROUTE_BANK.EPOCH [9:8]. -/
def ROUTE_BANK_EPOCH : Fld := ⟨.ROUTE_BANK, 8, 2⟩
/-- ROUTE_BANK.STATE [1:0]. -/
def ROUTE_BANK_STATE : Fld := ⟨.ROUTE_BANK, 0, 2⟩
/-- ROUTE_RESEQ_TALLY.LOST [63:48]. -/
def ROUTE_RESEQ_TALLY_LOST : Fld := ⟨.ROUTE_RESEQ_TALLY, 48, 16⟩
/-- ROUTE_RESEQ_TALLY.DEPENDENT [47:32]. -/
def ROUTE_RESEQ_TALLY_DEPENDENT : Fld := ⟨.ROUTE_RESEQ_TALLY, 32, 16⟩
/-- ROUTE_RESEQ_TALLY.LATE [31:16]. -/
def ROUTE_RESEQ_TALLY_LATE : Fld := ⟨.ROUTE_RESEQ_TALLY, 16, 16⟩
/-- ROUTE_RESEQ_TALLY.NOENTRY [15:0]. -/
def ROUTE_RESEQ_TALLY_NOENTRY : Fld := ⟨.ROUTE_RESEQ_TALLY, 0, 16⟩
/-- ROUTE_UPMASK.SPMASK [63:0]. -/
def ROUTE_UPMASK_SPMASK : Fld := ⟨.ROUTE_UPMASK, 0, 64⟩
/-- ROUTE_UPPORT.VALID [7]. -/
def ROUTE_UPPORT_VALID : Fld := ⟨.ROUTE_UPPORT, 7, 1⟩
/-- ROUTE_UPPORT.PORT [6:0]. -/
def ROUTE_UPPORT_PORT : Fld := ⟨.ROUTE_UPPORT, 0, 7⟩
/-- ROUTE_DOWNPORT.VALID [7]. -/
def ROUTE_DOWNPORT_VALID : Fld := ⟨.ROUTE_DOWNPORT, 7, 1⟩
/-- ROUTE_DOWNPORT.PORT [6:0]. -/
def ROUTE_DOWNPORT_PORT : Fld := ⟨.ROUTE_DOWNPORT, 0, 7⟩
/-- ROUTE_RSET.NSPINE [14:8]. -/
def ROUTE_RSET_NSPINE : Fld := ⟨.ROUTE_RSET, 8, 7⟩
/-- ROUTE_RSET.RULE [7]. -/
def ROUTE_RSET_RULE : Fld := ⟨.ROUTE_RSET, 7, 1⟩
/-- ROUTE_RSET.SPINE [5:0]. -/
def ROUTE_RSET_SPINE : Fld := ⟨.ROUTE_RSET, 0, 6⟩
/-- MCAST_TALLY.MCREJ [63:48]. -/
def MCAST_TALLY_MCREJ : Fld := ⟨.MCAST_TALLY, 48, 16⟩
/-- MCAST_TALLY.MCEMPTY [47:32]. -/
def MCAST_TALLY_MCEMPTY : Fld := ⟨.MCAST_TALLY, 32, 16⟩
/-- MCAST_TALLY.MCDROP [31:16]. -/
def MCAST_TALLY_MCDROP : Fld := ⟨.MCAST_TALLY, 16, 16⟩
/-- MCAST_LOCAL.LOCAL [63:0]. -/
def MCAST_LOCAL_LOCAL : Fld := ⟨.MCAST_LOCAL, 0, 64⟩
/-- MCAST_GRP.PORTS [63:0]. -/
def MCAST_GRP_PORTS : Fld := ⟨.MCAST_GRP, 0, 64⟩
/-- SCHED_SKEW_CFG.RUNLEN [39:32]. -/
def SCHED_SKEW_CFG_RUNLEN : Fld := ⟨.SCHED_SKEW_CFG, 32, 8⟩
/-- SCHED_SKEW_CFG.THRESH [31:0]. -/
def SCHED_SKEW_CFG_THRESH : Fld := ⟨.SCHED_SKEW_CFG, 0, 32⟩
/-- SCHED_ADMIT.DETAIL [63:32]. -/
def SCHED_ADMIT_DETAIL : Fld := ⟨.SCHED_ADMIT, 32, 32⟩
/-- SCHED_ADMIT.INDEX [31:16]. -/
def SCHED_ADMIT_INDEX : Fld := ⟨.SCHED_ADMIT, 16, 16⟩
/-- SCHED_ADMIT.TABLE [15:12]. -/
def SCHED_ADMIT_TABLE : Fld := ⟨.SCHED_ADMIT, 12, 4⟩
/-- SCHED_ADMIT.BREW [10:8]. -/
def SCHED_ADMIT_BREW : Fld := ⟨.SCHED_ADMIT, 8, 3⟩
/-- SCHED_ADMIT.CODE [7:0]. -/
def SCHED_ADMIT_CODE : Fld := ⟨.SCHED_ADMIT, 0, 8⟩
/-- SCHED_COMMIT.CSTAT [63:56]. -/
def SCHED_COMMIT_CSTAT : Fld := ⟨.SCHED_COMMIT, 56, 8⟩
/-- SCHED_COMMIT.FNID [47:32]. -/
def SCHED_COMMIT_FNID : Fld := ⟨.SCHED_COMMIT, 32, 16⟩
/-- SCHED_COMMIT.ADMIT [31:0]. -/
def SCHED_COMMIT_ADMIT : Fld := ⟨.SCHED_COMMIT, 0, 32⟩
/-- SCHED_UNLOAD.GO [3]. -/
def SCHED_UNLOAD_GO : Fld := ⟨.SCHED_UNLOAD, 3, 1⟩
/-- SCHED_UNLOAD.SLOT [2:0]. -/
def SCHED_UNLOAD_SLOT : Fld := ⟨.SCHED_UNLOAD, 0, 3⟩
/-- SCHED_BREACH.FAULT [63:48]. -/
def SCHED_BREACH_FAULT : Fld := ⟨.SCHED_BREACH, 48, 16⟩
/-- SCHED_BREACH.LINK [47:32]. -/
def SCHED_BREACH_LINK : Fld := ⟨.SCHED_BREACH, 32, 16⟩
/-- SCHED_BREACH.HOLD [31:16]. -/
def SCHED_BREACH_HOLD : Fld := ⟨.SCHED_BREACH, 16, 16⟩
/-- SCHED_BREACH.VOID [15:0]. -/
def SCHED_BREACH_VOID : Fld := ⟨.SCHED_BREACH, 0, 16⟩
/-- SCHED_BREACH_FIRST.VALID [63]. -/
def SCHED_BREACH_FIRST_VALID : Fld := ⟨.SCHED_BREACH_FIRST, 63, 1⟩
/-- SCHED_BREACH_FIRST.CLASS [62:61]. -/
def SCHED_BREACH_FIRST_CLASS : Fld := ⟨.SCHED_BREACH_FIRST, 61, 2⟩
/-- SCHED_BREACH_FIRST.LEG [60]. -/
def SCHED_BREACH_FIRST_LEG : Fld := ⟨.SCHED_BREACH_FIRST, 60, 1⟩
/-- SCHED_BREACH_FIRST.PORT [54:48]. -/
def SCHED_BREACH_FIRST_PORT : Fld := ⟨.SCHED_BREACH_FIRST, 48, 7⟩
/-- SCHED_BREACH_FIRST.INSTLO [47:32]. -/
def SCHED_BREACH_FIRST_INSTLO : Fld := ⟨.SCHED_BREACH_FIRST, 32, 16⟩
/-- SCHED_BREACH_FIRST.EXCESS [31:0]. -/
def SCHED_BREACH_FIRST_EXCESS : Fld := ⟨.SCHED_BREACH_FIRST, 0, 32⟩
/-- SCHED_BREACH_CLR.CLR [0]. -/
def SCHED_BREACH_CLR_CLR : Fld := ⟨.SCHED_BREACH_CLR, 0, 1⟩
/-- SCHED_COLL_CLR.CLR [9:0]. -/
def SCHED_COLL_CLR_CLR : Fld := ⟨.SCHED_COLL_CLR, 0, 10⟩
/-- SCHED_EXP_DROP.CRCDROP [63:48]. -/
def SCHED_EXP_DROP_CRCDROP : Fld := ⟨.SCHED_EXP_DROP, 48, 16⟩
/-- SCHED_EXP_DROP.DUP [47:32]. -/
def SCHED_EXP_DROP_DUP : Fld := ⟨.SCHED_EXP_DROP, 32, 16⟩
/-- SCHED_EXP_DROP.LATE [31:16]. -/
def SCHED_EXP_DROP_LATE : Fld := ⟨.SCHED_EXP_DROP, 16, 16⟩
/-- SCHED_EXP_DROP.STRAY [15:0]. -/
def SCHED_EXP_DROP_STRAY : Fld := ⟨.SCHED_EXP_DROP, 0, 16⟩
/-- SCHED_EXP_TOK.ROUTED [63:32]. -/
def SCHED_EXP_TOK_ROUTED : Fld := ⟨.SCHED_EXP_TOK, 32, 32⟩
/-- SCHED_EXP_TOK.OVLOCAL [31:16]. -/
def SCHED_EXP_TOK_OVLOCAL : Fld := ⟨.SCHED_EXP_TOK, 16, 16⟩
/-- SCHED_EXP_TOK.OVHOME [15:0]. -/
def SCHED_EXP_TOK_OVHOME : Fld := ⟨.SCHED_EXP_TOK, 0, 16⟩
/-- SCHED_EXP_SPEC.HIT [63:32]. -/
def SCHED_EXP_SPEC_HIT : Fld := ⟨.SCHED_EXP_SPEC, 32, 32⟩
/-- SCHED_EXP_SPEC.MISS [31:0]. -/
def SCHED_EXP_SPEC_MISS : Fld := ⟨.SCHED_EXP_SPEC, 0, 32⟩
/-- SCHED_EXP_SQ.SQUASH [63:32]. -/
def SCHED_EXP_SQ_SQUASH : Fld := ⟨.SCHED_EXP_SQ, 32, 32⟩
/-- SCHED_EXP_SQ.SQCAP [31:16]. -/
def SCHED_EXP_SQ_SQCAP : Fld := ⟨.SCHED_EXP_SQ, 16, 16⟩
/-- SCHED_EXP_SQ.NOSTAGE [15:0]. -/
def SCHED_EXP_SQ_NOSTAGE : Fld := ⟨.SCHED_EXP_SQ, 0, 16⟩
/-- SCHED_EXP_EVT.ZEROEXP [63:48]. -/
def SCHED_EXP_EVT_ZEROEXP : Fld := ⟨.SCHED_EXP_EVT, 48, 16⟩
/-- SCHED_EXP_EVT.ROUTENAN [47:32]. -/
def SCHED_EXP_EVT_ROUTENAN : Fld := ⟨.SCHED_EXP_EVT, 32, 16⟩
/-- SCHED_EXP_EVT.GATEZERO [31:16]. -/
def SCHED_EXP_EVT_GATEZERO : Fld := ⟨.SCHED_EXP_EVT, 16, 16⟩
/-- SCHED_EXP_EVT.VOIDSTEP [15:0]. -/
def SCHED_EXP_EVT_VOIDSTEP : Fld := ⟨.SCHED_EXP_EVT, 0, 16⟩
/-- SCHED_EXP_END.COMPLETE [63:32]. -/
def SCHED_EXP_END_COMPLETE : Fld := ⟨.SCHED_EXP_END, 32, 32⟩
/-- SCHED_EXP_END.FAIL [31:16]. -/
def SCHED_EXP_END_FAIL : Fld := ⟨.SCHED_EXP_END, 16, 16⟩
/-- SCHED_EXP_END.OTHER [15:0]. -/
def SCHED_EXP_END_OTHER : Fld := ⟨.SCHED_EXP_END, 0, 16⟩
/-- SCHED_EXP_CLR.CLR [0]. -/
def SCHED_EXP_CLR_CLR : Fld := ⟨.SCHED_EXP_CLR, 0, 1⟩
/-- SCHED_SAMP_CLR.CLR [9:0]. -/
def SCHED_SAMP_CLR_CLR : Fld := ⟨.SCHED_SAMP_CLR, 0, 10⟩
/-- SCHED_COLL_DROP.CRCDROP [63:48]. -/
def SCHED_COLL_DROP_CRCDROP : Fld := ⟨.SCHED_COLL_DROP, 48, 16⟩
/-- SCHED_COLL_DROP.DUP [47:32]. -/
def SCHED_COLL_DROP_DUP : Fld := ⟨.SCHED_COLL_DROP, 32, 16⟩
/-- SCHED_COLL_DROP.LATE [31:16]. -/
def SCHED_COLL_DROP_LATE : Fld := ⟨.SCHED_COLL_DROP, 16, 16⟩
/-- SCHED_COLL_DROP.STRAY [15:0]. -/
def SCHED_COLL_DROP_STRAY : Fld := ⟨.SCHED_COLL_DROP, 0, 16⟩
/-- SCHED_COLL_END.COMPLETE [63:32]. -/
def SCHED_COLL_END_COMPLETE : Fld := ⟨.SCHED_COLL_END, 32, 32⟩
/-- SCHED_COLL_END.TIMEOUT [31:16]. -/
def SCHED_COLL_END_TIMEOUT : Fld := ⟨.SCHED_COLL_END, 16, 16⟩
/-- SCHED_COLL_END.OTHER [15:0]. -/
def SCHED_COLL_END_OTHER : Fld := ⟨.SCHED_COLL_END, 0, 16⟩
/-- SCHED_COLL_SPARSE.DENSESW [63:48]. -/
def SCHED_COLL_SPARSE_DENSESW : Fld := ⟨.SCHED_COLL_SPARSE, 48, 16⟩
/-- SCHED_COLL_SPARSE.OVERSIZE [47:32]. -/
def SCHED_COLL_SPARSE_OVERSIZE : Fld := ⟨.SCHED_COLL_SPARSE, 32, 16⟩
/-- SCHED_COLL_SPARSE.STRUCTVIOL [31:16]. -/
def SCHED_COLL_SPARSE_STRUCTVIOL : Fld := ⟨.SCHED_COLL_SPARSE, 16, 16⟩
/-- SCHED_COLL_SPARSE.CQSTALL [15:0]. -/
def SCHED_COLL_SPARSE_CQSTALL : Fld := ⟨.SCHED_COLL_SPARSE, 0, 16⟩
/-- SCHED_SKEW.MAXFNID [63:48]. -/
def SCHED_SKEW_MAXFNID : Fld := ⟨.SCHED_SKEW, 48, 16⟩
/-- SCHED_SKEW.MAXLATE [31:0]. -/
def SCHED_SKEW_MAXLATE : Fld := ⟨.SCHED_SKEW, 0, 32⟩
/-- SCHED_LATE.VALID [63]. -/
def SCHED_LATE_VALID : Fld := ⟨.SCHED_LATE, 63, 1⟩
/-- SCHED_LATE.RUN [47:40]. -/
def SCHED_LATE_RUN : Fld := ⟨.SCHED_LATE, 40, 8⟩
/-- SCHED_LATE.FNID [31:16]. -/
def SCHED_LATE_FNID : Fld := ⟨.SCHED_LATE, 16, 16⟩
/-- SCHED_LATE.INSTLO [15:0]. -/
def SCHED_LATE_INSTLO : Fld := ⟨.SCHED_LATE, 0, 16⟩
/-- SCHED_SAMP_EVT.NONFIN [63:48]. -/
def SCHED_SAMP_EVT_NONFIN : Fld := ⟨.SCHED_SAMP_EVT, 48, 16⟩
/-- SCHED_SAMP_EVT.DUPTOK [47:32]. -/
def SCHED_SAMP_EVT_DUPTOK : Fld := ⟨.SCHED_SAMP_EVT, 32, 16⟩
/-- SCHED_SAMP_EVT.ZEROW [31:16]. -/
def SCHED_SAMP_EVT_ZEROW : Fld := ⟨.SCHED_SAMP_EVT, 16, 16⟩
/-- SCHED_SAMP_EVT.EMPTY [15:0]. -/
def SCHED_SAMP_EVT_EMPTY : Fld := ⟨.SCHED_SAMP_EVT, 0, 16⟩
/-- SCHED_STEP.STEP [63:0]. -/
def SCHED_STEP_STEP : Fld := ⟨.SCHED_STEP, 0, 64⟩
/-- SCHED_SEEDN.NSEED [8:0]. -/
def SCHED_SEEDN_NSEED : Fld := ⟨.SCHED_SEEDN, 0, 9⟩
/-- SCHED_REWIND.BUSY [63]. -/
def SCHED_REWIND_BUSY : Fld := ⟨.SCHED_REWIND, 63, 1⟩
/-- SCHED_REWIND.DONE [62]. -/
def SCHED_REWIND_DONE : Fld := ⟨.SCHED_REWIND, 62, 1⟩
/-- SCHED_REWIND.RELDROP [47:32]. -/
def SCHED_REWIND_RELDROP : Fld := ⟨.SCHED_REWIND, 32, 16⟩
/-- SCHED_REWIND.REJ [31:16]. -/
def SCHED_REWIND_REJ : Fld := ⟨.SCHED_REWIND, 16, 16⟩
/-- SCHED_REWIND.COUNT [15:0]. -/
def SCHED_REWIND_COUNT : Fld := ⟨.SCHED_REWIND, 0, 16⟩
/-- SCHED_REWIND_CMD.STEP [63:0]. -/
def SCHED_REWIND_CMD_STEP : Fld := ⟨.SCHED_REWIND_CMD, 0, 64⟩
/-- SCHED_PLACE_EFF.EFFSTEP [63:0]. -/
def SCHED_PLACE_EFF_EFFSTEP : Fld := ⟨.SCHED_PLACE_EFF, 0, 64⟩
/-- SCHED_SEED.SEED [63:0]. -/
def SCHED_SEED_SEED : Fld := ⟨.SCHED_SEED, 0, 64⟩
/-- SCHED_PREWAKE.HOLD [63:56]. -/
def SCHED_PREWAKE_HOLD : Fld := ⟨.SCHED_PREWAKE, 56, 8⟩
/-- SCHED_PREWAKE.ISLAND [53:48]. -/
def SCHED_PREWAKE_ISLAND : Fld := ⟨.SCHED_PREWAKE, 48, 6⟩
/-- SCHED_PREWAKE.DELAY [31:0]. -/
def SCHED_PREWAKE_DELAY : Fld := ⟨.SCHED_PREWAKE, 0, 32⟩
/-- CADDY_HBM.SIZEMB [63:32]. -/
def CADDY_HBM_SIZEMB : Fld := ⟨.CADDY_HBM, 32, 32⟩
/-- CADDY_HBM.BASEMB [31:0]. -/
def CADDY_HBM_BASEMB : Fld := ⟨.CADDY_HBM, 0, 32⟩
/-- CADDY_EVT.RCSPLIT [63:32]. -/
def CADDY_EVT_RCSPLIT : Fld := ⟨.CADDY_EVT, 32, 32⟩
/-- CADDY_EVT.RCERR [31:0]. -/
def CADDY_EVT_RCERR : Fld := ⟨.CADDY_EVT, 0, 32⟩
/-- CADDY_CLR.CLR [0]. -/
def CADDY_CLR_CLR : Fld := ⟨.CADDY_CLR, 0, 1⟩
/-- CADDY_POOL.FREE [63:32]. -/
def CADDY_POOL_FREE : Fld := ⟨.CADDY_POOL, 32, 32⟩
/-- CADDY_POOL.COUNT [31:0]. -/
def CADDY_POOL_COUNT : Fld := ⟨.CADDY_POOL, 0, 32⟩
/-- CADDY_QUOTA.CEIL [49:32]. -/
def CADDY_QUOTA_CEIL : Fld := ⟨.CADDY_QUOTA, 32, 18⟩
/-- CADDY_QUOTA.FLOOR [17:0]. -/
def CADDY_QUOTA_FLOOR : Fld := ⟨.CADDY_QUOTA, 0, 18⟩
/-- CADDY_QUSE.PEAK [49:32]. -/
def CADDY_QUSE_PEAK : Fld := ⟨.CADDY_QUSE, 32, 18⟩
/-- CADDY_QUSE.USED [17:0]. -/
def CADDY_QUSE_USED : Fld := ⟨.CADDY_QUSE, 0, 18⟩
/-- CADDY_QTALLY.WAIT [63:32]. -/
def CADDY_QTALLY_WAIT : Fld := ⟨.CADDY_QTALLY, 32, 32⟩
/-- CADDY_QTALLY.FALLBACK [31:0]. -/
def CADDY_QTALLY_FALLBACK : Fld := ⟨.CADDY_QTALLY, 0, 32⟩
/-- CADDY_PSTAT.FALLBACK [63:48]. -/
def CADDY_PSTAT_FALLBACK : Fld := ⟨.CADDY_PSTAT, 48, 16⟩
/-- CADDY_PSTAT.WAIT [47:32]. -/
def CADDY_PSTAT_WAIT : Fld := ⟨.CADDY_PSTAT, 32, 16⟩
/-- CADDY_PSTAT.PEAK [31:0]. -/
def CADDY_PSTAT_PEAK : Fld := ⟨.CADDY_PSTAT, 0, 32⟩
/-- ROD_STALL_LIMIT.LIMIT [31:0]. -/
def ROD_STALL_LIMIT_LIMIT : Fld := ⟨.ROD_STALL_LIMIT, 0, 32⟩
/-- ROD_STATUS.ERRADDR [47:32]. -/
def ROD_STATUS_ERRADDR : Fld := ⟨.ROD_STATUS, 32, 16⟩
/-- ROD_STATUS.ERR [31:24]. -/
def ROD_STATUS_ERR : Fld := ⟨.ROD_STATUS, 24, 8⟩
/-- ROD_STATUS.ERRQ [23:21]. -/
def ROD_STATUS_ERRQ : Fld := ⟨.ROD_STATUS, 21, 3⟩
/-- ROD_STATUS.QBUSY [15:11]. -/
def ROD_STATUS_QBUSY : Fld := ⟨.ROD_STATUS, 11, 5⟩
/-- ROD_STATUS.STATE [2:0]. -/
def ROD_STATUS_STATE : Fld := ⟨.ROD_STATUS, 0, 3⟩
/-- ROD_CTRL.TALCLR [2]. -/
def ROD_CTRL_TALCLR : Fld := ⟨.ROD_CTRL, 2, 1⟩
/-- ROD_CTRL.HAZCLR [1]. -/
def ROD_CTRL_HAZCLR : Fld := ⟨.ROD_CTRL, 1, 1⟩
/-- ROD_CTRL.HALT [0]. -/
def ROD_CTRL_HALT : Fld := ⟨.ROD_CTRL, 0, 1⟩
/-- ROD_ENTRY.ENTRY [15:0]. -/
def ROD_ENTRY_ENTRY : Fld := ⟨.ROD_ENTRY, 0, 16⟩
/-- ROD_HAZ_CNT.WAW [63:32]. -/
def ROD_HAZ_CNT_WAW : Fld := ⟨.ROD_HAZ_CNT, 32, 32⟩
/-- ROD_HAZ_CNT.RAW [31:0]. -/
def ROD_HAZ_CNT_RAW : Fld := ⟨.ROD_HAZ_CNT, 0, 32⟩
/-- ROD_HAZ_FIRST.VALID [63]. -/
def ROD_HAZ_FIRST_VALID : Fld := ⟨.ROD_HAZ_FIRST, 63, 1⟩
/-- ROD_HAZ_FIRST.KIND [62:61]. -/
def ROD_HAZ_FIRST_KIND : Fld := ⟨.ROD_HAZ_FIRST, 61, 2⟩
/-- ROD_HAZ_FIRST.VREG [60:56]. -/
def ROD_HAZ_FIRST_VREG : Fld := ⟨.ROD_HAZ_FIRST, 56, 5⟩
/-- ROD_HAZ_FIRST.REPIDX [55:43]. -/
def ROD_HAZ_FIRST_REPIDX : Fld := ⟨.ROD_HAZ_FIRST, 43, 13⟩
/-- ROD_HAZ_FIRST.STEP [31:16]. -/
def ROD_HAZ_FIRST_STEP : Fld := ⟨.ROD_HAZ_FIRST, 16, 16⟩
/-- ROD_HAZ_FIRST.IMADDR [15:0]. -/
def ROD_HAZ_FIRST_IMADDR : Fld := ⟨.ROD_HAZ_FIRST, 0, 16⟩
/-- ROD_CMD_TALLY.EMPTY [63:32]. -/
def ROD_CMD_TALLY_EMPTY : Fld := ⟨.ROD_CMD_TALLY, 32, 32⟩
/-- ROD_CMD_TALLY.STALL [31:16]. -/
def ROD_CMD_TALLY_STALL : Fld := ⟨.ROD_CMD_TALLY, 16, 16⟩
/-- ROD_CMD_TALLY.STRICTREJ [15:0]. -/
def ROD_CMD_TALLY_STRICTREJ : Fld := ⟨.ROD_CMD_TALLY, 0, 16⟩
/-- ROD_STR_TALLY.UNSORTED [63:32]. -/
def ROD_STR_TALLY_UNSORTED : Fld := ⟨.ROD_STR_TALLY, 32, 32⟩
/-- ROD_STR_TALLY.NANKEY [31:0]. -/
def ROD_STR_TALLY_NANKEY : Fld := ⟨.ROD_STR_TALLY, 0, 32⟩
/-- ROD_ISLAND.ASLEEP [63]. -/
def ROD_ISLAND_ASLEEP : Fld := ⟨.ROD_ISLAND, 63, 1⟩
/-- ROD_ISLAND.NOSLEEP [62]. -/
def ROD_ISLAND_NOSLEEP : Fld := ⟨.ROD_ISLAND, 62, 1⟩
/-- ROD_ISLAND.COLD [61:32]. -/
def ROD_ISLAND_COLD : Fld := ⟨.ROD_ISLAND, 32, 30⟩
/-- ROD_ISLAND.WAKES [31:0]. -/
def ROD_ISLAND_WAKES : Fld := ⟨.ROD_ISLAND, 0, 32⟩
/-- ROD_MARGIN.DRIFT [63:48]. -/
def ROD_MARGIN_DRIFT : Fld := ⟨.ROD_MARGIN, 48, 16⟩
/-- ROD_MARGIN.SLACKMIN [31:16]. -/
def ROD_MARGIN_SLACKMIN : Fld := ⟨.ROD_MARGIN, 16, 16⟩
/-- ROD_MARGIN.SLACKNOW [15:0]. -/
def ROD_MARGIN_SLACKNOW : Fld := ⟨.ROD_MARGIN, 0, 16⟩
/-- ROD_SHADOW.MISMATCH [63:48]. -/
def ROD_SHADOW_MISMATCH : Fld := ⟨.ROD_SHADOW, 48, 16⟩
/-- ROD_SHADOW.CHECKS [47:0]. -/
def ROD_SHADOW_CHECKS : Fld := ⟨.ROD_SHADOW, 0, 48⟩
/-- BEAD_TALLY_CLR.CLR [7:0]. -/
def BEAD_TALLY_CLR_CLR : Fld := ⟨.BEAD_TALLY_CLR, 0, 8⟩
/-- BEAD_TALLY.COUNT [63:0]. -/
def BEAD_TALLY_COUNT : Fld := ⟨.BEAD_TALLY, 0, 64⟩
/-- HBM_HEALTH.REPAIRUSED [63:52]. -/
def HBM_HEALTH_REPAIRUSED : Fld := ⟨.HBM_HEALTH, 52, 12⟩
/-- HBM_HEALTH.REPAIRFREE [51:40]. -/
def HBM_HEALTH_REPAIRFREE : Fld := ⟨.HBM_HEALTH, 40, 12⟩
/-- HBM_HEALTH.MARGINMIN [39:28]. -/
def HBM_HEALTH_MARGINMIN : Fld := ⟨.HBM_HEALTH, 28, 12⟩
/-- HBM_HEALTH.CE [27:0]. -/
def HBM_HEALTH_CE : Fld := ⟨.HBM_HEALTH, 0, 28⟩
/-- MEMREG_CFG.FTIMEOUT [51:32]. -/
def MEMREG_CFG_FTIMEOUT : Fld := ⟨.MEMREG_CFG, 32, 20⟩
/-- MEMREG_CFG.WINDOW [13:0]. -/
def MEMREG_CFG_WINDOW : Fld := ⟨.MEMREG_CFG, 0, 14⟩
/-- MEMREG_TALLY.STALE [63:48]. -/
def MEMREG_TALLY_STALE : Fld := ⟨.MEMREG_TALLY, 48, 16⟩
/-- MEMREG_TALLY.RETRYHIT [47:32]. -/
def MEMREG_TALLY_RETRYHIT : Fld := ⟨.MEMREG_TALLY, 32, 16⟩
/-- MEMREG_TALLY.TAGREUSE [31:16]. -/
def MEMREG_TALLY_TAGREUSE : Fld := ⟨.MEMREG_TALLY, 16, 16⟩
/-- MEMREG_TALLY.LOGFULL [15:0]. -/
def MEMREG_TALLY_LOGFULL : Fld := ⟨.MEMREG_TALLY, 0, 16⟩
/-- MEMREG_ERR.RANGE [63:48]. -/
def MEMREG_ERR_RANGE : Fld := ⟨.MEMREG_ERR, 48, 16⟩
/-- MEMREG_ERR.BADOP [47:32]. -/
def MEMREG_ERR_BADOP : Fld := ⟨.MEMREG_ERR, 32, 16⟩
/-- MEMREG_ERR.DENIED [31:16]. -/
def MEMREG_ERR_DENIED : Fld := ⟨.MEMREG_ERR, 16, 16⟩
/-- MEMREG_ERR.UE [15:0]. -/
def MEMREG_ERR_UE : Fld := ⟨.MEMREG_ERR, 0, 16⟩
/-- MEMREG_CLR.CLR [0]. -/
def MEMREG_CLR_CLR : Fld := ⟨.MEMREG_CLR, 0, 1⟩
/-- MEMREG_RANGE.VALID [63]. -/
def MEMREG_RANGE_VALID : Fld := ⟨.MEMREG_RANGE, 63, 1⟩
/-- MEMREG_RANGE.GRANT [61:54]. -/
def MEMREG_RANGE_GRANT : Fld := ⟨.MEMREG_RANGE, 54, 8⟩
/-- MEMREG_RANGE.LOG2SZ [53:48]. -/
def MEMREG_RANGE_LOG2SZ : Fld := ⟨.MEMREG_RANGE, 48, 6⟩
/-- MEMREG_RANGE.BASE [47:0]. -/
def MEMREG_RANGE_BASE : Fld := ⟨.MEMREG_RANGE, 0, 48⟩
/-- MEMREG_CTL.OWNER [63:48]. -/
def MEMREG_CTL_OWNER : Fld := ⟨.MEMREG_CTL, 48, 16⟩
/-- MEMREG_CTL.OMASK [47:32]. -/
def MEMREG_CTL_OMASK : Fld := ⟨.MEMREG_CTL, 32, 16⟩
/-- MEMREG_CTL.GEN [31:8]. -/
def MEMREG_CTL_GEN : Fld := ⟨.MEMREG_CTL, 8, 24⟩
/-- MEMREG_CTL.MODE [3:0]. -/
def MEMREG_CTL_MODE : Fld := ⟨.MEMREG_CTL, 0, 4⟩
/-- MEMREG_FSTAT.VALID [63]. -/
def MEMREG_FSTAT_VALID : Fld := ⟨.MEMREG_FSTAT, 63, 1⟩
/-- MEMREG_FSTAT.FIRST [47:32]. -/
def MEMREG_FSTAT_FIRST : Fld := ⟨.MEMREG_FSTAT, 32, 16⟩
/-- MEMREG_FSTAT.COUNT [31:0]. -/
def MEMREG_FSTAT_COUNT : Fld := ⟨.MEMREG_FSTAT, 0, 32⟩
/-- CBOARD_TALLY.RELEASES [63:32]. -/
def CBOARD_TALLY_RELEASES : Fld := ⟨.CBOARD_TALLY, 32, 32⟩
/-- CBOARD_TALLY.COALESCE [31:16]. -/
def CBOARD_TALLY_COALESCE : Fld := ⟨.CBOARD_TALLY, 16, 16⟩
/-- CBOARD_TALLY.WAITFULL [15:8]. -/
def CBOARD_TALLY_WAITFULL : Fld := ⟨.CBOARD_TALLY, 8, 8⟩
/-- CBOARD_TALLY.DENIED [7:0]. -/
def CBOARD_TALLY_DENIED : Fld := ⟨.CBOARD_TALLY, 0, 8⟩
/-- CBOARD_CLR.CLR [0]. -/
def CBOARD_CLR_CLR : Fld := ⟨.CBOARD_CLR, 0, 1⟩
/-- TALLY_BOOK_STAT.FREESECT [63:52]. -/
def TALLY_BOOK_STAT_FREESECT : Fld := ⟨.TALLY_BOOK_STAT, 52, 12⟩
/-- TALLY_BOOK_STAT.RETIRED [51:40]. -/
def TALLY_BOOK_STAT_RETIRED : Fld := ⟨.TALLY_BOOK_STAT, 40, 12⟩
/-- TALLY_BOOK_STAT.DROPPED [39:24]. -/
def TALLY_BOOK_STAT_DROPPED : Fld := ⟨.TALLY_BOOK_STAT, 24, 16⟩
/-- TALLY_BOOK_STAT.LOSTDG [23:8]. -/
def TALLY_BOOK_STAT_LOSTDG : Fld := ⟨.TALLY_BOOK_STAT, 8, 16⟩
/-- TALLY_BOOK_STAT.BADREC [7:0]. -/
def TALLY_BOOK_STAT_BADREC : Fld := ⟨.TALLY_BOOK_STAT, 0, 8⟩
/-- TALLY_TELE_CFG.REPLAY [21]. -/
def TALLY_TELE_CFG_REPLAY : Fld := ⟨.TALLY_TELE_CFG, 21, 1⟩
/-- TALLY_TELE_CFG.ENABLE [20]. -/
def TALLY_TELE_CFG_ENABLE : Fld := ⟨.TALLY_TELE_CFG, 20, 1⟩
/-- TALLY_TELE_CFG.PERIOD [19:0]. -/
def TALLY_TELE_CFG_PERIOD : Fld := ⟨.TALLY_TELE_CFG, 0, 20⟩
/-- AUDIT_RECHK.BUSY [63]. -/
def AUDIT_RECHK_BUSY : Fld := ⟨.AUDIT_RECHK, 63, 1⟩
/-- AUDIT_RECHK.DONE [62]. -/
def AUDIT_RECHK_DONE : Fld := ⟨.AUDIT_RECHK, 62, 1⟩
/-- AUDIT_RECHK.MATCH [61]. -/
def AUDIT_RECHK_MATCH : Fld := ⟨.AUDIT_RECHK, 61, 1⟩
/-- AUDIT_RECHK.GO [3]. -/
def AUDIT_RECHK_GO : Fld := ⟨.AUDIT_RECHK, 3, 1⟩
/-- AUDIT_RECHK.SLOT [2:0]. -/
def AUDIT_RECHK_SLOT : Fld := ⟨.AUDIT_RECHK, 0, 3⟩
/-- AUDIT_PWD.PWD [63:0]. -/
def AUDIT_PWD_PWD : Fld := ⟨.AUDIT_PWD, 0, 64⟩

end F

end Sys2Proof.Machine
end

