-- ==== Sys2Proof/Machine/State.lean ====
section
/-!
DEFINITION. The state of the block as plain data: every register, memory, queue, buffer, table and counter the
manual gives the device, the queue of commands that wait, and the state right after reset.
-/
namespace Sys2Proof.Machine

open Sys2Proof

/-- A finite table by number in one canonical form: keys strictly rising, and no entry equal to what an
unlisted key reads as (the operations in Ops.lean keep that form). -/
abbrev SMap (α : Type) := List (Nat × α)

-- ---------------------------------------------------------------------------------------------
-- Rod cores (chapter "Rod cores and command streams")

/-- What a core does, as ROD_STATUS(c).STATE (Table 3.2); QUARANTINED is a flag beside it, since a quarantined core that an
admitted Brew names goes on executing (R355). -/
inductive CoreSt where
  | idle | loaded | run | stepwait | halted | fault | quiz
deriving DecidableEq, Repr, Inhabited

/-- An address register's six fields (Table 3.5). -/
structure AReg where
  base : BitVec 48 := 0
  off : BitVec 48 := 0
  stride : BitVec 32 := 0
  count : BitVec 16 := 0
  wrap : BitVec 32 := 0
  idx : BitVec 16 := 0
deriving DecidableEq, Repr, Inhabited

/-- One access to bytes of a core's Rod memory within the running step (R83): the party, how many of its accesses came before, the first byte,
how many, and whether it writes. The parties are the five engines (0 to 4), the control core's stores (5) and loads (6), and the window (7). For
the fabric engine, whose commands overlap in execution, n is the number of the command the access belongs to. -/
structure Touch where
  who : Nat
  n : Nat
  a : Nat
  len : Nat
  wr : Bool
deriving DecidableEq, Repr, Inhabited

/-- What orders the accesses to a core's Rod memory in the running step (R83): how many accesses each party has made; for each party, how many
of each party's accesses are ordered before its next one (for the fabric engine, command by command, at 8 and the command's number); the same for the
newest counts that each token holds, oldest first; and the accesses. Beside that, the spans of router weights and biases that open layer steps read here,
and those of them that have been written (R145). -/
structure Share where
  own : SMap Nat := []
  know : SMap (List Nat) := []
  tok : SMap (List (List Nat)) := []
  log : List Touch := []
  watch : List (Nat × Nat) := []
  spoilt : List (Nat × Nat) := []
deriving DecidableEq, Repr, Inhabited

/-- A queued command: its word, the snapshots of its address registers taken at the PUSH (R75) and the
PUSH's address; granted says that its WV token has been taken (R80). -/
structure Cmd where
  w : CmdWord
  x : AReg := {}
  y : AReg := {}
  z : AReg := {}
  pc : BitVec 16 := 0
  granted : Bool := false
  /-- Its wait for space has been counted (R256). -/
  waited : Bool := false
  /-- How many of the control core's stores the PUSH waited for (R72). -/
  stores : Nat := 0
deriving DecidableEq, Repr, Inhabited

/-- A command in execution: the command, its number, the repeats of it that have not completed, those the fabric engine has not
sent yet, and the tick it issued at. -/
structure Fly where
  cmd : Cmd
  id : Nat
  left : List Nat
  todo : List Nat := []
  since : Nat := 0
deriving DecidableEq, Repr, Inhabited

/-- One engine queue (R79): commands that wait to issue, and issued commands that have not completed; the two
together are the commands the queue holds. -/
structure Queue where
  wait : List Cmd := []
  fly : List Fly := []
deriving DecidableEq, Repr, Inhabited

/-- A write to a vector register that is not yet visible (R84): the register, the slot it issued in and the slot from which it
is visible, the lanes, and what a hazard on it reports. -/
structure VPend where
  reg : Nat
  iss : Nat
  vis : Nat
  lanes : List Lane
  rep : Nat
  pc : BitVec 16
deriving DecidableEq, Repr, Inhabited

/-- Where the control core stalls: a PUSH into a full queue, a TWAIT, a STEPEND (R67, R79, R80). -/
inductive Stall where
  | push (q : QueueId) (rs1 rs2 : GReg)
  | twait (t : Sel)
  | stepEnd
deriving DecidableEq, Repr, Inhabited

/-- The step-entry checkpoint (R65): g1 to g31, a0 to a15, the token counters. -/
structure Checkpoint where
  g : SMap Word := []
  a : SMap AReg := []
  tok : SMap Nat := []
deriving DecidableEq, Repr, Inhabited

/-- One memory request an FMEM or FSYNC has issued and that awaits its answer (R289, R290): the queue command and repeat, its
destination and SEQ, where its answer is written and how many bytes at most, whether it is a STORE and whether an FSYNC sent it, and the buffers of
the core's slot that are reserved for its reply (R259). -/
structure FReq where
  id : Nat
  rep : Nat
  dst : Fnid
  seq : Nat
  ary : Nat
  rlen : Nat
  store : Bool := false
  sync : Bool := false
  held : List Nat := []
deriving DecidableEq, Repr, Inhabited

/-- One Rod core (Table 3.1). -/
structure Core where
  st : CoreSt := .idle
  /-- The core is in quarantine (R355). -/
  quar : Bool := false
  /-- The state a HALT or a quiz left (R428, R69). -/
  prior : CoreSt := .idle
  pc : BitVec 16 := 0
  g : SMap Word := []
  a : SMap AReg := []
  tok : SMap Nat := []
  v : SMap (List Lane) := []
  /-- Vector registers a write has issued to since the step began (R65, R90). -/
  vwritten : SMap Bool := []
  vpend : List VPend := []
  /-- One more than the issue slot of the latest issued write that is visible in a register, for R90's WAW. -/
  vvis : SMap Nat := []
  slot : Nat := 0
  beads : SMap Bead := []
  bflag : SMap Bool := []
  /-- Operation Tally sets: Tally k of set t at 8t + k. -/
  tset : SMap Nat := []
  q : SMap Queue := []
  stall : Option Stall := none
  /-- Stall episodes already counted: 0 to 4 the queues' heads, 5 the control core (R82). -/
  episodes : List Nat := []
  /-- A held step release (R66). -/
  held : Bool := false
  /-- A release that waits for a quiz to end (R69). -/
  heldQuiz : Bool := false
  /-- The step the core is executing (R66). -/
  step : Word := 0
  chk : Checkpoint := {}
  err : Nat := 0
  errq : Nat := 0
  erraddr : BitVec 16 := 0
  freqs : List FReq := []
  nextId : Nat := 0
  /-- FMEM answers that were not OK (Table 10.8). -/
  nerr : Nat := 0
  rmem : SMap Byte := []
  imem : SMap Byte := []
  /-- The running quiz is part of an operator RETURN (R339). -/
  returnQuiz : Bool := false
  /-- The order of the accesses to its Rod memory (R83). -/
  share : Share := {}
  /-- How many updates the conflict queue of each of the sixteen banks of its Bead adder holds (R137). -/
  cq : List Nat := []
  /-- The core is in FAULT with BADCMD, and what was queued before goes on to issue (R77, log entry 135). -/
  drain : Bool := false
  /-- When engines of the core were busy of late, in ticks: from, to (R354). -/
  work : List (Nat × Nat) := []
deriving DecidableEq, Repr, Inhabited

-- ---------------------------------------------------------------------------------------------
-- Records (chapter "Health, margins and the Tally book")

/-- A record of the Tally book and of the telemetry stream (Table 13.16) before it is laid out: W1 to W6. -/
structure Rec where
  typ : Nat
  die : Nat
  ptime : Nat
  seq : BitVec 32
  pay : List Word
deriving DecidableEq, Repr, Inhabited

/-- Events of one TYPE and DIE within one minute (R361): when the minute began, how many arrived, and how many
are to be coalesced. -/
structure Coal where
  typ : Nat
  die : Nat
  start : Nat
  n : Nat
  excess : Nat
deriving DecidableEq, Repr, Inhabited

/-- The Tally book writer (R361, R362). -/
structure Book where
  /-- The next record's sequence number, one series for book and stream (Table 13.16). -/
  seq : BitVec 32 := 0
  /-- Records that wait for flash, oldest first, with the tick each arrived at. -/
  queue : List (Nat × Rec) := []
  budget : Nat := 4096
  coal : List Coal := []
  /-- Tick of the last STEP and TOKENS pair written for core c, plus one; 0 for none (R361). -/
  pairAt : SMap Nat := []
deriving DecidableEq, Repr, Inhabited

/-- The telemetry stream (R363, R364): event records that wait for the next period, for each core the STEP record of the
period (with its VALID bit) and its TOKENS record, and the periodic records that have fallen due. -/
structure Tele where
  events : List Rec := []
  steps : SMap (Option (Bool × Rec × Option Rec)) := []
  periodic : List Rec := []
deriving DecidableEq, Repr, Inhabited

/-- A block of 32 values as encoded: the scale of its MX block and its elements; or the 32 sums of a partial. -/
structure Block where
  scale : Nat := 0
  els : List Nat
deriving DecidableEq, Repr, Inhabited

/-- The inputs of a sampled result that the check unit copies (R353): a TMM tile's command word with its operands A, B and, with ACC, C in bytes; a
reduction block's formats FIN and FOUT, the exponent code that is agreed for it (none where the contributions give it), its contributions and the
leaves' partials in bytes; a combine block's formats and its expert outputs with their gates; or a result that the spec leaves undefined, of which
only the result is kept (log entry 123). -/
inductive ShadowIn where
  | tile (w : CmdWord) (a b c : List Byte)
  | reduce (fin fout : Nat) (code : Option Nat) (ins : List Block) (parts : List (List Byte))
  | combine (fin fout : Nat) (ins : List (Block × Nat))
  | open_ (out : List Byte)
deriving DecidableEq, Repr, Inhabited

/-- A shadow check in progress (R352 to R354): kind (0 reduction, 1 combine, 2 TMM), subject, checker, arbiter, the INST or
LAYER, block or tile and step it belongs to, the copied inputs, the subject's output, the checker's once it is known, bytes taken of the die's
shadow store, the bins of subject and checker, the subject's load in %, and when it was sampled. -/
structure ShadowChk where
  kind : Nat
  subject : Nat
  checker : Nat
  arbiter : Option Nat := none
  ref : Word
  blk : Word
  step : Word
  ins : ShadowIn := .open_ []
  out : List Byte
  chkOut : Option (List Byte) := none
  size : Nat
  binS : Nat
  binC : Nat := 0
  load : Nat
  start : Nat
deriving DecidableEq, Repr, Inhabited

/-- The shadow checks of the device: results formed on each core die (R352), and the checks in progress. -/
structure Shadow where
  counts : SMap Nat := []
  checks : List ShadowChk := []
deriving DecidableEq, Repr, Inhabited

-- ---------------------------------------------------------------------------------------------
-- Frames, links and buffers (chapters "JFP frames", "Forwarding", "Caddy")

/-- Where the cells of a frame or buffer are charged (R252, R253, R257 to R261): to a requester slot or a partition, with the
buffers held of each pool P0 to P5; to the pools of a die alone, for a frame that no slot and no partition stands behind (log entry 10); to the store of
the link from one core die to another, on a VC; to the 64 cells of a die kept for RELEASE frames; to nothing (a frame that arrived on VC0); or to two of
these (a reply that takes over a request's cells and further ones, R258). Slot 1,024 + r is the shared allowance of slot r. -/
inductive Charge where
  | none
  | slot (r : Nat) (held : List Nat)
  | part (i : Nat) (held : List Nat)
  | pool (d : Nat) (held : List Nat)
  | cross (a b v n : Nat)
  | release (d : Nat)
  | both (a b : Charge)
deriving DecidableEq, Repr, Inhabited

/-- Credit that the release of a frame returns (R216): the ingress port, the VC, the cells, and the link-up they belong to. -/
structure Owe where
  port : Nat
  vc : Nat
  cells : Nat
  up : Nat
deriving DecidableEq, Repr, Inhabited

/-- What a frame's departure tells its unit: nothing; or that a frame of a token's leg has left (R173), leg 0 dispatch, 1 combine, 2
status. -/
inductive Owner where
  | none
  | leg (layer : Nat) (step : Word) (own : Fnid) (token : Nat) (k : Nat)
deriving DecidableEq, Repr, Inhabited

/-- A stored frame (R255): its words, its reference count (R263), its charge, the credit its release returns, the core die it is
on, whether Table 8.1 sent it up and by which route set (R236), whether it is multicast, and its owner. -/
structure Buf where
  frame : Frame
  refs : Nat := 1
  charge : Charge := .none
  owe : Option Owe := none
  die : Nat := 0
  up : Bool := false
  rset : Nat := 0
  mc : Bool := false
  own : Owner := .none
  /-- The frame was diverted or re-routed (R275). -/
  diverted : Bool := false
  /-- The partition's WAIT has counted this frame (R261). -/
  waited : Bool := false
  /-- LOGFULL has counted this request (R294). -/
  logWait : Bool := false
  /-- The frame arrived while its VC was paused by a HOLD, and has met no check beyond R212 yet (R214). -/
  fresh : Bool := false
  /-- The stored activation the frame refers to (R156), and the one core whose FRECVs may take it (R163). -/
  act : Option Nat := none
  only : Option Nat := none
  /-- The copy that took the references beyond 255 (R263). -/
  copy : Option Nat := none
  /-- The port the frame arrived on, for multicast copies and skew; none for a frame of a local unit. -/
  inPort : Option Nat := none
  /-- The tick its last bit arrived at, and the delivery-bound clock then (R127). -/
  since : Nat := 0
  bound : Nat := 0
deriving DecidableEq, Repr, Inhabited

/-- What a frame that the switch forms waits for (R255, R256): cells of a partition, cells of a die that neither a slot nor a partition stands behind, or
cells of the shared allowance of a slot. -/
inductive Line where
  | part (i : Nat)
  | loose (d : Nat)
  | slot (r : Nat)
deriving DecidableEq, Repr, Inhabited

/-- A frame that was formed and that waits for its cells (R256, R261): what it waits for, its route set, whether a multicast goes to
ports that face endpoints only, and its owner. -/
structure Formed where
  line : Line
  rset : Nat := 0
  down : Bool := false
  frame : Frame
  own : Owner := .none
  /-- The stored activation it refers to (R156). -/
  act : Option Nat := none
  /-- The die it is formed on, where no partition gives it. -/
  die : Nat := 0
  /-- The credit that its release returns. -/
  owe : Option Owe := none
  /-- It is for the other end of this port itself. -/
  port : Option Nat := none
  /-- The one core that the frame is offered to; it never leaves the switch (R163). -/
  only : Option Nat := none
deriving DecidableEq, Repr, Inhabited

/-- A frame in an egress queue: its buffer, whether it is a staged copy (R159), and the tick it entered at. -/
structure QEnt where
  buf : Nat
  staged : Bool := false
  since : Nat := 0
deriving DecidableEq, Repr, Inhabited

/-- An egress queue (R265 to R268): its frames, E in ticks, REM, and whether it is on the coarse wheel. -/
structure EgQueue where
  ents : List QEnt := []
  e : Int := 0
  rem : Nat := 0
  coarse : Bool := false
deriving DecidableEq, Repr, Inhabited

/-- The credit account of one VC of a link (R216, R218): cells sent and the last FREED told by the peer; cells received, freed and
granted here. -/
structure Acct where
  sent : Nat := 0
  lastFreed : Nat := 0
  received : Nat := 0
  freed : Nat := 0
  limit : Nat := 0
deriving DecidableEq, Repr, Inhabited

/-- Keepalive's phases (R392 to R396): none; a request sent and not answered; a request accepted, waiting for the entry; leaving. -/
inductive KaPhase where
  | none | asked | entering | leaving
deriving DecidableEq, Repr, Inhabited

/-- A running lane quiz (R356): frames sent and echoed so far. -/
structure LaneQuiz where
  sent : Nat := 0
  bad : Nat := 0
  own : Bool := false
deriving DecidableEq, Repr, Inhabited

/-- A fabric port: what the port map says of it (present, 1.6 Tb/s, its down-port coordinate and leaf, its flags), its queues,
accounts, the frame in transmission, link words that wait for the next link-word position, the receiver's resynchronisation,
the heartbeat interval, probation, keepalive and the lane quiz. -/
structure Port where
  present : Bool := false
  wide : Bool := false
  /-- The PMD of its lanes, as the LANE section sets it (R405). -/
  pmd : Pmd := .kr
  coord : Option Nat := none
  /-- The switch the port faces (R369). -/
  faces : Option Fnid := none
  leaf : Nat := 0
  required : Bool := false
  kaok : Bool := false
  q : SMap EgQueue := []
  acct : SMap Acct := []
  /-- The queue and buffer of the frame being sent. -/
  tx : Option (Nat × Nat) := none
  /-- LTYPE and VC of link words that wait. -/
  words : List (Nat × Nat) := []
  resync : Bool := false
  /-- How many times the link has come up. -/
  ups : Nat := 0
  heard : Bool := false
  ucw : Nat := 0
  /-- The tick, plus one, at which the port passed probation, and at which a miss or codeword last fell in probation (R345). -/
  probOk : Nat := 0
  probBad : Nat := 0
  /-- The latest pass ended a RETURN command. -/
  probRet : Bool := false
  bseq : Nat := 0
  /-- The port's RETURN command is running (R339). -/
  returning : Bool := false
  /-- Training failed and waits for its restart (R388). -/
  rest : Bool := false
  /-- The equalisation settings of each lane, stored at the last full-rate training (R388), and those in force. -/
  eqSet : List Word := []
  eqNow : List Word := []
  /-- LANE_PMAP, and LANE_CFG of the lanes, as they are in force, while a later write waits for the port's next training (R406). -/
  pmap : Option Word := none
  laneCfg : Option (List Word) := none
  ka : KaPhase := .none
  /-- The tick at which a frame on a VC other than VC0 last crossed the port. -/
  lastData : Nat := 0
  quiz : Option LaneQuiz := none
deriving DecidableEq, Repr, Inhabited

/-- A slot of a resequencer entry that is not ABSENT (R241): PRESENT, LOST, or HELD with its frame. -/
inductive RSlot where
  | present | lost
  | held (buf : Nat)
deriving DecidableEq, Repr, Inhabited

/-- A resequencer entry (R241): its pair, NEXP, the slots by sequence number, whether its learning interval runs, and the port its
frames leave by (none: the switch consumes them). -/
structure RsEntry where
  src : Fnid
  dst : Fnid
  nexp : Nat
  slots : List (Nat × RSlot) := []
  learning : Bool := true
deriving DecidableEq, Repr, Inhabited

/-- A reserved partition (R260, R262): its die, its reserved buffers and the buffers charged to it of each pool, and whether its Brew
has been unloaded. -/
structure Part where
  die : Nat := 0
  res : List Nat := []
  use : List Nat := []
  leaving : Bool := false
deriving DecidableEq, Repr, Inhabited

/-- A frame that waits to cross to another core die (R253): its buffer, the far die, and its egress ports there, several for a multicast. -/
structure Cross where
  buf : Nat
  die : Nat
  ports : List Nat
deriving DecidableEq, Repr, Inhabited

/-- What the switch is in its plane, its ports, stored frames and forwarding state. -/
structure Net where
  fnid : Fnid := 0x8000
  tier : Tier := .single
  ports : SMap Port := []
  bufs : SMap (Option Buf) := []
  nextBuf : Nat := 0
  /-- Stored frames that wait to be handled by the switch, oldest first. -/
  inbox : List Nat := []
  /-- Stored frames that name no descriptor and wait for an FRECV (R97, R110), oldest first. -/
  unmatched : List Nat := []
  /-- Buffers held by requester slot r, pool by pool. -/
  slots : SMap (List Nat) := []
  parts : SMap (Option Part) := []
  /-- Buffers of die d, pool by pool, that frames hold which no slot and no partition stands behind. -/
  loose : SMap (List Nat) := []
  /-- Cells in the store of the link from die a to b on VC v, at (4a + b) * 16 + v. -/
  cross : SMap Nat := []
  xwait : List Cross := []
  formed : List Formed := []
  /-- Cells in use of the 64 that each die keeps for RELEASE frames (R252). -/
  relCells : SMap Nat := []
  /-- The nine resequencer groups, each least recently used first. -/
  reseq : SMap (List RsEntry) := []
  /-- Next sequence number toward a destination (R240). -/
  seqNext : SMap Nat := []
  /-- Largest DEPTH and HOLDLY of queue 32p + q sampled since the last telemetry record (R270). -/
  qmax : SMap (Nat × Nat) := []
  /-- The tick at which the DRAINING bank began to drain (R238). -/
  drainAt : Nat := 0
deriving DecidableEq, Repr, Inhabited

/-- What a command makes the device put on its pins, links and management port. -/
inductive Out where
  | word (p : Nat) (w : Word)
  | frame (p : Nat) (f : Frame)
  | udp (fromAddr toAddr : BitVec 128) (toPort : Nat) (bytes : List Byte)
  | icmp (fromAddr toAddr : BitVec 128) (bytes : List Byte)
  | mctp (bytes : List Byte)
  | jtag (bits : List Bool)
deriving DecidableEq, Repr, Inhabited

-- ---------------------------------------------------------------------------------------------
-- Collective and sampling instances (chapters "Collective operations in the fabric", "The Strainer and token sampling")

/-- A contribution frame held in CPART (R114): its stored frame, and how many of its blocks are not reduced yet. -/
structure Piece where
  buf : Nat
  src : Nat
  blks : List Nat
deriving DecidableEq, Repr, Inhabited

/-- An output block that has been formed and not sent (R112): the stream's source member (0 where blocks have none), the block, whether it is
suspect (R128), and its values; none where no partial or result is formed for it. -/
structure OutBlk where
  src : Nat
  blk : Nat
  susp : Bool := false
  val : Option Block
deriving DecidableEq, Repr, Inhabited

/-- A leaf's upward STATUS at the root (R123): the leaf, its code, the members its bitmap marks, its QFNID, LATEM apart. -/
structure LeafEnd where
  leaf : Fnid
  code : Nat
  marks : List Nat
  qfnid : Nat
deriving DecidableEq, Repr, Inhabited

/-- A candidate record (Table 6.5). -/
structure Cand where
  key : Nat
  id : Nat
deriving DecidableEq, Repr, Inhabited

/-- An open collective or sampling instance (R103, R110, R188). -/
structure Inst where
  samp : Bool
  desc : Nat
  slot : Nat
  inst : Nat
  grp : Nat
  step : Word
  /-- FLOATSUM form; run as BEAD under strict mode (R120, R311); its bound is void (R130); some result is suspect (R128); its descriptor was written
  while it ran (R105), or FIXED exponent codes disagree in it (R43, R104), so that its values are free. -/
  fsum : Bool := false
  conv : Bool := false
  void : Bool := false
  susp : Bool := false
  undef : Bool := false
  /-- The exponent code of the first FIXED contribution (R43). -/
  fcode : Option Nat := none
  /-- The seed that stays in force for the instance after a later release (R308). -/
  seed : Option Word := none
  /-- What has been accepted (R110): CKIND, sender, block or candidate group. -/
  seen : List (Nat × Nat × Nat) := []
  held : List Piece := []
  /-- Contribution blocks that wait for their reduction: block, member, values. -/
  data : List (Nat × Nat × Block) := []
  /-- Tiles whose contributions wait: the first block, and the positions of the values (R137). -/
  tiles : List (Nat × List Nat) := []
  /-- The partials of a block that the root has added, which a shadow check copies: block, bytes (R353). -/
  parts : List (Nat × List Byte) := []
  /-- Sums of a block: Beads, or FP32 lanes in FLOATSUM. -/
  sums : SMap (List Bead) := []
  nonf : List Nat := []
  suspBlk : List Nat := []
  /-- Leaf codes at the root: leaf, block, code. -/
  codes : List (Nat × Nat × Nat) := []
  /-- Global codes, plus one. -/
  gcode : SMap Nat := []
  closed : List Nat := []
  bad : List Nat := []
  outs : List OutBlk := []
  /-- Blocks that stream k has sent. -/
  sent : SMap Nat := []
  tal : List Nat := []
  /-- When each sender completed. -/
  times : List (Nat × Nat) := []
  /-- Largest lateness in ns and the member it belongs to. -/
  late : Option (Nat × Fnid) := none
  lastM : Nat := 0
  lastLeaf : Option Nat := none
  lastBit : Nat := 0
  lastTick : Nat := 0
  fold : BitVec 128 := 0
  /-- What its FOLD is formed from and H is not applied to yet: member, offset, bytes (R319). -/
  folds : List (Nat × Nat × List Byte) := []
  ltallied : List Nat := []
  ends : List LeafEnd := []
  cands : List Cand := []
  finals : List (Nat × Nat) := []
  /-- The buffers of CPART that hold the candidates of each member or leaf (R255). -/
  candHeld : List (Nat × List Nat) := []
  hwerr : Bool := false
deriving DecidableEq, Repr, Inhabited

/-- The measurement of a delivery bound (R130, R173): the instance, or the leg of a token; its closing event on the delivery-bound clock and in ticks;
what R275 classes it by; the latest departure so far and its port; whether the delivery event is the next end of its frames. -/
structure Meas where
  inst : Nat
  step : Word
  slot : Nat
  own : Owner := .none
  deadline : Nat
  closing : Nat
  tick : Nat
  void : Bool := false
  link : Bool := false
  dep : Option (Nat × Nat) := none
  armed : Bool := false
deriving DecidableEq, Repr, Inhabited

/-- A run of late instances (R131): the group, the member or leaf measured, the count, the member a report names, and whether a report has been made. -/
structure LateRun where
  grp : Nat
  who : Fnid
  run : Nat
  member : Fnid
deriving DecidableEq, Repr, Inhabited

/-- The collective unit. -/
structure Coll where
  insts : List Inst := []
  /-- Instances that have ended: sampling, descriptor, step. -/
  ended : List (Bool × Nat × Word) := []
  runs : List LateRun := []
  meas : List Meas := []
  /-- Descriptors (sampling, number) that were written while an instance of them ran: every later instance is open too (R105, R189, R346). -/
  tainted : List (Bool × Nat) := []
deriving DecidableEq, Repr, Inhabited

-- ---------------------------------------------------------------------------------------------
-- Expert layers (chapter "Expert routing, dispatch and combine")

/-- A staged copy (R159): its expert, its destination and its port, and its stored frames. -/
structure Staged where
  expert : Nat
  dst : Fnid
  port : Nat
  bufs : List Nat
deriving DecidableEq, Repr, Inhabited

/-- A token of a layer step: its owner and index; its activation blocks and the buffer that holds them (R156); whether it is routed, and its experts
by rank with their gates (R148, R149); whether it is committed, and where each expert's copy went, none for the local replica (R155); staged copies; expert
outputs by expert and block, and the buffers that hold them; combined blocks with their suspicion; whether its COMBINED frames have been formed; whether an
ECC error struck it (R169); and when the last bits of its ACT and EXPOUT frames arrived (R173). -/
structure Tok where
  owner : Fnid
  no : Nat
  act : List (Nat × Block) := []
  actBuf : Option Nat := none
  routed : Bool := false
  sel : List (Nat × Nat) := []
  committed : Bool := false
  paths : List (Nat × Option Fnid) := []
  staged : List Staged := []
  outs : List (Nat × Nat × Block) := []
  outHeld : List (Nat × List Nat) := []
  comb : List (Nat × Bool × Block) := []
  sent : Bool := false
  bad : Bool := false
  actBit : Nat := 0
  actTick : Nat := 0
  outBit : Nat := 0
  outTick : Nat := 0
  /-- Credits of its ACT frames that are withheld while a predecessor is missing (R155). -/
  owes : List Owe := []
deriving DecidableEq, Repr, Inhabited

/-- A combine map entry in use (R165), and whether its core was quarantined meanwhile (R172). -/
structure Busy where
  entry : Nat
  owner : Fnid
  no : Nat
  blk : Nat
  susp : Bool := false
deriving DecidableEq, Repr, Inhabited

/-- What the load record holds of an expert (Table 5.11). -/
structure ExpLoad where
  routed : Nat := 0
  disp : Nat := 0
  ovLocal : Nat := 0
  ovHome : Nat := 0
deriving DecidableEq, Repr, Inhabited

/-- An open layer step (R143 to R175): its descriptor, Brew slot, LAYER and step; its tokens; the owners' TEND counts and the owners that have had an
LSTATUS; the load of each expert; tokens sent for an expert to a destination; the destinations that got EXPIN or DCOUNT; whether the DCOUNTs are out; flags;
speculation counts; the numeric record; combine map entries in use and blocks that wait for one; owners with a suspect block. -/
structure Layer where
  desc : Nat
  slot : Nat
  layer : Nat
  step : Word
  toks : List Tok := []
  tends : List (Fnid × Nat) := []
  told : List Fnid := []
  load : SMap ExpLoad := []
  sentTo : List (Nat × Fnid × Nat) := []
  dests : List Fnid := []
  dcounts : Bool := false
  void : Bool := false
  hwerr : Bool := false
  undef : Bool := false
  hit : Nat := 0
  miss : Nat := 0
  squash : Nat := 0
  nostage : Nat := 0
  tal : List Nat := []
  busy : List Busy := []
  ready : List (Fnid × Nat × Nat) := []
  suspOwners : List Fnid := []
  /-- When the last COMBINED frame of an owner left: on the delivery-bound clock, and in ticks (R173). -/
  combOut : List (Fnid × Nat × Nat) := []
  /-- The spans of switch offsets where its router weights and biases lie: a write to them leaves its results open (R145). -/
  weights : List (Nat × Nat) := []
deriving DecidableEq, Repr, Inhabited

/-- A token's top-ranked expert kept for the prediction of a later layer (R159): the layer descriptor, step, owner, token and expert. -/
structure Kept where
  desc : Nat
  step : Word
  owner : Fnid
  no : Nat
  expert : Nat
deriving DecidableEq, Repr, Inhabited

/-- The expert unit: open layer steps; layer steps that have ended (descriptor, step); kept choices; owners of a layer step with a breached leg. -/
structure Exp where
  layers : List Layer := []
  ended : List (Nat × Word) := []
  kept : List Kept := []
  breached : List (Nat × Word × Fnid) := []
  /-- Layer descriptors that were written while a step of them ran (R145, R346). -/
  tainted : List Nat := []
deriving DecidableEq, Repr, Inhabited

/-- The delivery-bound clock (R127): the tick a HOLD began, the ticks of all HOLDs that ended, the tick the last one ended, and the least VDD_CORE seen in
the present one. -/
structure HoldSt where
  start : Nat := 0
  sum : Nat := 0
  last : Nat := 0
  minMv : Nat := 0
deriving DecidableEq, Repr, Inhabited

-- ---------------------------------------------------------------------------------------------

/-- An admitted Brew (R271 to R274, R380, R381). -/
structure Brew where
  /-- Offset of its commit record in HBM, and the record's length (R381). -/
  recOff : Nat := 0
  recLen : Nat := 0
  fnid : Fnid := 0
  cores : List Nat := []
  beadFirst : Nat := 0
  beadLast : Nat := 0
  /-- FIRST and COUNT of the claimed entries of each table of Table 14.12. -/
  ranges : List (Nat × Nat) := []
  authep : List Fnid := []
  regions : List Nat := []
  weights : List (Nat × Nat) := []
  firstStep : Word := 0
  barHome : Fnid := 0
  barObj : Nat := 0
  nseed : Nat := 0
  /-- Strict mode was set at admission (R313). -/
  strict : Bool := false
  /-- The next release begins the step that the counter holds (R306, log entry 30). -/
  armed : Bool := true
  /-- Seeds written between steps, with the values that stay in force until the next release (R308). -/
  seedOld : SMap (Option Word) := []
deriving DecidableEq, Repr, Inhabited

-- ---------------------------------------------------------------------------------------------
-- Counting board, replay log, commits (chapters "Fabric-attached memory" and "Loading a Brew")

/-- A Counting board object (Table 10.13); NWAIT is the number of recorded WAITs. -/
structure Obj where
  count : Nat := 0
  target : Nat := 0
  word2 : Nat := 0
  gen : Nat := 0
  arrives : Nat := 0
  lastSrc : Fnid := 0
deriving DecidableEq, Repr, Inhabited

/-- A recorded WAIT (R299): its object, what its reply echoes, and the slot of the port it came by, which its reply is charged to (R258). -/
structure Waiter where
  obj : Nat
  src : Fnid
  h1 : Word
  tc : Nat
  tag : Nat
  seq : Nat
  slot : Option Nat := none
deriving DecidableEq, Repr, Inhabited

/-- An entry of the replay log (R294): its key, the request's OP code, OFFSET and operand, and the reply (status word and data) while it is LIVE; none
makes it the mark of a SPENT entry. -/
structure LogEnt where
  src : Fnid
  tag : BitVec 12
  op : Nat
  off : Nat
  operand : List Byte
  reply : Option (Nat × List Byte)
deriving DecidableEq, Repr, Inhabited

/-- A store that an ACK still has to name (R282), and the cell of the store that its ACK takes over (R258). -/
structure DoneRec where
  src : Fnid
  dst : Fnid
  seq : Nat
  status : Nat
  die : Nat := 0
  charge : Charge := .none
deriving DecidableEq, Repr, Inhabited

/-- A running commit (R382): the record's offset and the committer, the ports in keepalive whose exit it waits for (R390), and the record that steps 1
and 2 read, with the PWD of step 3. -/
structure CommitRun where
  off : Nat
  fnid : Fnid
  ports : List Nat := []
  rcd : List Byte := []
  pwd : BitVec 128 := 0
deriving DecidableEq, Repr, Inhabited

/-- A running unload (R383): the slot, who issued it by ARRIVE, and whether it has stopped the Brew's work. -/
structure UnloadRun where
  slot : Nat
  who : Option Fnid
  begun : Bool := false
deriving DecidableEq, Repr, Inhabited

/-- The Counting board, the replay log, stores to acknowledge, RELEASE frames to form (with the destination of a completion release), the counts that
system objects report (R330), the commit and unload that run, and REWIND writes that wait for an unload. -/
structure Board where
  objs : SMap Obj := []
  waits : List Waiter := []
  log : List LogEnt := []
  pendRel : List (Nat × Option Fnid) := []
  dones : List DoneRec := []
  epochGen : Nat := 0
  authGen : Nat := 0
  rewGen : SMap Nat := []
  commit : Option CommitRun := none
  unload : Option UnloadRun := none
  rewWait : SMap (List Word) := []
  /-- The Brew slot of the recheck that runs (R322). -/
  recheck : Nat := 0
  /-- Destination and SEQ of the requests whose answer would come late: they timed out, or their core gave them up (R290). -/
  late : List (Fnid × Nat) := []
deriving DecidableEq, Repr, Inhabited

/-- Kettle time: ticks of 1/256 ns since the last Kettle reset, the tick of the last device reset, and the
PTIME (ms) that ktick 0 stands for (R359). -/
structure Clock where
  ktick : Nat := 0
  rtick : Nat := 0
  ptBase : Nat := 0
deriving DecidableEq, Repr, Inhabited

/-- The fuses of the device: the hash of the image key, how many security-version fuses are blown, and the identifiers of the core and I/O
dies (R370, R371, Table 13.2). -/
structure Fuses where
  keyHash : List Byte := []
  svn : Nat := 0
  dieId : List Word := []
deriving DecidableEq, Repr, Inhabited

/-- Where the device stands (R342, R372 to R374, R391, R399, R414): without VDD_KETTLE; before time 0; held in reset until its rails have been in
range; at time 0 with THERMTRIP_N latched; its boot ROM reads and verifies; an image is chosen and the dies start; READY has been given; only
the Kettle domain runs; failed stop. -/
inductive Phase where
  | off | inReset | brownout | hot | booting | verified | up | kettleOnly | failstop
deriving DecidableEq, Repr, Inhabited

/-- A change of power state in progress (R391). -/
inductive PwrMove where
  | none | toIdle | fromIdle
deriving DecidableEq, Repr, Inhabited

/-- The lifetime figures of a die (R349, LIFE records): the ID they belong to, ticks powered and not gated, the largest temperature, the least
VDD_CORE in mV, uncorrectable errors, and temperature samples in each band. -/
structure Life where
  id : Word := 0
  ticks : Nat := 0
  tlife : BitVec 16 := 0x8000
  minMv : Nat := 65535
  ue : Nat := 0
  bands : List Nat := []
deriving DecidableEq, Repr, Inhabited

/-- The instructions of the test access port (R412). -/
inductive JtagIr where
  | bypass | idcode | samplePreload | extest | extestPulse | extestTrain
deriving DecidableEq, Repr, Inhabited

/-- What the Kettle domain holds beside its registers; it runs on through device resets (R373). -/
structure Kettle where
  phase : Phase := .inReset
  /-- SYS_PWROK and SYS_RST_N. -/
  pwrok : Bool := false
  rstn : Bool := false
  straps : Straps := {}
  /-- READY's tick, and whether FABRIC_UP has been asserted since the boot (R375). -/
  readyAt : Nat := 0
  fabOnce : Bool := false
  /-- The image that verification chose, and the one that was loaded last. -/
  chosen : Option ImageContent := none
  image : Option ImageContent := none
  /-- Neither slot verified (R372). -/
  noImage : Bool := false
  /-- The count of blown fuses that the controller blows fuses up to (R371). -/
  blow : Nat := 0
  /-- THERMTRIP_N is latched (R414). -/
  trip : Bool := false
  move : PwrMove := .none
  flash : SMap Byte := []
  bnonce : Word := 0
  /-- The last SEQ accepted for each operator key. -/
  seqs : SMap (Option Nat) := []
  life : SMap Life := []
  /-- The ID of the die whose figures the latest LIFE record of a position holds: the book keeps it beside the record (R349). -/
  lifeId : SMap Word := []
  /-- When the powered time of the dies was last added up. -/
  lifeMark : Nat := 0
  /-- The book has been read since the Kettle domain started (R362). -/
  restored : Bool := false
  /-- The sector that the writer fills, its next slot, the sector's sequence, and how often each sector has been erased. -/
  sect : Nat := 0
  slot : Nat := 0
  sseq : Nat := 0
  erases : SMap Nat := []
  /-- What NUMERIC and SPEC records of the stream (0 to 12) and of the book (16 to 28) have reported so far, less what clears took away. -/
  numBase : SMap Int := []
  /-- Since the last hourly records: least slack of an island, least eye of a lane; at them: corrected symbols of a lane; since them: correctable errors of bank b of stack k at 65536 k + b. -/
  hourSlack : SMap Nat := []
  hourEye : SMap (Nat × Nat) := []
  hourSym : SMap Nat := []
  hourBank : SMap Nat := []
  /-- Errors that ECC corrected in SRAM block b of core die d since the last hourly records, at 4096 d + b (R350). -/
  hourSram : SMap Nat := []
  /-- The pin with a stack's MARGINMIN. -/
  marginPin : SMap Nat := []
  /-- The last sample of VDD_CORE in mV and A, and the readings of PLDM sensors 1 to 14. -/
  coreMv : Nat := 0
  coreAmps : Nat := 0
  readings : List Int := []
  alert : Bool := false
  alertRead : Bool := false
  /-- Power estimates of the averaging window, newest first. -/
  watts : List Nat := []
  /-- A core die has reached the throttle temperature and none has since been seen below it less the hysteresis (R393). -/
  throttled : Bool := false
  /-- The next DSEQ, and the datagrams dropped since one was sent. -/
  dseq : Nat := 0
  lost : Nat := 0
  /-- The next QSEQ of lane quizzes. -/
  qseq : Nat := 0
  /-- Stacks whose quiz runs. -/
  stackQuiz : List Nat := []
  /-- The ticks at which a PREWAKE entry is to wake its island: DELAY after each release (R387). -/
  preDue : SMap (List Nat) := []
  /-- HOLD of a PREWAKE entry whose island is being woken, in ticks (R387). -/
  preHold : SMap Nat := []
  /-- Until when a PREWAKE entry keeps an island awake (R387). -/
  awakeTil : SMap Nat := []
  /-- The boundary-scan preload, and the instruction of the test access port in force (R412). -/
  preload : List Bool := []
  jtagIr : JtagIr := .idcode
deriving DecidableEq, Repr, Inhabited

/-- The state of the block. -/
structure State where
  /-- The commands that wait, first in first out. -/
  pending : List Instr := []
  clock : Clock := {}
  fuses : Fuses := {}
  /-- The model's own: the number of the next free value (log entry 3). -/
  free : Nat := 0
  /-- Control-space registers by control offset (Table 16.6). -/
  regs : SMap Word := []
  cores : SMap Core := []
  /-- The eight Brew slots (R271). -/
  brews : SMap (Option Brew) := []
  hbm : SMap Byte := []
  /-- HBM stacks out of service (R279, R339, R374). -/
  hbmOut : List Nat := []
  book : Book := {}
  tele : Tele := {}
  shadow : Shadow := {}
  net : Net := {}
  coll : Coll := {}
  exp : Exp := {}
  board : Board := {}
  /-- The Brew-authorised FNIDs of the SECURITY section (R369). -/
  brewAuth : List Fnid := []
  /-- HBM words of 32 bytes (by offset divided by 32) with an uncorrectable ECC error (R279). -/
  hbmUe : SMap Bool := []
  hold : HoldSt := {}
  kettle : Kettle := {}
  /-- Islands that are being woken, and whether by a cold start (R386). -/
  waking : List (Nat × Bool) := []
  /-- What the latest command put on the pins, links and management port. -/
  out : List Out := []
deriving DecidableEq, Repr, Inhabited

/-- Reasons a step stops with a fault. No command of this block does: every behaviour the manual gives is a
next state. -/
inductive Fault where
  /-- Raised by nothing in the model; kept so that the type is inhabited. Safe: no step answers it. -/
  | unreachable
deriving DecidableEq, Repr

/-- Reasons a step is refused. -/
inductive Refusal where
  /-- Raised by Dispatch.exec for a row that has no meaning yet. Safe: nothing is claimed of that row. -/
  | notModelled (mnemonic : String)
deriving DecidableEq, Repr

/-- The machine right after reset: the Kettle domain has just started (R373, cause POWERON) and waits for time 0 of Table 14.5; its boot nonce is the
first free value; its fuses are what Config gives; everything else is at the value the field tables give. -/
def State.reset : State :=
  { free := 1
    fuses := ⟨Config.fuseKeyHash, Config.fuseSvn.val, (List.range 12).map Config.dieId⟩
    kettle := { bnonce := Config.freeWord 0 } }

end Sys2Proof.Machine
end

