-- ==== Sys2Proof/Machine/Ops.lean ====
section
/-!
DEFINITION. The named operations over the state: tables in canonical form, bytes and bit fields, registers and Tallies,
cores, the clock, free values, and how a command's effect becomes the answer of a step.
-/
namespace Sys2Proof.Machine

open Sys2Proof

-- Tables -----------------------------------------------------------------------------------------

/-- What key k of the table reads as; d where the table does not list it. -/
def SMap.lk {α : Type} (m : SMap α) (d : α) (k : Nat) : α :=
  match m with
  | [] => d
  | (k', v) :: t => if k' = k then v else SMap.lk t d k

/-- Write v at key k and keep the canonical form: writing the default removes the entry. -/
def SMap.put {α : Type} [DecidableEq α] (m : SMap α) (d : α) (k : Nat) (v : α) : SMap α :=
  match m with
  | [] => if v = d then [] else [(k, v)]
  | (k', v') :: t =>
    if k < k' then (if v = d then (k', v') :: t else (k, v) :: (k', v') :: t)
    else if k = k' then (if v = d then t else (k, v) :: t)
    else (k', v') :: SMap.put t d k v

/-- The canonical form: keys strictly rising from lo on, no entry equal to the default. -/
def SMap.wfFrom {α : Type} [DecidableEq α] (d : α) (lo : Nat) : SMap α → Bool
  | [] => true
  | (k, v) :: t => decide (lo ≤ k) && decide (v ≠ d) && SMap.wfFrom d (k + 1) t

/-- The table is in canonical form. -/
def SMap.wf {α : Type} [DecidableEq α] (d : α) (m : SMap α) : Bool := SMap.wfFrom d 0 m

/-- Memory.wf: a byte memory whose unlisted addresses read as d is in canonical form. -/
abbrev Memory.wf (d : Byte) (m : SMap Byte) : Bool := SMap.wf d m

-- Bytes and bits -----------------------------------------------------------------------------------

/-- Bits lo to lo + width - 1 of x. -/
def bitsOf (x lo width : Nat) : Nat := (x >>> lo) % 2 ^ width

/-- Bits lo to lo + width - 1 of a word (R3). -/
def wbits (w : Word) (lo width : Nat) : Nat := bitsOf w.toNat lo width

/-- The word with bits lo to lo + width - 1 replaced by the low bits of v. -/
def wset (w : Word) (lo width v : Nat) : Word :=
  let x := w.toNat
  BitVec.ofNat 64 (x - (bitsOf x lo width) <<< lo + (v % 2 ^ width) <<< lo)

/-- n bytes of v, little-endian (R4). -/
def bytesLE (n v : Nat) : List Byte :=
  match n with
  | 0 => []
  | k + 1 => BitVec.ofNat 8 v :: bytesLE k (v / 256)

/-- The number that bytes spell, little-endian (R4). -/
def natLE : List Byte → Nat
  | [] => 0
  | b :: t => b.toNat + 256 * natLE t

/-- The bytes of words, each little-endian. -/
def wordsToBytes (ws : List Word) : List Byte := (ws.map (fun w => bytesLE 8 w.toNat)).flatten

/-- The i-th little-endian n-byte number in a list of bytes. -/
def leAt (bs : List Byte) (off n : Nat) : Nat := natLE ((bs.drop off).take n)

/-- n copies of x. -/
def rep {α : Type} (n : Nat) (x : α) : List α := List.replicate n x

/-- The bytes padded with zeros, or cut, to exactly n. -/
def fitBytes (bs : List Byte) (n : Nat) : List Byte := bs.take n ++ rep (n - bs.length) 0

/-- x as a signed number of the given width. -/
def sext (x width : Nat) : Int := if x < 2 ^ (width - 1) then (x : Int) else (x : Int) - (2 ^ width : Nat)

/-- The 48-bit entries of a record payload packed into 64-bit words, entry 0 in bytes 0 to 5. -/
def pack48 (es : List Nat) : List Word :=
  let bs := (es.map (bytesLE 6)).flatten
  (List.range 6).map (fun i => BitVec.ofNat 64 (leAt bs (8 * i) 8))

-- Memory -------------------------------------------------------------------------------------------

/-- n bytes from address a. -/
def Mem.rd (m : SMap Byte) (d : Byte) (a n : Nat) : List Byte := (List.range n).map (fun i => m.lk d (a + i))

/-- The little-endian number in n bytes at a. -/
def Mem.rdN (m : SMap Byte) (d : Byte) (a n : Nat) : Nat := natLE (Mem.rd m d a n)

/-- Write bytes from address a on. -/
def Mem.wr (m : SMap Byte) (d : Byte) (a : Nat) : List Byte → SMap Byte
  | [] => m
  | b :: t => Mem.wr (m.put d a b) d (a + 1) t

-- Registers ----------------------------------------------------------------------------------------

/-- The stored value of register r(i). -/
def State.reg (s : State) (r : Reg) (i : Nat) : Word := s.regs.lk (r.rst i) (r.off i)

/-- Store a value in register r(i). -/
def State.setReg (s : State) (r : Reg) (i : Nat) (w : Word) : State :=
  { s with regs := s.regs.put (r.rst i) (r.off i) w }

/-- The value of a field of element i. -/
def State.fld (s : State) (f : Fld) (i : Nat) : Nat := wbits (s.reg f.reg i) f.lo f.w

/-- A one-bit field of element i. -/
def State.bit (s : State) (f : Fld) (i : Nat) : Bool := s.fld f i ≠ 0

/-- Write a field of element i. -/
def State.setFld (s : State) (f : Fld) (i v : Nat) : State := s.setReg f.reg i (wset (s.reg f.reg i) f.lo f.w v)

/-- Seed j of the Brew in slot k as it is in force (R308): what was written between steps waits for the next release. -/
def State.seed (s : State) (k j : Nat) : Word :=
  match (s.brews.lk none k).bind (fun b => b.seedOld.lk none j) with
  | some w => w
  | none => s.reg .SCHED_SEED (256 * k + j)

/-- Add n to a Tally field: it saturates at the largest value of its width and never wraps (R11). -/
def State.bumpN (s : State) (f : Fld) (i n : Nat) : State := s.setFld f i (min (s.fld f i + n) (2 ^ f.w - 1))

/-- Add 1 to a Tally field (R11). -/
def State.bump (s : State) (f : Fld) (i : Nat) : State := s.bumpN f i 1

/-- Raise a field to v where it is smaller (a peak or a maximum). -/
def State.raise (s : State) (f : Fld) (i v : Nat) : State := s.setFld f i (max (s.fld f i) (min v (2 ^ f.w - 1)))

-- Cores --------------------------------------------------------------------------------------------

/-- Rod core c. -/
def State.core (s : State) (c : Nat) : Core := s.cores.lk {} c

/-- Replace Rod core c. -/
def State.setCore (s : State) (c : Nat) (k : Core) : State := { s with cores := s.cores.put {} c k }

/-- Change Rod core c. -/
def State.modCore (s : State) (c : Nat) (f : Core → Core) : State := s.setCore c (f (s.core c))

/-- Engine queue q of a core. -/
def Core.queue (k : Core) (q : Nat) : Queue := k.q.lk {} q

/-- Replace engine queue q. -/
def Core.setQueue (k : Core) (q : Nat) (x : Queue) : Core := { k with q := k.q.put {} q x }

/-- How many commands queue q holds (R79, QCNT and QBUSY). -/
def Core.qlen (k : Core) (q : Nat) : Nat := (k.queue q).wait.length + (k.queue q).fly.length

/-- The encoding of STATE (Table 3.2), quarantine apart. -/
def CoreSt.code : CoreSt → Nat
  | .idle => 0 | .loaded => 1 | .run => 2 | .stepwait => 3 | .halted => 4 | .fault => 5 | .quiz => 7

/-- ROD_STATUS(c).STATE: a running quiz shows as QUIZ, otherwise a quarantined core shows as QUARANTINED (Table 3.2). -/
def Core.stateCode (k : Core) : Nat := if k.st ≠ .quiz ∧ k.quar then 6 else k.st.code

/-- ROD_STATUS(c) (Table 3.12). -/
def Core.statusWord (k : Core) : Word :=
  let busy := (List.range 5).foldl (fun n q => if k.qlen q = 0 then n else n + 2 ^ (11 + q)) 0
  BitVec.ofNat 64 (k.erraddr.toNat <<< 32 + (k.err % 256) <<< 24 + (k.errq % 8) <<< 21 + busy + k.stateCode)

/-- The eight token counters from t on as one word: ROD_TOKENS_LO and ROD_TOKENS_HI (Table 3.16). -/
def Core.tokWord (k : Core) (t : Nat) : Word :=
  BitVec.ofNat 64 ((List.range 8).foldl (fun n i => n + (k.tok.lk 0 (t + i) % 256) <<< (8 * i)) 0)

-- Time ---------------------------------------------------------------------------------------------

/-- Ticks of 1/256 ns in n ns. -/
def ns (n : Nat) : Nat := 256 * n
/-- Ticks of 1/256 ns in n µs. -/
def us (n : Nat) : Nat := 256000 * n
/-- Ticks of 1/256 ns in n ms. -/
def ms (n : Nat) : Nat := 256000000 * n

/-- Now, in ticks since the last Kettle reset. -/
def State.now (s : State) : Nat := s.clock.ktick

/-- PTIME: milliseconds of Kettle-powered time since first power-on (R359). -/
def State.ptime (s : State) : Nat := s.clock.ptBase + s.clock.ktick / ms 1

/-- KTIME: ns since the last Kettle reset (Table 13.19). -/
def State.ktime (s : State) : Nat := s.clock.ktick / 256

/-- The delivery-bound clock: it stands still during a brown-out HOLD (R127). -/
def State.bclk (s : State) : Nat :=
  s.now - s.hold.sum - (if s.bit F.GLOBAL_HOLD_INHOLD 0 then s.now - s.hold.start else 0)

/-- A brown-out HOLD overlaps the interval from a tick to now (R275). -/
def State.holdSince (s : State) (t : Nat) : Bool := s.bit F.GLOBAL_HOLD_INHOLD 0 || decide (t < s.hold.last)

/-- A sleeping island is to wake for work on it: a cold start (R386). -/
def State.wakeIsland (s : State) (n : Nat) : State :=
  if s.bit F.ROD_ISLAND_ASLEEP n && !s.waking.any (fun x => x.1 = n) then { s with waking := s.waking ++ [(n, true)] } else s

/-- The registers where port p, if it has been declared down, is in TRAINING (R325). -/
def trainPort (p : Nat) (m : SMap Word) : SMap Word :=
  let f := F.PORT_HEALTH_LSTATE
  let w := m.lk (f.reg.rst p) (f.reg.off p)
  if wbits w f.lo f.w = 1 then m.put (f.reg.rst p) (f.reg.off p) (wset w f.lo f.w 2) else m

/-- The registers where every port that has been declared down is in TRAINING. -/
def trainPorts (ps : SMap Port) (m : SMap Word) : SMap Word := ps.foldl (fun m (x : Nat × Port) => trainPort x.1 m) m

/-- One fuse more is blown, while fewer are than n (R371). -/
def Fuses.blown (f : Fuses) (n : Nat) : Fuses := if f.svn < n then { f with svn := f.svn + 1 } else f

/-- One tick of 1/256 ns passes: links that were declared down begin to train, and a fuse advance blows its next fuse (log entries 2, 96 and 105). -/
def State.tick (s : State) : State :=
  { s with clock := { s.clock with ktick := s.clock.ktick + 1 }, fuses := s.fuses.blown s.kettle.blow, regs := trainPorts s.net.ports s.regs }

-- Free values --------------------------------------------------------------------------------------

/-- The next free value: a value the manual leaves open (log entry 3). -/
def State.freeVal (s : State) : Word := Config.freeWord s.free

/-- Use up one free value. -/
def State.freed (s : State) : State := { s with free := s.free + 1 }

/-- n bytes of free values. -/
def State.freeBytes (s : State) (n : Nat) : List Byte :=
  (List.range n).map (fun i => (Config.freeWord (s.free + i)).truncate 8)

-- Lists --------------------------------------------------------------------------------------------

/-- The list with its i-th element changed. -/
def modAt {α : Type} (l : List α) (i : Nat) (f : α → α) : List α := l.modify i f

/-- The list with f applied to its first element that satisfies p. -/
def modFirst {α : Type} (p : α → Bool) (f : α → α) : List α → List α
  | [] => []
  | x :: t => if p x then f x :: t else x :: modFirst p f t

/-- The list without its first element that satisfies p. -/
def dropFirst {α : Type} (p : α → Bool) : List α → List α
  | [] => []
  | x :: t => if p x then t else x :: dropFirst p t

/-- Apply a state change for each element in turn. -/
def eachDo {α : Type} (l : List α) (f : α → State → State) (s : State) : State := l.foldl (fun s x => f x s) s

/-- A state change made only where the condition holds. -/
def State.when (s : State) (b : Bool) (f : State → State) : State := if b then f s else s

-- Answers ------------------------------------------------------------------------------------------

/-- t with the queue of commands, the clock and the fuses of s. -/
def State.keep (t s : State) : State := { t with pending := s.pending, clock := s.clock, fuses := s.fuses }

/-- A command's effect as the answer of a step. It changes neither the queue of commands, nor the clock, nor the fuses. -/
def act (f : State → State) (s : State) : Host.Outcome State Fault Refusal := .next ((f { s with out := [] }).keep s)

/-- The effect of an event that occurs only where its condition holds; where it does not, nothing occurs and the state is
unchanged (log entry 1). -/
def actIf (b : Bool) (f : State → State) (s : State) : Host.Outcome State Fault Refusal :=
  if b then act f s else .next s

/-- The effect of a command that may also change the clock and the fuses (the resets and the boot events). -/
def actAll (f : State → State) (s : State) : Host.Outcome State Fault Refusal := .next { f { s with out := [] } with pending := s.pending }

/-- As actIf, for a command that may also change the clock and the fuses. -/
def actAllIf (b : Bool) (f : State → State) (s : State) : Host.Outcome State Fault Refusal :=
  if b then actAll f s else .next s

end Sys2Proof.Machine
end

