-- ==== Sys2Proof/Machine/Share.lean ====
section
/-!
DEFINITION. Unsynchronised sharing of Rod memory (R72, R83): which accesses are ordered by queue order, by tokens and by a PUSH, which conflict, and the
free values that a conflict leaves.
-/
namespace Sys2Proof.Machine

open Sys2Proof

/-- A span of bytes that an access touches: the first byte, how many, and whether it writes. -/
abbrev Span := Nat × Nat × Bool

/-- Who makes an access: a party, or command number i of the fabric engine as 8 + i, since that engine's commands overlap in execution (R79). -/
def fqParty (id : Nat) : Nat := 8 + id

/-- The party that p is, or is a command of (R83). -/
def partyOf (p : Nat) : Nat := if 8 ≤ p then 3 else p

/-- Accesses of one party never conflict (R83): an engine's, or the control core's as one program. -/
def sameParty (p q : Nat) : Bool := p = q || ((p = 5 || p = 6) && (q = 5 || q = 6))

/-- Whose knowledge orders p's accesses: the control core's loads and stores share theirs. -/
def knower (p : Nat) : Nat := if p = 6 then 5 else p

/-- Two counts by party joined: what is ordered by either. -/
def joinOrder (a b : List Nat) : List Nat := (List.range 8).map (fun i => max (a.getD i 0) (b.getD i 0))

/-- What is ordered before p's next access. A command of the fabric engine comes after what that command or an earlier one of its queue was told (R80,
R83). -/
def Share.known (x : Share) (p : Nat) : List Nat :=
  if 8 ≤ p then (x.know.filter (fun (y : Nat × List Nat) => decide (8 ≤ y.1) && decide (y.1 ≤ p))).foldl (fun v y => joinOrder v y.2) []
  else x.know.lk [] (knower p)

/-- An earlier access is ordered before p's next one, or never conflicts with it: the same party's, or one that a chain of tokens or a PUSH tells p of
(R83). -/
def Share.ordered (x : Share) (p : Nat) (t : Touch) : Bool :=
  sameParty (partyOf p) t.who || decide (t.n < (x.known p).getD t.who 0)

/-- The bytes of a span that an access of party p has in conflict with earlier accesses (R83). -/
def Share.clash (x : Share) (p : Nat) (sp : Span) : List Nat :=
  let ts := x.log.filter (fun t => !x.ordered p t && (sp.2.2 || t.wr) && decide (t.a < sp.1 + sp.2.1 ∧ sp.1 < t.a + t.len))
  ((List.range sp.2.1).map (· + sp.1)).filter (fun a => ts.any (fun t => decide (t.a ≤ a ∧ a < t.a + t.len)))

/-- Two ranges of bytes have a byte in common. -/
def spansMeet (a n b m : Nat) : Bool := decide (a < b + m ∧ b < a + n)

/-- Spans that an open layer step reads its router weights and biases from have been written (R145). -/
def Share.spoil (x : Share) (sps : List Span) : Share :=
  { x with spoilt := x.spoilt ++ x.watch.filter (fun w => !x.spoilt.contains w && sps.any (fun sp => sp.2.2 && spansMeet w.1 w.2 sp.1 sp.2.1)) }

/-- p makes an access to spans of bytes. -/
def Share.note (x : Share) (p : Nat) (sps : List Span) : Share :=
  let w := partyOf p
  let n := if 8 ≤ p then p - 8 else x.own.lk 0 w
  if sps.isEmpty then x
  else
    let y : Share := { x with own := x.own.put 0 w (n + 1), log := x.log ++ sps.map (fun sp => ⟨w, n, sp.1, sp.2.1, sp.2.2⟩) }
    y.spoil sps

/-- p signals token t: the count carries what is ordered before p's next access, its own accesses among them, and for a command of the fabric engine those
of that command and of the earlier ones of its queue, which have completed (R79, R80, R83). -/
def Share.signal (x : Share) (p t : Nat) : Share :=
  let mine := (List.range 8).map (fun q => if !sameParty (partyOf p) q then 0 else if 8 ≤ p then p - 7 else x.own.lk 0 q)
  { x with tok := x.tok.put [] t (x.tok.lk [] t ++ [joinOrder (x.known p) mine]) }

/-- Party p learns an order. -/
def Share.learn (x : Share) (p : Nat) (v : List Nat) : Share :=
  { x with know := x.know.put [] (knower p) (joinOrder (x.know.lk [] (knower p)) v) }

/-- Party p takes the oldest of n counts of token t; a count left from before the step carries nothing (DEDUCED, log entry 57). -/
def Share.take (x : Share) (p t n : Nat) : Share :=
  let l := x.tok.lk [] t
  if l.length < n then x
  else { (x.learn p (l.headD [])) with tok := x.tok.put [] t (l.drop 1) }

/-- p's command comes after the control core's first n stores (R72). -/
def Share.pushed (x : Share) (p n : Nat) : Share := x.learn p [0, 0, 0, 0, 0, n]

/-- Who the head command of queue q is once it issues. -/
def Core.headParty (k : Core) (q : Nat) : Nat := if q = 3 then fqParty k.nextId else q

/-- The core with an access of party p to n bytes at a noted. -/
def Core.touch (k : Core) (p a n : Nat) (wr : Bool) : Core := { k with share := k.share.note p [(a, n, wr)] }

/-- Bytes of core c's Rod memory become free values. -/
def freeRod (c : Nat) (as : List Nat) (s : State) : State :=
  if as.isEmpty then s
  else { s.modCore c (fun k => { k with rmem := (List.range as.length).foldl (fun m i =>
      m.put 0 (as.getD i 0) ((Config.freeWord (s.free + i)).truncate 8)) k.rmem }) with free := s.free + as.length }

/-- What party p's work on core c does to spans of its Rod memory. Bytes in conflict with earlier accesses are free values before it reads them and after
it writes them (R83). -/
def sharedDo (c p : Nat) (sps : List Span) (f : State → State) (s : State) : State :=
  let x := (s.core c).share
  let bad := (sps.map (x.clash p)).flatten
  let badWr := ((sps.filter (fun sp => sp.2.2)).map (x.clash p)).flatten
  freeRod c badWr (f (freeRod c bad (s.modCore c (fun k => { k with share := k.share.note p sps }))))

/-- As sharedDo, for work that may have to wait: then nothing has happened. -/
def sharedTry (c p : Nat) (sps : List Span) (f : State → Option State) (s : State) : Option State :=
  let x := (s.core c).share
  let bad := (sps.map (x.clash p)).flatten
  let badWr := ((sps.filter (fun sp => sp.2.2)).map (x.clash p)).flatten
  (f (freeRod c bad (s.modCore c (fun k => { k with share := k.share.note p sps })))).map (freeRod c badWr)

/-- The core without what the order of its accesses was: a step begins with nothing outstanding (R67, DEDUCED, log entry 57). -/
def Core.freshOrder (k : Core) : Core := { k with share := { watch := k.share.watch, spoilt := k.share.spoilt } }

end Sys2Proof.Machine
end

