-- ==== Sys2Proof/Machine/Records.lean ====
section
/-!
DEFINITION. Forming records (Tables 13.16 and 13.17), the Tally book writer's queue (R361), the telemetry stream's share (R364), and the
fault bits of GLOBAL_FAULT (R343).
-/
namespace Sys2Proof.Machine

open Sys2Proof

/-- DIE of a record that concerns the device as a whole (R348). -/
def dieAll : Nat := 0xFF

/-- The event record types of R361: they wait for the budget, and are coalesced above 16 a minute. -/
def isEventType (t : Nat) : Bool := t = 0x02 || (0x08 ≤ t && t ≤ 0x0D) || (0x12 ≤ t && t ≤ 0x15)

/-- The record types that go to the book at the hour (Table 13.17). -/
def isPeriodicType (t : Nat) : Bool := (0x03 ≤ t && t ≤ 0x07) || t = 0x10 || t = 0x11

/-- Drop the newest element that satisfies p. -/
def dropNewest {α : Type} (p : α → Bool) (l : List α) : List α := (dropFirst p l.reverse).reverse

/-- A record enters the writer's queue of 1,024; when the queue is full the newest periodic record is dropped (R361). -/
def bookPut (r : Rec) (s : State) : State :=
  let b := s.book
  if b.queue.length < 1024 then { s with book := { b with queue := b.queue ++ [(s.now, r)] } }
  else if isPeriodicType r.typ then s.bump F.TALLY_BOOK_STAT_DROPPED 0
  else if b.queue.any (fun x => isPeriodicType x.2.typ) then
    ({ s with book := { b with queue := dropNewest (fun (x : Nat × Rec) => isPeriodicType x.2.typ) b.queue ++ [(s.now, r)] } }).bump
      F.TALLY_BOOK_STAT_DROPPED 0
  else s.bump F.TALLY_BOOK_STAT_DROPPED 0

/-- The next record of a type, and the state in which its sequence number is used up. -/
def newRec (typ die : Nat) (pay : List Word) (s : State) : Rec × State :=
  (⟨typ, die, s.ptime, s.book.seq, pay⟩, { s with book := { s.book with seq := s.book.seq + 1 } })

/-- The minutes of R361 that have ended give their COALESCE records. -/
def flushCoal (s : State) : State :=
  let due (c : Coal) : Bool := decide (c.start + ms 60000 ≤ s.now)
  let old := s.book.coal.filter (fun c => due c && decide (0 < c.excess))
  let s := { s with book := { s.book with coal := s.book.coal.filter (fun c => !due c) } }
  eachDo old (fun c s =>
    let (r, s) := newRec 0x16 c.die [BitVec.ofNat 64 ((c.typ % 256) <<< 56 + (c.die % 256) <<< 48 + min c.excess (2 ^ 32 - 1))] s
    bookPut r s) s

/-- An event record for the book: the first 16 of one TYPE and DIE within a minute are written, the excess is counted (R361). -/
def bookEvent (r : Rec) (s : State) : State :=
  let same (c : Coal) : Bool := c.typ = r.typ && c.die = r.die
  match s.book.coal.find? same with
  | none => bookPut r { s with book := { s.book with coal := s.book.coal ++ [⟨r.typ, r.die, s.now, 1, 0⟩] } }
  | some c =>
    let upd (x : Nat) := { s with book := { s.book with
      coal := modFirst same (fun c => { c with n := c.n + 1, excess := c.excess + x }) s.book.coal } }
    if c.n < 16 then bookPut r (upd 0) else upd 1

/-- A record is counted into the COALESCE record of its TYPE and DIE. -/
def bookExcess (r : Rec) (s : State) : State :=
  let same (c : Coal) : Bool := c.typ = r.typ && c.die = r.die
  if s.book.coal.any same then
    { s with book := { s.book with coal := modFirst same (fun c => { c with excess := c.excess + 1 }) s.book.coal } }
  else { s with book := { s.book with coal := s.book.coal ++ [⟨r.typ, r.die, s.now, 0, 1⟩] } }

/-- The device forms an event record: it is streamed and goes to the book (R360, R361). -/
def addRec (typ die : Nat) (pay : List Word) (s : State) : State :=
  let (r, s) := newRec typ die pay (flushCoal s)
  bookEvent r { s with tele := { s.tele with events := s.tele.events ++ [r] } }

/-- A record that is streamed only: the QUIZ record of a quiz that passed (R356). -/
def addStreamRec (typ die : Nat) (pay : List Word) (s : State) : State :=
  let (r, s) := newRec typ die pay s
  { s with tele := { s.tele with events := s.tele.events ++ [r] } }

/-- A periodic record: streamed with its period, and written to the book at the hour (R360, R364). -/
def addPeriodic (toBook : Bool) (typ die : Nat) (pay : List Word) (s : State) : State :=
  let (r, s) := newRec typ die pay s
  let s := { s with tele := { s.tele with periodic := s.tele.periodic ++ [r] } }
  if toBook then bookPut r s else s

/-- A word made of fields: each a value and its lowest bit. -/
def mkWord (fs : List (Nat × Nat)) : Word := BitVec.ofNat 64 (fs.foldl (fun n f => n + f.1 <<< f.2) 0)

/-- The core die of Rod core c (R16). -/
def coreDie (c : Nat) : Nat := c / 64

/-- A FAULT record (Table 13.17): GLOBAL_FAULT after the event, the status, stack and address or SRAM block, and the core. -/
def faultRec (die : Nat) (w2 : Word) (core : Nat) (s : State) : State :=
  addRec 0x09 die [s.reg .GLOBAL_FAULT 0, w2, BitVec.ofNat 64 core] s

/-- R343: a hardware fault sets its bit of GLOBAL_FAULT and writes a FAULT record; FAULT_N shows the unmasked bits. -/
def raiseFault (f : Fld) (die : Nat) (w2 : Word) (core : Nat) (s : State) : State :=
  faultRec die w2 core (s.setFld f 0 1)

/-- FAULT_N is asserted while a bit of GLOBAL_FAULT that is not masked is set (R343). -/
def State.faultN (s : State) : Bool :=
  (s.fld ⟨.GLOBAL_FAULT, 0, 8⟩ 0) &&& (255 - s.fld F.GLOBAL_FAULT_MASK_MASK 0) ≠ 0

/-- The error codes of Table 3.13. -/
inductive RodErr where
  | illegal | ldstRange | badcmd | cmdRange | tokovf | eccUe | stepovr
deriving DecidableEq, Repr

/-- The encoding of ERR (Table 3.13). -/
def RodErr.code : RodErr → Nat
  | .illegal => 1 | .ldstRange => 2 | .badcmd => 3 | .cmdRange => 4 | .tokovf => 5 | .eccUe => 6 | .stepovr => 7

/-- R100: core c enters FAULT with an error, the queue of the faulting command (7 for the control core) and its address; its control
core stops, no queue issues a further command, and a FAULT record is written. A core already in FAULT keeps its first error; what R77 lets it go on
with ends (log entry 135). -/
def coreFault (c : Nat) (e : RodErr) (q : Nat) (addr : BitVec 16) (s : State) : State :=
  let k := s.core c
  if k.st = .fault then s.setCore c { k with drain := false }
  else
    let k := { k with st := .fault, stall := none, err := e.code, errq := q, erraddr := addr, drain := false }
    faultRec (coreDie c) k.statusWord c (s.setCore c k)

/-- The words of a QUIZ record. -/
def quizWords (kind index result : Nat) (expected obtained : Nat) : List Word :=
  [mkWord [(kind, 56), (index % 256, 48), (result, 40)], mkWord [(expected % 2 ^ 32, 32), (obtained % 2 ^ 32, 0)]]

/-- A QUIZ record: a failed or aborted quiz is an event, the others are streamed only. -/
def quizRec (kind index die result : Nat) (expected obtained : Nat) (s : State) : State :=
  if result = 1 || result = 3 then addRec 0x0D die (quizWords kind index result expected obtained) s
  else addStreamRec 0x0D die (quizWords kind index result expected obtained) s

/-- As quizRec, for a quiz whose expected and obtained values the manual leaves open. -/
def quizRecFree (kind index die result : Nat) (s : State) : State :=
  quizRec kind index die result (Config.freeWord s.free).toNat (Config.freeWord (s.free + 1)).toNat { s with free := s.free + 2 }

/-- The I/O die of a port. -/
def portDie (p : Nat) : Nat := 4 + p / 16

/-- Strict mode is set (Table 16.2). -/
def State.strict (s : State) : Bool := s.bit F.GLOBAL_MODE_STRICT 0

/-- Commands in execution on core c can finish: its island is awake and the device has not failed stop (R328); a brown-out hold does not stop them
(Table 12.8). -/
def State.finishing (s : State) (c : Nat) : Bool := !s.bit F.ROD_ISLAND_ASLEEP (c / 4) && decide (s.kettle.phase ≠ .failstop)

/-- Core c fetches and its queues issue: beside that, the device is not in a brown-out hold (Table 12.8). -/
def State.clocked (s : State) (c : Nat) : Bool := !s.bit F.GLOBAL_HOLD_INHOLD 0 && s.finishing c

/-- R80, R81: core c's token t is signalled by p of queue q; a count of 255 stays and puts the core in FAULT with TOKOVF. -/
def signalAs (c t q p : Nat) (addr : BitVec 16) (s : State) : State :=
  let k := s.core c
  if k.tok.lk 0 t = 255 then coreFault c .tokovf q addr s
  else s.setCore c { k with tok := k.tok.put 0 t (k.tok.lk 0 t + 1), share := k.share.signal p t }

/-- R80, R81: core c's token t is signalled from queue q, or by the control core where q is 7. -/
def signalTok (c t : Nat) (q : Nat) (addr : BitVec 16) (s : State) : State := signalAs c t q (if q = 7 then 5 else q) addr s

/-- An engine of the core was busy from tick a to tick b; what lies further back than the 10 µs of R354 is forgotten. -/
def Core.worked (a b now : Nat) (k : Core) : Core :=
  if a < b then { k with work := k.work.filter (fun x => decide (now ≤ x.2 + us 10)) ++ [(a, b)] } else k

/-- The Brew slot of the admitted Brew that names core c. -/
def State.brewOf (s : State) (c : Nat) : Option Nat :=
  (s.brews.find? (fun x => match x.2 with
    | some b => b.cores.contains c
    | none => false)).map Prod.fst

/-- SCHED_STEP(k): the step counter of Brew slot k (Table 11.3). -/
def State.brewStep (s : State) (k : Nat) : Word := s.reg .SCHED_STEP k

/-- R90, R101, R199: the STEP record of core c, with its TOKENS record where a token count is nonzero; VALID of ROD_HAZ_FIRST is
cleared. The stream keeps for each period the first record whose VALID was set, otherwise the last (R364). The book takes a pair only
where VALID was set or a count was nonzero, at most one per core and hour (R361). -/
def stepRecord (c slot : Nat) (s : State) : State :=
  let k := s.core c
  let valid := s.bit F.ROD_HAZ_FIRST_VALID c
  let w1 := mkWord [(wbits k.step 0 32, 32), (c, 24), (slot, 21)]
  let (r, s) := newRec 0x0E (coreDie c)
    [w1, s.reg .ROD_HAZ_FIRST c, s.reg .ROD_HAZ_CNT c, s.reg .ROD_CMD_TALLY c, s.reg .ROD_STR_TALLY c] s
  let toks := k.tokWord 0 ≠ 0 || k.tokWord 8 ≠ 0
  let (t, s) :=
    if toks then
      let (t, s) := newRec 0x0F (coreDie c) [w1, k.tokWord 0, k.tokWord 8] s
      (some t, s)
    else (none, s)
  let old := s.tele.steps.lk none c
  let keepOld := match old with
    | some (v, _, _) => v
    | none => false
  let s := if keepOld then s else { s with tele := { s.tele with steps := s.tele.steps.put none c (some (valid, r, t)) } }
  let s :=
    if valid || toks then
      let last := s.book.pairAt.lk 0 c
      if last ≠ 0 && decide (s.now < last - 1 + ms 3600000) then
        let s := bookExcess r s
        match t with
        | some t => bookExcess t s
        | none => s
      else
        let s := bookPut r { s with book := { s.book with pairAt := s.book.pairAt.put 0 c (s.now + 1) } }
        match t with
        | some t => bookPut t s
        | none => s
    else s
  s.setFld F.ROD_HAZ_FIRST_VALID c 0

end Sys2Proof.Machine
end

