-- ==== Sys2Proof/Machine/Mem.lean ====
section
/-!
DEFINITION. The switch address map (R277, Table 10.1), the windows of a Rod core (R63), the HBM interleave (R279), and reads and writes of HBM
and Rod memory, ECC words, and ownership regions (R291, R292).
-/
namespace Sys2Proof.Machine

open Sys2Proof

/-- What lies at a switch offset (Table 10.1): HBM, a core's Rod memory or instruction memory, a byte of a Counting board object, the control word of
a region, control space, or nothing. -/
inductive Place where
  | hbm (off : Nat)
  | rod (c a : Nat)
  | imem (c a : Nat)
  | board (n o : Nat)
  | region (i o : Nat)
  | control (off : Nat)
  | reserved
deriving DecidableEq, Repr

/-- Bytes of HBM behind the switch: 432 GiB. -/
def hbmSize : Nat := 0x006C00000000

/-- R277: the place of an offset. -/
def placeOf (off : Nat) : Place :=
  if off < hbmSize then .hbm off
  else if 0x00F000000000 ≤ off && off < 0x00F000400000 then .board ((off - 0x00F000000000) / 64) (off % 64)
  else if 0x00F000400000 ≤ off && off < 0x00F000408000 then .region ((off - 0x00F000400000) / 8) (off % 8)
  else if 0x00F800000000 ≤ off && off < 0x00F810000000 then
    let c := (off - 0x00F800000000) / 0x100000
    let a := off % 0x100000
    if a < 0x80000 then .rod c a else if a < 0x90000 then .imem c (a - 0x80000) else .reserved
  else if 0x00FF00000000 ≤ off && off < 0x010000000000 then .control (off - 0x00FF00000000)
  else .reserved

/-- The HBM stack that an offset lies on, and the stack address (R279). -/
def hbmPlace (off : Nat) : Nat × Nat := (off / 4096 % 12, off / 4096 / 12 * 4096 + off % 4096)

/-- The stack of an offset of HBM is out of service. -/
def State.hbmGone (s : State) (off : Nat) : Bool := s.hbmOut.contains (hbmPlace off).1

/-- The 32-byte ECC word of an offset of HBM has an uncorrectable error (R279). -/
def State.hbmBad (s : State) (off : Nat) : Bool := s.hbmUe.lk false (off / 32)

/-- The byte at an offset of HBM, Rod memory or instruction memory; 0 elsewhere. -/
def State.memByte (s : State) (off : Nat) : Byte :=
  match placeOf off with
  | .hbm o => s.hbm.lk 0 o
  | .rod c a => (s.core c).rmem.lk 0 a
  | .imem c a => (s.core c).imem.lk 0 a
  | _ => 0

/-- n bytes from an offset. -/
def State.memRd (s : State) (off n : Nat) : List Byte := (List.range n).map (fun i => s.memByte (off + i))

/-- The ECC words that n bytes at an offset of HBM touch. -/
def eccWords (off n : Nat) : List Nat := (List.range ((off % 32 + n + 31) / 32)).map (· + off / 32)

/-- n bytes at an offset of HBM touch an ECC word with an uncorrectable error. -/
def State.hbmUeIn (s : State) (off n : Nat) : Bool := (eccWords off n).any (fun w => s.hbmUe.lk false w)

/-- Words that a write of n bytes at an offset covers whole are good again (R279). -/
def hbmHeal (off n : Nat) (s : State) : State :=
  eachDo ((eccWords off n).filter (fun w => decide (off ≤ 32 * w) && decide (32 * w + 32 ≤ off + n)))
    (fun w s => { s with hbmUe := s.hbmUe.put false w false }) s

/-- n bytes of HBM at an offset are written: the results of open layer steps that read router weights or biases from them are open from now on, and those of
every later layer step of their descriptors (R145, log entry 45). -/
def spoilHbm (off n : Nat) (s : State) : State :=
  let hit (l : Layer) : Bool := l.weights.any (fun w => spansMeet w.1 w.2 off n)
  { s with exp := { s.exp with
    layers := s.exp.layers.map (fun l => if hit l then { l with undef := true } else l)
    tainted := s.exp.tainted ++ (s.exp.layers.filter hit).map Layer.desc } }

/-- Write bytes that lie within one window of HBM, Rod memory or instruction memory. -/
def memWr (off : Nat) (bs : List Byte) (s : State) : State :=
  match placeOf off with
  | .hbm o => spoilHbm o bs.length (hbmHeal o bs.length { s with hbm := Mem.wr s.hbm 0 o bs })
  | .rod c a => s.modCore c (fun k => { k with rmem := Mem.wr k.rmem 0 a bs })
  | .imem c a => s.modCore c (fun k => { k with imem := Mem.wr k.imem 0 a bs })
  | _ => s

/-- An access to spans of core c's Rod memory through its window, which counts as one more engine in R83 (R63). -/
def windowDo (c : Nat) (sps : List Span) (f : State → State) (s : State) : State := sharedDo c 7 sps f s

/-- Write bytes through a window: Rod memory under R83. -/
def windowWr (off : Nat) (bs : List Byte) (s : State) : State :=
  match placeOf off with
  | .rod c a => windowDo c [(a, bs.length, true)] (memWr off bs) s
  | _ => memWr off bs s

-- Ownership regions (R291, R292) ---------------------------------------------------------------------------------------

/-- A valid region's word of MEMREG_RANGE covers n bytes at an offset (Table 10.9). -/
def regionCovers (w : Word) (off n : Nat) : Bool :=
  w.getLsbD 63 && decide (wbits w 0 48 ≤ off) && decide (off + n ≤ wbits w 0 48 + 2 ^ wbits w 48 6)

/-- The valid region that covers n bytes of HBM at an offset. -/
def State.regionOf (s : State) (off n : Nat) : Option Nat :=
  s.regs.findSome? (fun (x : Nat × Word) =>
    let b := Reg.base .MEMREG_RANGE
    if b ≤ x.1 && x.1 < b + 8 * 4096 && regionCovers x.2 off n then some ((x.1 - b) / 8) else none)

/-- The Brew in slot k may reach n bytes of HBM by memory engine commands (R98, R291). -/
def State.granted (s : State) (k off n : Nat) : Bool :=
  match s.regionOf off n with
  | some i => bitsOf (s.fld F.MEMREG_RANGE_GRANT i) k 1 = 1
  | none => false

/-- A source's access to region i is foreign (R292). -/
def State.foreignTo (s : State) (i : Nat) (src : Fnid) (write : Bool) : Bool :=
  let own := BitVec.ofNat 16 (s.fld F.MEMREG_CTL_OWNER i)
  let mask := BitVec.ofNat 16 (s.fld F.MEMREG_CTL_OMASK i)
  let outside : Bool := (src ^^^ own) &&& mask ≠ 0
  match s.fld F.MEMREG_CTL_MODE i with
  | 1 => write && outside
  | 2 => write
  | 3 => outside
  | _ => false

/-- A foreign access to region i is counted, and latched with its FOREIGN record where none is (R292, Table 13.17). -/
def countForeign (i : Nat) (src : Fnid) (s : State) : State :=
  let s := s.bump F.MEMREG_FSTAT_COUNT i
  if s.bit F.MEMREG_FSTAT_VALID i then s
  else
    let s := (s.setFld F.MEMREG_FSTAT_FIRST i src.toNat).setFld F.MEMREG_FSTAT_VALID i 1
    addRec 0x12 dieAll [mkWord [(i, 48), (src.toNat, 32), (s.fld F.MEMREG_FSTAT_COUNT i, 0)]] s

/-- An access of n bytes at an offset of HBM by a source: whether it is foreign, and the state in which it has been counted. -/
def hbmAccess (src : Fnid) (write : Bool) (off n : Nat) (s : State) : Bool × State :=
  match s.regionOf off n with
  | none => (false, s)
  | some i => if s.foreignTo i src write then (true, countForeign i src s) else (false, s)

end Sys2Proof.Machine
end

