-- ==== Sys2Proof/Machine/Num.lean ====
section
/-!
DEFINITION. Number formats and Bead arithmetic (R33 to R56): the formats, decoding an element, the block exponent, conversion into
a Bead and out of it, MX groups, the FP32 operations, and the numeric Tallies that count each event. Values are exact: an integer
times a power of two.
-/
namespace Sys2Proof.Machine

open Sys2Proof

/-- The format codes of Table 2.1. -/
inductive Fmt where
  | bf16 | fp16 | fp32 | e4m3 | e5m2 | int8 | int32 | mxfp8e4 | mxfp8e5 | mxfp4 | bead
deriving DecidableEq, Repr

/-- The format of a code; none for a reserved code (R33). -/
def Fmt.ofCode (n : Nat) : Option Fmt :=
  match n with
  | 0 => some .bf16 | 1 => some .fp16 | 2 => some .fp32 | 3 => some .e4m3 | 4 => some .e5m2
  | 5 => some .int8 | 6 => some .int32 | 7 => some .mxfp8e4 | 8 => some .mxfp8e5 | 9 => some .mxfp4
  | 10 => some .bead | _ => none

/-- An MX block format (R35). -/
def Fmt.isMx : Fmt → Bool
  | .mxfp8e4 | .mxfp8e5 | .mxfp4 => true
  | _ => false

/-- An integer format. -/
def Fmt.isInt : Fmt → Bool
  | .int8 | .int32 => true
  | _ => false

/-- Bits of one element (Table 2.2; R48 for a Bead on the wire). -/
def Fmt.width : Fmt → Nat
  | .bf16 | .fp16 => 16
  | .fp32 | .int32 => 32
  | .e4m3 | .e5m2 | .int8 | .mxfp8e4 | .mxfp8e5 => 8
  | .mxfp4 => 4
  | .bead => 96

/-- Width of the exponent field (Table 2.2). -/
def Fmt.ebits : Fmt → Nat
  | .bf16 | .fp32 => 8
  | .fp16 | .e5m2 | .mxfp8e5 => 5
  | .e4m3 | .mxfp8e4 => 4
  | .mxfp4 => 2
  | _ => 0

/-- Width of the mantissa field (Table 2.2). -/
def Fmt.mbits : Fmt → Nat
  | .bf16 => 7
  | .fp16 => 10
  | .fp32 => 23
  | .e4m3 | .mxfp8e4 => 3
  | .e5m2 | .mxfp8e5 => 2
  | .mxfp4 => 1
  | _ => 0

/-- The exponent bias (Table 2.2). -/
def Fmt.bias : Fmt → Nat
  | .bf16 | .fp32 => 127
  | .fp16 | .e5m2 | .mxfp8e5 => 15
  | .e4m3 | .mxfp8e4 => 7
  | .mxfp4 => 1
  | _ => 0

/-- The format has infinities (Table 2.2). -/
def Fmt.hasInf : Fmt → Bool
  | .bf16 | .fp16 | .fp32 | .e5m2 | .mxfp8e5 => true
  | _ => false

/-- The encoding of the largest finite value (Table 2.2). -/
def Fmt.maxBits : Fmt → Nat
  | .bf16 => 0x7F7F
  | .fp16 => 0x7BFF
  | .fp32 => 0x7F7FFFFF
  | .e4m3 | .mxfp8e4 => 0x7E
  | .e5m2 | .mxfp8e5 => 0x7B
  | .mxfp4 => 0x7
  | .int8 => 0x7F
  | .int32 => 0x7FFFFFFF
  | .bead => 0

/-- The canonical NaN (Table 2.2). -/
def Fmt.nanBits : Fmt → Nat
  | .bf16 => 0x7FC0
  | .fp16 => 0x7E00
  | .fp32 => 0x7FC00000
  | .e4m3 | .e5m2 => 0x7F
  | _ => 0

/-- The exponent of the largest finite value (R54). -/
def Fmt.emax (f : Fmt) : Int := (f.maxBits >>> f.mbits : Nat) - (f.bias : Int)

/-- The exponent of the smallest normal (Table 2.2, R54). -/
def Fmt.emin (f : Fmt) : Int := 1 - (f.bias : Int)

/-- An exact value m × 2^e. -/
structure Dy where
  m : Int
  e : Int
deriving DecidableEq, Repr

/-- Zero. -/
def Dy.zero : Dy := ⟨0, 0⟩
/-- The value of an integer. -/
def Dy.ofInt (n : Int) : Dy := ⟨n, 0⟩
/-- Product, exact. -/
def Dy.mul (a b : Dy) : Dy := ⟨a.m * b.m, a.e + b.e⟩
/-- Sum, exact. -/
def Dy.add (a b : Dy) : Dy :=
  if a.m = 0 then b else if b.m = 0 then a
  else if a.e ≤ b.e then ⟨a.m + b.m * 2 ^ (b.e - a.e).toNat, a.e⟩
  else ⟨a.m * 2 ^ (a.e - b.e).toNat + b.m, b.e⟩
/-- Times 2^k. -/
def Dy.scale (a : Dy) (k : Int) : Dy := ⟨a.m, a.e + k⟩
/-- Negation. -/
def Dy.neg (a : Dy) : Dy := ⟨-a.m, a.e⟩
/-- floor(log2 |a|) for a nonzero value. -/
def Dy.log2 (a : Dy) : Int := (a.m.natAbs.log2 : Int) + a.e
/-- a < b, as exact values. -/
def Dy.lt (a b : Dy) : Bool := decide ((a.add b.neg).m < 0)
/-- a = b, as exact values. -/
def Dy.eqv (a b : Dy) : Bool := decide ((a.add b.neg).m = 0)
/-- The value is an integer. -/
def Dy.isInt (a : Dy) : Bool := a.m = 0 ∨ 0 ≤ a.e ∨ (a.m.natAbs % 2 ^ (-a.e).toNat = 0)

/-- n / 2^k rounded to nearest, ties to even. -/
def rneNat (n k : Nat) : Nat :=
  if k = 0 then n
  else
    let q := n >>> k
    let r := n % 2 ^ k
    let h := 2 ^ (k - 1)
    if h < r ∨ (r = h ∧ q % 2 = 1) then q + 1 else q

/-- rne(a): the nearest integer, ties to even. -/
def Dy.rne (a : Dy) : Int :=
  let q : Nat := if 0 ≤ a.e then a.m.natAbs * 2 ^ a.e.toNat else rneNat a.m.natAbs (-a.e).toNat
  if a.m < 0 then -(q : Int) else q

/-- The class of a decoded element (R38). -/
inductive Cls where
  | zero
  | fin (v : Dy)
  | nonfin
deriving DecidableEq, Repr

/-- An element decoded, and whether it was a flushed subnormal (FLUSH_IN) (R38). -/
structure Dec where
  cls : Cls
  flush : Bool
deriving DecidableEq, Repr

/-- R38: the class and value of one encoded element; x is the E8M0 scale of its block in an MX format. -/
def decodeElem (f : Fmt) (b x : Nat) : Dec :=
  if f.isInt then
    let v := sext b f.width
    if v = 0 then ⟨.zero, false⟩ else ⟨.fin (Dy.ofInt v), false⟩
  else
    let s := bitsOf b (f.width - 1) 1
    let ef := bitsOf b f.mbits f.ebits
    let mf := bitsOf b 0 f.mbits
    let ones := 2 ^ f.ebits - 1
    if f.isMx ∧ x = 0xFF then ⟨.nonfin, false⟩
    else if f.hasInf ∧ ef = ones then ⟨.nonfin, false⟩
    else if (f = .e4m3 ∨ f = .mxfp8e4) ∧ ef = 15 ∧ mf = 7 then ⟨.nonfin, false⟩
    else if ef = 0 ∧ mf = 0 then ⟨.zero, false⟩
    else if ef = 0 ∧ ¬ f.isMx then ⟨.zero, true⟩
    else
      let v : Dy := if ef = 0 then ⟨mf, 1 - (f.bias : Int) - f.mbits⟩
        else ⟨2 ^ f.mbits + mf, (ef : Int) - f.bias - f.mbits⟩
      let v := if f.isMx then v.scale ((x : Int) - 127) else v
      ⟨.fin (if s = 1 then v.neg else v), false⟩

/-- The value a class stands for; zero for a NONFIN. -/
def Cls.val : Cls → Dy
  | .fin v => v
  | _ => Dy.zero

/-- The exact product of two decoded factors (R50). -/
def Cls.mul : Cls → Cls → Cls
  | .nonfin, _ => .nonfin
  | _, .nonfin => .nonfin
  | .fin a, .fin b => .fin (a.mul b)
  | _, _ => .zero

-- Numeric Tallies -------------------------------------------------------------------------------------

/-- The numeric Tallies of an operation (Table 2.10), in the order of their index. -/
structure Tal where
  satIn : Nat := 0
  satOut : Nat := 0
  flushIn : Nat := 0
  flushOut : Nat := 0
  shed : Nat := 0
  nonfin : Nat := 0
  nonfinBlocks : Nat := 0
  blocks : Nat := 0
deriving DecidableEq, Repr, Inhabited

/-- The sum of two counts of events. -/
def Tal.add (a b : Tal) : Tal :=
  ⟨a.satIn + b.satIn, a.satOut + b.satOut, a.flushIn + b.flushIn, a.flushOut + b.flushOut, a.shed + b.shed,
   a.nonfin + b.nonfin, a.nonfinBlocks + b.nonfinBlocks, a.blocks + b.blocks⟩

/-- The eight counts, index 0 first. -/
def Tal.toList (t : Tal) : List Nat :=
  [t.satIn, t.satOut, t.flushIn, t.flushOut, t.shed, t.nonfin, t.nonfinBlocks, t.blocks]

/-- The counts from a list, index 0 first. -/
def Tal.ofList (l : List Nat) : Tal :=
  ⟨l.getD 0 0, l.getD 1 0, l.getD 2 0, l.getD 3 0, l.getD 4 0, l.getD 5 0, l.getD 6 0, l.getD 7 0⟩

/-- The 32-byte numeric Tally record (Table 2.11): each field saturates at 2^32 - 1 (R58). -/
def Tal.record (t : Tal) : List Byte := (t.toList.map (fun n => bytesLE 4 (min n (2 ^ 32 - 1)))).flatten

/-- The counts of a 32-byte record. -/
def Tal.ofRecord (bs : List Byte) : Tal := Tal.ofList ((List.range 8).map (fun i => leAt bs (4 * i) 4))

/-- The sum of many counts. -/
def Tal.sum (l : List Tal) : Tal := l.foldl Tal.add {}

/-- The events of decoding an element (R38). -/
def Dec.tal (d : Dec) : Tal := { flushIn := if d.flush then 1 else 0, nonfin := if d.cls = .nonfin then 1 else 0 }

-- The block exponent ------------------------------------------------------------------------------------

/-- A contribution's exponent code (R41). -/
def Cls.code : Cls → Nat
  | .zero => 0
  | .nonfin => 0xFF
  | .fin v => (max (-111) (min 142 v.log2) + 112).toNat

/-- The exponent code of a block: the largest of its contributions' codes (R41). -/
def blockCode (l : List Cls) : Nat := l.foldl (fun c x => max c x.code) 0

/-- The block exponent E of a code 0x01 to 0xFE (Table 2.3). -/
def codeE (code : Nat) : Int := (code : Int) - 112

-- Conversion in (R45) ------------------------------------------------------------------------------------

/-- The integer a FINITE contribution enters a block with exponent E as, and its events (R45). -/
def convertIn (v : Dy) (E : Int) : Int × Tal :=
  let t := v.scale (70 - E)
  if 71 ≤ t.log2 then ((if t.m < 0 then -(2 ^ 71 - 1) else 2 ^ 71 - 1), { satIn := 1 })
  else (t.rne, if t.isInt then {} else { shed := 1 })

/-- What a contribution of any class adds to its Bead, and its events: zero for ZERO and NONFIN (R45, R51). -/
def Cls.enter (x : Cls) (E : Int) : Int × Tal :=
  match x with
  | .fin v => convertIn v E
  | _ => (0, {})

/-- A Bead plus an integer, modulo 2^96 (R47). -/
def beadAdd (b : Bead) (n : Int) : Bead := b + BitVec.ofInt 96 n

-- Conversion out (R52 to R55) --------------------------------------------------------------------------------

/-- The encoding of a nonzero magnitude y that is representable in f. -/
def encodeMag (f : Fmt) (neg : Bool) (y : Dy) : Nat :=
  let e := y.log2
  let s := if neg then 2 ^ (f.width - 1) else 0
  if e < f.emin then s + (y.scale ((f.mbits : Int) - f.emin)).rne.toNat
  else s + (e + f.bias).toNat * 2 ^ f.mbits + ((y.scale ((f.mbits : Int) - e)).rne.toNat - 2 ^ f.mbits)

/-- The largest finite value of a floating-point format. -/
def Fmt.largest (f : Fmt) : Dy := (decodeElem f f.maxBits 127).cls.val

/-- A real rounded to a floating-point format at the precision of a normal number, clamped and flushed (R37, R52), with the
events. -/
def roundFloat (f : Fmt) (v : Dy) : Nat × Tal :=
  if v.m = 0 then (0, {})
  else
    let r : Dy := ⟨v.m.natAbs, v.e⟩
    let e := r.log2
    let q := (r.scale ((f.mbits : Int) - e)).rne
    let y : Dy := ⟨q, e - f.mbits⟩
    if f.largest.lt y then (encodeMag f (v.m < 0) f.largest, { satOut := 1 })
    else if y.log2 < f.emin then (0, { flushOut := 1 })
    else (encodeMag f (v.m < 0) y, {})

/-- A real rounded to an integer format, clamped (R53), with the events. -/
def roundInt (f : Fmt) (v : Dy) : Nat × Tal :=
  let y := v.rne
  let hi : Int := f.maxBits
  let lo : Int := -hi - 1
  let z := max lo (min hi y)
  ((z % (2 ^ f.width : Nat)).toNat,
    { satOut := if z = y then 0 else 1, flushOut := if v.m ≠ 0 ∧ y = 0 then 1 else 0 })

/-- A real in a format that is no MX format. -/
def roundTo (f : Fmt) (v : Dy) : Nat × Tal := if f.isInt then roundInt f v else roundFloat f v

/-- The value of a non-finite result in a format that is no MX format: the canonical NaN, or the largest integer (R37, Table 2.5). -/
def nanOut (f : Fmt) : Nat := if f.isInt then f.maxBits else f.nanBits

/-- One MX element of magnitude and sign t (already divided by the block's scale) (R54). -/
def roundMx (f : Fmt) (t : Dy) : Nat × Tal :=
  if t.m = 0 then (0, {})
  else
    let r : Dy := ⟨t.m.natAbs, t.e⟩
    let e := max r.log2 f.emin
    let q := (r.scale ((f.mbits : Int) - e)).rne
    let y : Dy := ⟨q, e - f.mbits⟩
    if f.largest.lt y then (encodeMag f (t.m < 0) f.largest, { satOut := 1 })
    else if y.m = 0 then (0, { flushOut := 1 })
    else (encodeMag f (t.m < 0) y, {})

/-- A block of exact values converted to an MX format: its scale and its elements (R54). -/
def roundMxBlock (f : Fmt) (vs : List Dy) : Nat × List Nat × Tal :=
  let tops := (vs.filter (fun v => v.m ≠ 0)).map Dy.log2
  match tops with
  | [] => (0, vs.map (fun _ => 0), {})
  | t :: ts =>
    let x := max (-127) (min 127 (ts.foldl max t - f.emax))
    let es := vs.map (fun v => roundMx f (v.scale (-x)))
    ((x + 127).toNat, es.map Prod.fst, Tal.sum (es.map Prod.snd))

/-- A converted block: its MX scale (0 in the other formats) and its 32 element encodings. -/
abbrev OutBlock := Block

/-- A NONFINITE block of 32 positions (Table 2.5), with its events. -/
def nonfinBlock (f : Fmt) : OutBlock × Tal :=
  if f.isMx then (⟨0xFF, rep 32 0⟩, { nonfinBlocks := 1, blocks := 1 })
  else (⟨0, rep 32 (nanOut f)⟩, { nonfinBlocks := 1, blocks := 1, satOut := if f.isInt then 32 else 0 })

/-- 32 exact values converted out as one block (R52 to R54), with the events. -/
def valuesOut (f : Fmt) (vs : List Dy) : OutBlock × Tal :=
  if f.isMx then
    let (x, es, t) := roundMxBlock f vs
    (⟨x, es⟩, t.add { blocks := 1 })
  else
    let es := vs.map (roundTo f)
    (⟨0, es.map Prod.fst⟩, (Tal.sum (es.map Prod.snd)).add { blocks := 1 })

/-- A block of Bead sums converted out under its exponent code: NONFINITE (R51), ZERO (Table 2.3), or R52 to R54. -/
def blockOut (f : Fmt) (code : Nat) (sums : List Bead) : OutBlock × Tal :=
  if code = 0xFF then nonfinBlock f
  else if code = 0 then valuesOut f (sums.map (fun _ => Dy.zero))
  else valuesOut f (sums.map (fun b => (⟨b.toInt, codeE code - 70⟩ : Dy)))

-- Tensors in bytes (R36) ------------------------------------------------------------------------------------

/-- Bytes of an MX group: 264 in MXFP8, 136 in MXFP4 (R36). -/
def Fmt.groupBytes (f : Fmt) : Nat := 8 + 32 * f.width

/-- Bytes that n elements take: MX tensors in whole groups of 256 elements (R36). -/
def Fmt.tensorBytes (f : Fmt) (n : Nat) : Nat :=
  if f.isMx then (n + 255) / 256 * f.groupBytes else n * f.width / 8

/-- Element i of a tensor in bytes: its bits and the scale of its block (R36). -/
def rawElem (f : Fmt) (bs : List Byte) (i : Nat) : Nat × Nat :=
  if f.isMx then
    let g := i / 256 * f.groupBytes
    let k := i % 256
    let x := leAt bs (g + k / 32) 1
    if f = .mxfp4 then (bitsOf (leAt bs (g + 8 + k / 2) 1) (4 * (k % 2)) 4, x) else (leAt bs (g + 8 + k) 1, x)
  else (leAt bs (i * (f.width / 8)) (f.width / 8), 0)

/-- Elements i to i + n - 1 of a tensor in bytes, decoded (R38). -/
def decodeElems (f : Fmt) (bs : List Byte) (i n : Nat) : List Dec :=
  (List.range n).map (fun k => let (b, x) := rawElem f bs (i + k); decodeElem f b x)

/-- The bytes of one element of a format of whole bytes. -/
def elBytes (f : Fmt) (els : List Nat) : List Byte := (els.map (bytesLE (f.width / 8))).flatten

/-- Pairs of 4-bit elements in bytes: element 2j in bits [3:0] (R36). -/
def nibbles : List Nat → List Byte
  | a :: b :: t => BitVec.ofNat 8 (a % 16 + 16 * (b % 16)) :: nibbles t
  | [a] => [BitVec.ofNat 8 (a % 16)]
  | [] => []

/-- Eight blocks as one MX group; blocks beyond the given ones are padding: scale 0x00 and zero elements (R36). -/
def mxGroup (f : Fmt) (bl : List OutBlock) : List Byte :=
  let bl := bl ++ rep (8 - bl.length) ⟨0, rep 32 0⟩
  let es := (bl.map Block.els).flatten
  bl.map (fun b => BitVec.ofNat 8 b.scale) ++ (if f = .mxfp4 then nibbles es else elBytes f es)

/-- Lists of n elements each, cut from a list (at most k of them). -/
def chunksOf {α : Type} (n : Nat) : Nat → List α → List (List α)
  | 0, _ => []
  | _, [] => []
  | k + 1, l => l.take n :: chunksOf n k (l.drop n)

/-- Blocks as the bytes of a tensor (R36). -/
def blocksBytes (f : Fmt) (bl : List OutBlock) : List Byte :=
  if f.isMx then ((chunksOf 8 bl.length bl).map (mxGroup f)).flatten
  else (bl.map (fun b => elBytes f b.els)).flatten

/-- A Bead on the wire: 12 bytes, little-endian (R48). -/
def beadWire (b : Bead) : List Byte := bytesLE 12 b.toNat

/-- A Bead in memory: 16 bytes, bits [127:96] copies of bit 95 (R48). -/
def beadMem (b : Bead) : List Byte := bytesLE 16 (b.signExtend 128).toNat

/-- The Bead in 12 or 16 bytes at an offset; bits [127:96] are ignored (R48). -/
def beadAt (bs : List Byte) (off : Nat) : Bead := BitVec.ofNat 96 (leAt bs off 12)

-- FP32 (R37) ------------------------------------------------------------------------------------------------

/-- An FP32 lane decoded (R38). -/
def fp32Dec (b : Nat) : Cls := (decodeElem .fp32 b 0).cls

/-- round_fp32 of an exact value (R92). -/
def fp32Round (v : Dy) : Nat := (roundFloat .fp32 v).1

/-- FP32 addition under R37. -/
def fp32Add (a b : Nat) : Nat :=
  match fp32Dec a, fp32Dec b with
  | .nonfin, _ => Fmt.fp32.nanBits
  | _, .nonfin => Fmt.fp32.nanBits
  | x, y => fp32Round (x.val.add y.val)

/-- FP32 multiplication under R37. -/
def fp32Mul (a b : Nat) : Nat :=
  match (fp32Dec a).mul (fp32Dec b) with
  | .nonfin => Fmt.fp32.nanBits
  | x => fp32Round x.val

/-- FP32 a × b + c with one rounding, under R37. -/
def fp32Fma (a b c : Nat) : Nat :=
  match (fp32Dec a).mul (fp32Dec b), fp32Dec c with
  | .nonfin, _ => Fmt.fp32.nanBits
  | _, .nonfin => Fmt.fp32.nanBits
  | x, y => fp32Round (x.val.add y.val)

/-- An FP32 encoding is a NaN. -/
def fp32IsNan (b : Nat) : Bool := bitsOf b 23 8 = 255 ∧ bitsOf b 0 23 ≠ 0

/-- The order of FP32 encodings as IEEE 754 values, subnormals and infinities included, for the commands that select without
arithmetic (R37): a rank in which -0 and +0 are equal. -/
def fp32Rank (b : Nat) : Int := if bitsOf b 31 1 = 1 then -(bitsOf b 0 31 : Int) else (bitsOf b 0 31 : Int)

/-- FP32 less-than of two encodings; no relation holds with a NaN. -/
def fp32Lt (a b : Nat) : Bool := !fp32IsNan a && !fp32IsNan b && decide (fp32Rank a < fp32Rank b)

/-- A decoded value converted to a format that is no MX format, without Beads (VCVT, VUNPK, VPACK; R37, R89). -/
def convertVal (f : Fmt) (x : Cls) : Nat :=
  match x with
  | .nonfin => nanOut f
  | x => (roundTo f x.val).1

end Sys2Proof.Machine
end

