-- ==== Sys2Proof/Machine/Operands.lean ====
section
/-!
DEFINITION. The operand forms: address registers and how they step (R74, R75), the fields of the 128-bit command word (Table 3.6),
which fields each opcode uses and what values they may hold (R77, Tables 3.7, 3.9 to 3.11 and 6.1).
-/
namespace Sys2Proof.Machine

open Sys2Proof

-- Address registers ------------------------------------------------------------------------------------

/-- One step (R74). -/
def AReg.step (a : AReg) : AReg :=
  if a.count ≠ 0 ∧ a.idx.toNat + 1 = a.count.toNat then
    { a with idx := 0, off := a.off + a.wrap.signExtend 48 }
  else
    { a with idx := if a.count ≠ 0 then a.idx + 1 else a.idx, off := a.off + a.stride.signExtend 48 }

/-- n steps (R75). -/
def AReg.steps (a : AReg) : Nat → AReg
  | 0 => a
  | n + 1 => (a.step).steps n

/-- The current address (BASE + OFF) mod 2^48 (R74). -/
def AReg.addr (a : AReg) : Nat := (a.base + a.off).toNat

/-- ARGET: field FLD, STRIDE and WRAP sign-extended (Table 3.5). -/
def AReg.getFld (a : AReg) (f : Nat) : Word :=
  match f with
  | 0 => a.base.zeroExtend 64
  | 1 => a.off.zeroExtend 64
  | 2 => a.stride.signExtend 64
  | 3 => a.count.zeroExtend 64
  | 4 => a.wrap.signExtend 64
  | _ => a.idx.zeroExtend 64

/-- ARSET: the low bits of w that fit field FLD (Table 3.5). -/
def AReg.setFld (a : AReg) (f : Nat) (w : Word) : AReg :=
  match f with
  | 0 => { a with base := w.truncate 48 }
  | 1 => { a with off := w.truncate 48 }
  | 2 => { a with stride := w.truncate 32 }
  | 3 => { a with count := w.truncate 16 }
  | 4 => { a with wrap := w.truncate 32 }
  | _ => { a with idx := w.truncate 16 }

/-- Address register i of a core. -/
def Core.ar (k : Core) (i : Nat) : AReg := k.a.lk {} i

/-- Replace address register i. -/
def Core.setAr (k : Core) (i : Nat) (x : AReg) : Core := { k with a := k.a.put {} i x }

-- The command word -----------------------------------------------------------------------------------

/-- A field of the command word: the width bits from bit lo on. -/
def cwf (w : CmdWord) (lo width : Nat) : Nat := bitsOf w.toNat lo width

/-- OPC, bits [127:120]. -/
def cwOpc (w : CmdWord) : Nat := cwf w 120 8
/-- WV, bit [119]. -/
def cwWv (w : CmdWord) : Bool := cwf w 119 1 = 1
/-- WTK, bits [118:115]. -/
def cwWtk (w : CmdWord) : Nat := cwf w 115 4
/-- SV, bit [114]. -/
def cwSv (w : CmdWord) : Bool := cwf w 114 1 = 1
/-- STK, bits [113:110]. -/
def cwStk (w : CmdWord) : Nat := cwf w 110 4
/-- HOLD, bit [109]. -/
def cwHold (w : CmdWord) : Bool := cwf w 109 1 = 1
/-- COUNT, bits [108:96]. -/
def cwCount (w : CmdWord) : Nat := cwf w 96 13
/-- IMM, bits [95:64]. -/
def cwImm (w : CmdWord) : Nat := cwf w 64 32
/-- FIN, bits [63:60]. -/
def cwFin (w : CmdWord) : Nat := cwf w 60 4
/-- FOUT, bits [59:56]. -/
def cwFout (w : CmdWord) : Nat := cwf w 56 4
/-- ECODE, bits [55:48]. -/
def cwEcode (w : CmdWord) : Nat := cwf w 48 8
/-- MODE, bits [47:46]. -/
def cwMode (w : CmdWord) : Nat := cwf w 46 2
/-- TSET, bits [45:44]. -/
def cwTset (w : CmdWord) : Nat := cwf w 44 2
/-- XARG, bits [43:32]. -/
def cwXarg (w : CmdWord) : Nat := cwf w 32 12
/-- ARX, bits [31:28]. -/
def cwArx (w : CmdWord) : Nat := cwf w 28 4
/-- ARY, bits [27:24]. -/
def cwAry (w : CmdWord) : Nat := cwf w 24 4
/-- ARZ, bits [23:20]. -/
def cwArz (w : CmdWord) : Nat := cwf w 20 4
/-- VD, bits [19:15]. -/
def cwVd (w : CmdWord) : Nat := cwf w 15 5
/-- VS1, bits [14:10]. -/
def cwV1 (w : CmdWord) : Nat := cwf w 10 5
/-- VS2, bits [9:5]. -/
def cwV2 (w : CmdWord) : Nat := cwf w 5 5
/-- VS3, bits [4:0]. -/
def cwV3 (w : CmdWord) : Nat := cwf w 0 5

/-- The format FIN names; BF16 where the code is reserved (a PUSH refuses those). -/
def cwFinF (w : CmdWord) : Fmt := (Fmt.ofCode (cwFin w)).getD .bf16
/-- The format FOUT names. -/
def cwFoutF (w : CmdWord) : Fmt := (Fmt.ofCode (cwFout w)).getD .bf16

/-- Which operand fields an opcode uses and what they may hold (R76, R77): the address registers, the vector registers,
ECODE and TSET as flags; the permitted format codes and modes (none: the field is unused); the largest XARG and IMM. -/
structure OpSpec where
  x : Bool := false
  y : Bool := false
  z : Bool := false
  vd : Bool := false
  v1 : Bool := false
  v2 : Bool := false
  v3 : Bool := false
  ec : Bool := false
  ts : Bool := false
  fin : List Nat := []
  fout : List Nat := []
  modes : List Nat := []
  xmax : Nat := 0
  imax : Nat := 0
deriving DecidableEq, Repr

/-- Every element format, the Bead partial apart (R33: BEAD is valid only between switches). -/
def allFmts : List Nat := [0, 1, 2, 3, 4, 5, 6, 7, 8, 9]
/-- The formats of single elements, MX formats apart. -/
def flatFmts : List Nat := [0, 1, 2, 3, 4, 5, 6]

/-- VQ opcodes (Table 3.7). -/
def vqSpec (o : Nat) : Option OpSpec :=
  let vvv : OpSpec := { vd := true, v1 := true, v2 := true }
  match o with
  | 0x00 => some {}
  | 0x01 => some { x := true, vd := true }
  | 0x02 => some { x := true, v1 := true }
  | 0x03 => some { vd := true, imax := 2 ^ 32 - 1 }
  | 0x04 | 0x05 | 0x06 | 0x07 | 0x08 | 0x09 => some vvv
  | 0x0A | 0x0B => some { vvv with modes := [0, 1] }
  | 0x0C | 0x0D => some { vvv with modes := [0, 1, 2] }
  | 0x0E => some { vvv with modes := [0, 1, 2, 3] }
  | 0x0F | 0x10 | 0x11 | 0x12 => some { vvv with v3 := true }
  | 0x13 => some { vd := true, v1 := true, fin := flatFmts, fout := flatFmts }
  | 0x14 => some { x := true, vd := true, fin := allFmts }
  | 0x15 => some { x := true, v1 := true, fout := allFmts }
  | 0x16 => some vvv
  | 0x17 => some { vd := true, v1 := true }
  | 0x18 => some { vd := true, v1 := true, modes := [0, 1, 2] }
  | 0x20 => some { vvv with x := true, fin := allFmts, modes := [0, 1], imax := 63 }
  | 0x28 => some { x := true, y := true, v1 := true, fin := flatFmts, ec := true, modes := [0, 1], ts := true }
  | 0x21 => some { x := true, y := true, v1 := true, fin := allFmts, ec := true, modes := [0, 1], ts := true }
  | 0x22 => some { x := true, y := true, v1 := true, v2 := true, fin := allFmts, ec := true, modes := [0, 1], ts := true,
                   imax := 63 }
  | 0x23 | 0x25 => some { x := true, y := true }
  | 0x24 => some { x := true, y := true, v1 := true, fout := allFmts, ec := true, modes := [0, 1], ts := true }
  | 0x26 => some { y := true }
  | 0x27 => some { x := true, ts := true }
  | _ => none

/-- TQ opcodes (Table 3.9). -/
def tqSpec (o : Nat) : Option OpSpec :=
  match o with
  | 0x00 => some {}
  | 0x01 => some { x := true, y := true, z := true, fin := [0, 1, 3, 4, 5, 7, 8, 9], fout := [0, 1, 2, 3, 4, 6, 10],
                   ec := true, modes := [0, 1, 2], ts := true, xmax := 1023, imax := 1 }
  | _ => none

/-- SQ opcodes (Table 6.1). -/
def sqSpec (o : Nat) : Option OpSpec :=
  let n16 : Nat := 2 ^ 32 - 1
  match o with
  | 0x00 => some {}
  | 0x01 => some { x := true, y := true, modes := [0, 1, 2], xmax := 4095, imax := 16384 }
  | 0x02 => some { x := true, y := true, z := true, modes := [0, 1, 2], xmax := 4095, imax := n16 }
  | 0x03 => some { x := true, y := true, z := true, modes := [0, 1, 2], xmax := 4095, imax := 65535 }
  | 0x04 => some { x := true, y := true, z := true, imax := 65535 }
  | 0x05 => some { x := true, y := true, imax := 65535 }
  | 0x06 => some { x := true, y := true, z := true, imax := n16 }
  | 0x07 => some { y := true, z := true, xmax := 255, imax := n16 }
  | _ => none

/-- FQ opcodes (Table 3.10). -/
def fqSpec (o : Nat) : Option OpSpec :=
  match o with
  | 0x00 => some {}
  | 0x01 => some { x := true, y := true, imax := 4096 }
  | 0x02 => some { x := true, z := true, xmax := 15, imax := 2 ^ 32 - 1, modes := [0, 1] }
  | 0x03 => some { x := true, y := true }
  | 0x04 => some { x := true, y := true, xmax := 4, imax := 2 ^ 32 - 1 }
  | 0x05 => some { x := true }
  | _ => none

/-- MQ opcodes (Table 3.11). -/
def mqSpec (o : Nat) : Option OpSpec :=
  match o with
  | 0x00 => some {}
  | 0x01 => some { x := true, y := true, xmax := 15, imax := 2 ^ 32 - 1 }
  | 0x02 => some { y := true, xmax := 4095, imax := 2 ^ 32 - 1 }
  | 0x03 => some { x := true, y := true, z := true, xmax := 15, imax := 2 ^ 32 - 1 }
  | _ => none

/-- The opcode table of queue q. -/
def opSpec (q o : Nat) : Option OpSpec :=
  match q with
  | 0 => vqSpec o
  | 1 => tqSpec o
  | 2 => sqSpec o
  | 3 => fqSpec o
  | 4 => mqSpec o
  | _ => none

/-- What R91 requires of TMM beyond the permitted codes. -/
def tmmOk (w : CmdWord) : Bool :=
  let int8 := cwFin w = 5
  let acc := cwImm w % 2 = 1
  let mxOk := !(cwFinF w).isMx || cwXarg w % 8 = 0
  mxOk && match cwMode w with
    | 0 => if int8 then cwFout w = 6 else if acc then cwFout w = 2 else cwFout w ≤ 4
    | 1 => (cwFout w ≤ 4 || cwFout w = 10) && (1 ≤ cwEcode w && cwEcode w ≤ 0xFE)
    | 2 => (cwFout w ≤ 4 || cwFout w = 10) && !acc
    | _ => false

/-- Two bits that name an address space: 0 or 1 (R98). -/
def spaceOk (n : Nat) : Bool := n ≤ 1

/-- What a row of the tables requires of its operands beyond OpSpec (R43, R91, R98, Table 3.11). -/
def opExtra (q : Nat) (w : CmdWord) : Bool :=
  match q, cwOpc w with
  | 0, 0x21 | 0, 0x22 | 0, 0x24 | 0, 0x28 => cwMode w = 0 || (1 ≤ cwEcode w && cwEcode w ≤ 0xFE)
  | 1, 0x01 => tmmOk w
  | 2, 0x02 => cwImm w % 65536 ≤ 16384 && cwImm w / 65536 ≤ 16384
  | 2, 0x03 => cwXarg w % 2048 < 4
  | 4, 0x01 => spaceOk (cwXarg w % 4) && spaceOk (cwXarg w / 4 % 4) && cwImm w % 64 = 0
  | 4, 0x02 => cwXarg w % 4 = 0 && spaceOk (cwXarg w / 4 % 4)
  | 4, 0x03 => spaceOk (cwXarg w % 4) && spaceOk (cwXarg w / 4 % 4)
  | _, _ => true

/-- A field: any value where used, zero where not (R77). WTK and STK count as unused where WV and SV are 0 (DEDUCED, log entry 120). -/
def usedOr0 (b : Bool) (v : Nat) : Bool := b || v = 0

/-- A code field: one of the permitted values where used, zero where not (R77). -/
def inOr0 (l : List Nat) (v : Nat) : Bool := if l.isEmpty then v = 0 else l.contains v

/-- R77: the command passes the checks of a PUSH into queue q. -/
def cmdOk (q : Nat) (w : CmdWord) : Bool :=
  match opSpec q (cwOpc w) with
  | none => false
  | some p =>
    usedOr0 p.x (cwArx w) && usedOr0 p.y (cwAry w) && usedOr0 p.z (cwArz w) && usedOr0 p.vd (cwVd w) &&
    usedOr0 p.v1 (cwV1 w) && usedOr0 p.v2 (cwV2 w) && usedOr0 p.v3 (cwV3 w) && usedOr0 p.ec (cwEcode w) &&
    usedOr0 p.ts (cwTset w) && inOr0 p.fin (cwFin w) && inOr0 p.fout (cwFout w) && inOr0 p.modes (cwMode w) &&
    decide (cwXarg w ≤ p.xmax) && decide (cwImm w ≤ p.imax) && usedOr0 (cwWv w) (cwWtk w) &&
    usedOr0 (cwSv w) (cwStk w) && opExtra q w

/-- R75: the queue entry of a PUSH: the word and a snapshot of each address register the command uses. -/
def snapshot (k : Core) (q : Nat) (w : CmdWord) (pc : BitVec 16) : Cmd :=
  let p := (opSpec q (cwOpc w)).getD {}
  { w := w, x := if p.x then k.ar (cwArx w) else {}, y := if p.y then k.ar (cwAry w) else {},
    z := if p.z then k.ar (cwArz w) else {}, pc := pc, stores := k.share.own.lk 0 5 }

/-- R75: unless HOLD is set, each used address register is stepped COUNT times, once per use. -/
def stepUsed (k : Core) (q : Nat) (w : CmdWord) : Core :=
  let p := (opSpec q (cwOpc w)).getD {}
  if cwHold w then k
  else
    let go (b : Bool) (i : Nat) (k : Core) : Core := if b then k.setAr i ((k.ar i).steps (cwCount w)) else k
    go p.z (cwArz w) (go p.y (cwAry w) (go p.x (cwArx w) k))

/-- The addresses of a command's registers in repeat r (R75). -/
def Cmd.xAddr (c : Cmd) (r : Nat) : Nat := (c.x.steps r).addr
/-- As xAddr, for ARY. -/
def Cmd.yAddr (c : Cmd) (r : Nat) : Nat := (c.y.steps r).addr
/-- As xAddr, for ARZ. -/
def Cmd.zAddr (c : Cmd) (r : Nat) : Nat := (c.z.steps r).addr

end Sys2Proof.Machine
end

