-- ==== Sys2Proof/Machine/Flags.lean ====
section
/-!
DEFINITION. What a command counts and flags: numeric Tallies of operations and of the device (R57 to R59), vector hazards (R90), the
visibility of vector-register writes (R84, R85), the empty and rejected commands of a core, and its stall episodes.
-/
namespace Sys2Proof.Machine

open Sys2Proof

/-- R59: the events of an operation are added to BEAD_TALLY at the moment they occur. -/
def addBeadTally (t : Tal) (s : State) : State :=
  (List.range 8).foldl (fun s k => if t.toList.getD k 0 = 0 then s else s.bumpN F.BEAD_TALLY_COUNT k (t.toList.getD k 0)) s

/-- R89: the events of a core's command are added to its Tally set and to BEAD_TALLY. -/
def addCoreTal (c set : Nat) (t : Tal) (s : State) : State :=
  let s := s.modCore c (fun k => { k with tset := (List.range 8).foldl (fun m i =>
    m.put 0 (8 * set + i) (min (m.lk 0 (8 * set + i) + t.toList.getD i 0) (2 ^ 32 - 1))) k.tset })
  addBeadTally t s

/-- The kinds of hazard (Table 3.18). -/
inductive Hazard where
  | raw | waw | uninit
deriving DecidableEq, Repr

/-- The encoding of KIND (Table 3.18). -/
def Hazard.code : Hazard → Nat
  | .raw => 0 | .waw => 1 | .uninit => 2

/-- R90: a hazard is counted, and the first of the step is latched. -/
def hazard (c : Nat) (h : Hazard) (reg rep : Nat) (pc : BitVec 16) (s : State) : State :=
  let s := s.bump (if h = .waw then F.ROD_HAZ_CNT_WAW else F.ROD_HAZ_CNT_RAW) c
  if s.bit F.ROD_HAZ_FIRST_VALID c then s
  else s.setReg .ROD_HAZ_FIRST c (mkWord [(1, 63), (h.code, 61), (reg, 56), (rep, 43), (wbits (s.core c).step 0 16, 16),
    (pc.toNat, 0)])

/-- One pending write becomes visible; where a later issued write of the register is visible already, that is a WAW hazard (R90). -/
def makeVisible (c : Nat) (p : VPend) (s : State) : State :=
  let k := s.core c
  let late := decide (p.iss + 1 < k.vvis.lk 0 p.reg)
  let s := s.setCore c { k with v := k.v.put [] p.reg p.lanes, vvis := k.vvis.put 0 p.reg (max (k.vvis.lk 0 p.reg) (p.iss + 1)) }
  if late then hazard c .waw p.reg p.rep p.pc s else s

/-- Insert a pending write in order of visibility slot, ties by issue order. -/
def insertPend (p : VPend) : List VPend → List VPend
  | [] => [p]
  | q :: t => if p.vis < q.vis then p :: q :: t else q :: insertPend p t

/-- Every pending write that is due by the given slot becomes visible, in order of visibility slot (R84). -/
def commitVec (c slot : Nat) (s : State) : State :=
  let k := s.core c
  let due := (k.vpend.filter (fun p => p.vis ≤ slot)).foldl (fun l p => insertPend p l) []
  eachDo due (makeVisible c) (s.setCore c { k with vpend := k.vpend.filter (fun p => !decide (p.vis ≤ slot)) })

/-- R85: a drain makes every pending write visible. -/
def drainVec (c : Nat) (s : State) : State :=
  let k := s.core c
  eachDo (k.vpend.foldl (fun l p => insertPend p l) []) (makeVisible c) (s.setCore c { k with vpend := [] })

/-- Lane i of a vector register. -/
def laneOf (l : List Lane) (i : Nat) : Lane := l.getD i 0

/-- A vector register's lanes as the engine reads them: 64 of them. -/
def Core.vreg (k : Core) (r : Nat) : List Lane := (List.range 64).map (laneOf (k.v.lk [] r))

/-- A vector command's read of register r in its repeat's slot: RAW where a write is pending, UNINIT where the step has
not written it (R90); the lanes read are the visible ones (R84). -/
def readHazard (c r rep : Nat) (pc : BitVec 16) (s : State) : State :=
  let k := s.core c
  if k.vpend.any (fun p => p.reg = r) then hazard c .raw r rep pc s
  else if k.vwritten.lk false r then s else hazard c .uninit r rep pc s

/-- A vector command's write of register r with latency lat (R84). -/
def writeVec (c r lat rep : Nat) (pc : BitVec 16) (lanes : List Lane) (s : State) : State :=
  s.modCore c (fun k => { k with vwritten := k.vwritten.put false r true,
                                 vpend := k.vpend ++ [⟨r, k.slot, k.slot + lat, lanes, rep, pc⟩] })

/-- R78: an empty command is counted. -/
def countEmpty (c : Nat) (s : State) : State := s.bump F.ROD_CMD_TALLY_EMPTY c

/-- R73, R97, R311: an instruction or command rejected under strict mode is counted. -/
def countStrictRej (c : Nat) (s : State) : State :=
  (s.bump F.ROD_CMD_TALLY_STRICTREJ c).bump F.GLOBAL_STRICT_TALLY_RODREJ 0

/-- Where a stall episode is noted: 0 to 4 the queues, 5 the control core. -/
def stallIndex : StallSite → Nat
  | .queue q => q.val
  | .control => 5

/-- A stall that ends may be counted again later (R82). -/
def endEpisode (i : Nat) (k : Core) : Core := { k with episodes := k.episodes.filter (fun j => j ≠ i) }

end Sys2Proof.Machine
end

