-- ==== Sys2Proof/Machine/Shadow.lean ====
section
/-!
DEFINITION. Sampling results for shadow checks (R352, R353) and charging cores (R354, R355).
-/
namespace Sys2Proof.Machine

open Sys2Proof

/-- TNOW of a die as a signed number of 1/8 °C (Table 13.4). -/
def State.tnow (s : State) (die : Nat) : Int := sext (s.fld F.KETTLE_TEMP_TNOW die) 16

/-- The temperature level of R354's bins. -/
def tempLevel (t : Int) : Nat := if t < 480 then 0 else if t < 640 then 1 else if t < 760 then 2 else 3

/-- The load level of R354's bins, from a load in %. -/
def loadLevel (p : Nat) : Nat := if p < 25 then 0 else if p < 50 then 1 else if p < 75 then 2 else 3

/-- A span of time in its place among others, earliest first. -/
def insSpan (x : Nat × Nat) : List (Nat × Nat) → List (Nat × Nat)
  | [] => [x]
  | y :: t => if x.1 < y.1 then x :: y :: t else y :: insSpan x t

/-- How many ticks from lo on and before hi lie in some of the spans. -/
def covered (lo hi : Nat) (l : List (Nat × Nat)) : Nat :=
  ((l.foldl (fun l x => insSpan x l) []).foldl (fun (a : Nat × Nat) x =>
    (max a.1 (min x.2 hi), a.2 + (min x.2 hi - max a.1 x.1))) (lo, 0)).2

/-- When engines of core c were or are busy: the commands that have left execution, and those that are in it (R79). -/
def State.busySpans (s : State) (c : Nat) : List (Nat × Nat) :=
  (s.core c).work ++ (List.range 5).flatMap (fun q => ((s.core c).queue q).fly.map (fun f => (f.since, s.now)))

/-- The share in % of the last 10 µs in which any engine of core c's island was busy (R354; DEDUCED, log entry 5). -/
def State.islandLoad (s : State) (c : Nat) : Nat :=
  100 * covered (s.now - us 10) s.now ((List.range 4).flatMap (fun j => s.busySpans (c / 4 * 4 + j))) / us 10

/-- A core's bin at this moment, under a load in % (R354). -/
def State.binOf (s : State) (c : Nat) (load : Nat) : Nat := 4 * tempLevel (s.tnow (coreDie c)) + loadLevel load

/-- The core can compute for a shadow check (R353). -/
def State.canCheck (s : State) (c : Nat) : Bool :=
  let k := s.core c
  !k.quar && k.st ≠ .fault && k.st ≠ .quiz && !s.bit F.ROD_ISLAND_ASLEEP (c / 4)

/-- The cores of the other dies in the order of R353, from the k-th on. -/
def checkOrder (c : Nat) : List Nat := [1, 2, 3].map (fun k => (c + 64 * k) % 256)

/-- Bytes of a die's shadow store in use. -/
def State.shadowUsed (s : State) (die : Nat) : Nat :=
  (s.shadow.checks.filter (fun x => coreDie x.subject = die)).foldl (fun n x => n + x.size) 0

/-- Bytes that a block takes in format f: a byte for the scale in an MX format, and 32 elements. -/
def blockSize (f : Nat) : Nat :=
  match Fmt.ofCode f with
  | some F => (if F.isMx then 1 else 0) + 4 * F.width
  | none => 128

/-- Bytes that copied inputs take in the shadow store (R352, R353). -/
def ShadowIn.size : ShadowIn → Nat
  | .tile _ a b c => a.length + b.length + c.length
  | .reduce fin _ _ ins parts => ins.length * blockSize fin + (parts.map List.length).sum
  | .combine fin _ ins => ins.length * (blockSize fin + 4)
  | .open_ out => out.length

/-- R352: the core die of core c counts one more result of the kinds that are sampled. -/
def shadowCount (c : Nat) (s : State) : State :=
  let d := coreDie c
  { s with shadow := { s.shadow with counts := s.shadow.counts.put 0 d (s.shadow.counts.lk 0 d + 1) } }

/-- R352, R353: a result that core c forms is counted, and sampled where the count is a multiple of 2^RATE; kind is 0 for a reduction, 1
for a combine, 2 for a TMM tile. The store takes a copy of the inputs, which must fit its free space, and of the output (log entry 123). -/
def shadowSample (kind c : Nat) (ref blk step : Word) (ins : ShadowIn) (out : List Byte) (s : State) : State :=
  let d := coreDie c
  let s := shadowCount c s
  let n := s.shadow.counts.lk 0 d
  let rate := s.fld F.KETTLE_SHADOW_CFG_RATE 0
  if rate = 0 || n % 2 ^ rate ≠ 0 || (s.core c).quar || decide (262144 < s.shadowUsed d + ins.size) then s
  else match (checkOrder c).find? s.canCheck with
    | none => s.bump F.KETTLE_SHADOW_STAT_SKIP 0
    | some k =>
      let load := s.islandLoad c
      let x : ShadowChk := { kind := kind, subject := c, checker := k, ref := ref, blk := blk, step := step, ins := ins, out := out,
                             size := ins.size + out.length, binS := s.binOf c load, load := load, start := s.now }
      { s with shadow := { s.shadow with checks := s.shadow.checks ++ [x] } }

end Sys2Proof.Machine
end

