-- ==== Sys2Proof/Machine/Desc.lean ====
section
/-!
DEFINITION. The descriptors of collective and sampling instances and of expert layers (Tables 4.2, 5.1 and 6.4), the admitted Brew whose descriptor an
INST or a LAYER names (R110, R146), and the block map (R107, R108).
-/
namespace Sys2Proof.Machine

open Sys2Proof

-- Descriptors (Tables 4.2 and 6.4) -------------------------------------------------------------------------------------

/-- A collective or sampling descriptor. -/
structure CDesc where
  samp : Bool
  inst : Nat
  op : Nat
  group : Nat
  fin : Nat
  fout : Nat
  ecode : Nat
  fixed : Bool
  redmode : Nat
  audit : Bool
  sparse : Bool
  struct : Bool
  outsparse : Bool
  root : Nat
  mtbase : Nat
  mcount : Nat
  bcount : Nat
  window : Nat
  bmbase : Nat
  mgrp : Nat
  rset : Nat
  rootsw : Nat
  timeout : Nat
  deadline : Nat
  cpart : Nat
  calref : Nat
  seedidx : Nat
  ktop : Nat
  greedy : Bool
  retp : Bool
  topp : Nat
  stream : Nat
  iscale : Nat
  core : Nat
deriving DecidableEq, Repr

/-- A collective descriptor from its eight words (Table 4.2). -/
def collDesc (w : Nat → Nat) : CDesc :=
  let b (i lo : Nat) : Bool := bitsOf (w i) lo 1 = 1
  { samp := false, inst := bitsOf (w 0) 32 32, op := bitsOf (w 0) 28 4, group := bitsOf (w 0) 24 4, fin := bitsOf (w 0) 20 4,
    fout := bitsOf (w 0) 16 4, ecode := bitsOf (w 0) 8 8, fixed := b 0 7, redmode := bitsOf (w 0) 5 2, audit := b 0 4, sparse := b 0 3,
    struct := b 0 2, outsparse := b 0 1, root := bitsOf (w 1) 48 16, mtbase := bitsOf (w 1) 32 16, mcount := bitsOf (w 1) 18 14,
    bcount := bitsOf (w 2) 40 24, window := bitsOf (w 2) 28 12, bmbase := bitsOf (w 2) 0 16, mgrp := bitsOf (w 3) 50 14,
    rset := bitsOf (w 3) 38 12, rootsw := bitsOf (w 3) 16 16, timeout := bitsOf (w 4) 44 20, deadline := bitsOf (w 4) 0 32,
    cpart := bitsOf (w 5) 32 16, calref := bitsOf (w 5) 0 32, seedidx := bitsOf (w 6) 0 8, ktop := 0, greedy := false, retp := false,
    topp := 0, stream := 0, iscale := 0, core := 0 }

/-- A sampling descriptor from its eight words (Table 6.4). -/
def sampDesc (w : Nat → Nat) : CDesc :=
  let b (i lo : Nat) : Bool := bitsOf (w i) lo 1 = 1
  { samp := true, inst := bitsOf (w 0) 32 32, op := 0, group := bitsOf (w 0) 24 4, fin := 0, fout := 0, ecode := 0, fixed := false,
    redmode := 0, audit := false, sparse := false, struct := false, outsparse := false, root := 0xFFFF, mtbase := bitsOf (w 1) 32 16,
    mcount := bitsOf (w 1) 18 14, bcount := 0, window := 0, bmbase := 0, mgrp := bitsOf (w 3) 50 14, rset := bitsOf (w 3) 38 12,
    rootsw := bitsOf (w 3) 16 16, timeout := bitsOf (w 4) 44 20, deadline := bitsOf (w 4) 0 32, cpart := bitsOf (w 5) 32 16,
    calref := bitsOf (w 5) 0 32, seedidx := bitsOf (w 3) 0 8, ktop := bitsOf (w 1) 0 11, greedy := b 0 23, retp := b 0 22,
    topp := bitsOf (w 0) 0 16, stream := bitsOf (w 2) 0 32, iscale := bitsOf (w 2) 32 32, core := bitsOf (w 3) 8 8 }

/-- Descriptor i of the collective table, or of the sampling table (R188). -/
def State.desc (s : State) (samp : Bool) (i : Nat) : CDesc :=
  if samp then sampDesc (fun w => (s.reg .SCHED_SAMPLE (8 * i + w)).toNat) else collDesc (fun w => (s.reg .SCHED_COLL (8 * i + w)).toNat)

/-- The input format. No admitted descriptor holds a reserved code: admission refuses it, and so does R7 afterwards (R33; DESIGN CHOICE, log entry 127). -/
def CDesc.finF (d : CDesc) : Fmt := (Fmt.ofCode d.fin).getD .bf16
/-- The output format; a reserved code as for the input format. -/
def CDesc.foutF (d : CDesc) : Fmt := (Fmt.ofCode d.fout).getD .bf16
/-- A reduction: OP 0 to 2. -/
def CDesc.reduces (d : CDesc) : Bool := !d.samp && decide (d.op ≤ 2)
/-- An operation that passes blocks through (R118). -/
def CDesc.passes (d : CDesc) : Bool := !d.samp && decide (3 ≤ d.op) && decide (d.op ≤ 5)
/-- A BARRIER. -/
def CDesc.barrier (d : CDesc) : Bool := !d.samp && d.op = 6
/-- Blocks of one slice: B / M. -/
def CDesc.slice (d : CDesc) : Nat := d.bcount / d.mcount

/-- The FIRST and COUNT of a Brew's claim in a table of Table 14.12. -/
def Brew.claim (b : Brew) (t : Nat) : Nat × Nat := b.ranges.getD t (0, 0)

/-- Entry i of a table is claimed. -/
def Brew.claims (b : Brew) (t i : Nat) : Bool := decide ((b.claim t).1 ≤ i) && decide (i < (b.claim t).1 + (b.claim t).2)

/-- The admitted Brews with their slots. -/
def State.brewList (s : State) : List (Nat × Brew) := s.brews.filterMap (fun (x : Nat × Option Brew) => x.2.map (fun b => (x.1, b)))

/-- The descriptor of an admitted Brew that INST names: its Brew slot, whether it is a sampling descriptor, its index (R110). -/
def State.findDesc (s : State) (inst : Nat) : Option (Nat × Bool × Nat) :=
  s.brewList.findSome? (fun (x : Nat × Brew) =>
    let find (t : Nat) (samp : Bool) : Option (Nat × Bool × Nat) :=
      (((List.range (x.2.claim t).2).map (· + (x.2.claim t).1)).find? (fun i => (s.desc samp i).inst = inst)).map (fun i => (x.1, samp, i))
    (find 0 false).or (find 2 true))

-- Layer descriptors (Table 5.1) -------------------------------------------------------------------------------------------

/-- A layer descriptor. -/
structure XDesc where
  layer : Nat
  rfmt : Nat
  ofmt : Nat
  cfmt : Nat
  gmode : Bool
  bias : Bool
  spec : Bool
  topk : Nat
  nexp : Nat
  hblk : Nat
  rmbase : Nat
  cmbase : Nat
  cmcount : Nat
  rwbase : Nat
  otbase : Nat
  loadaddr : Nat
  otcount : Nat
  timeout : Nat
  deadline : Nat
  plbase : Nat
  cpart : Nat
  calref : Nat
  affbase : Nat
  prevdesc : Nat
  spart : Nat
  rset : Nat
deriving DecidableEq, Repr

/-- A layer descriptor from its eight words (Table 5.1). -/
def xlayerDesc (w : Nat → Nat) : XDesc :=
  let b (i lo n : Nat) : Nat := bitsOf (w i) lo n
  { layer := b 0 32 32, rfmt := b 0 28 4, ofmt := b 0 24 4, cfmt := b 0 20 4, gmode := b 0 19 1 = 1, bias := b 0 18 1 = 1,
    spec := b 0 17 1 = 1, topk := b 0 12 5, nexp := b 1 54 10, hblk := b 1 44 10, rmbase := b 1 28 16, cmbase := b 1 12 16,
    cmcount := b 1 0 12, rwbase := b 2 16 48, otbase := b 2 0 16, loadaddr := b 3 16 48, otcount := b 3 0 16, timeout := b 4 44 20,
    deadline := b 4 0 32, plbase := b 5 48 16, cpart := b 5 32 16, calref := b 5 0 32, affbase := b 6 48 16, prevdesc := b 6 32 16,
    spart := b 6 16 16, rset := b 6 4 12 }

/-- Layer descriptor i (R144). -/
def State.xdesc (s : State) (i : Nat) : XDesc := xlayerDesc (fun w => (s.reg .SCHED_XLAYER (8 * i + w)).toNat)

/-- The activation format. -/
def XDesc.rF (d : XDesc) : Fmt := (Fmt.ofCode d.rfmt).getD .bf16
/-- The expert output format. -/
def XDesc.oF (d : XDesc) : Fmt := (Fmt.ofCode d.ofmt).getD .bf16
/-- The combined output format. -/
def XDesc.cF (d : XDesc) : Fmt := (Fmt.ofCode d.cfmt).getD .bf16

/-- The layer descriptor of an admitted Brew that LAYER names: its Brew slot and index (R146). -/
def State.findLayer (s : State) (layer : Nat) : Option (Nat × Nat) :=
  s.brewList.findSome? (fun (x : Nat × Brew) =>
    (((List.range (x.2.claim 1).2).map (· + (x.2.claim 1).1)).find? (fun i => (s.xdesc i).layer = layer)).map (fun i => (x.1, i)))

-- The block map (R107, R108) ----------------------------------------------------------------------------------------

/-- Entry j of the member table (Table 4.3). -/
def State.memberEntry (s : State) (j : Nat) : Fnid := (s.reg .SCHED_MEMBER (j / 4)).extractLsb' (16 * (j % 4)) 16

/-- The core of a block map entry (Table 4.4). -/
def State.mapCore (s : State) (e : Nat) : Nat := wbits (s.reg .SCHED_BMAP (e / 2)) (32 * (e % 2) + 8) 8

/-- The entries that a range of a Brew claims. -/
def Brew.entries (b : Brew) (r : Nat) : List Nat := (List.range (b.claim r).2).map (· + (b.claim r).1)

/-- The block map entries that name Bead blocks for the Brew: those of its reductions and combine maps (R107, R108). -/
def State.beadEntries (s : State) (b : Brew) : List Nat :=
  (((b.entries 0).map (fun i =>
    let d := s.desc false i
    if d.reduces then (List.range (2 * d.window)).map (· + d.bmbase) else [])).flatten ++
   ((b.entries 1).map (fun i => (List.range (s.xdesc i).cmcount).map (· + (s.xdesc i).cmbase))).flatten).eraseDups

/-- The Bead block of a map entry (Table 4.4): its core and block. -/
def State.beadBlock (s : State) (e : Nat) : Nat × Nat := (s.mapCore e, wbits (s.reg .SCHED_BMAP (e / 2)) (32 * (e % 2)) 8)

/-- The Bead slots first to first + n - 1 of core c lie apart from the Bead blocks that the Brew's maps name: those are the collective and expert units'
own (R108, R165). -/
def State.beadsApart (s : State) (b : Brew) (c first n : Nat) : Bool :=
  (s.beadEntries b).all (fun e => (s.beadBlock e).1 ≠ c || decide (32 * (s.beadBlock e).2 + 32 ≤ first ∨ first + n ≤ 32 * (s.beadBlock e).2))

end Sys2Proof.Machine
end

