-- ==== Sys2Proof/Machine/Frames.lean ====
section
/-!
DEFINITION. JFP frames as bits (R200 to R210): node identifiers, header fields, the three checks, which VC, length and flags each KIND may
have, and link words.
-/
namespace Sys2Proof

open Sys2Proof.Machine

-- Checks (R210) --------------------------------------------------------------------------------------------

/-- n steps of a function. -/
def iter {α : Type} (n : Nat) (f : α → α) (x : α) : α :=
  match n with
  | 0 => x
  | k + 1 => iter k f (f x)

/-- CRC-32 of bytes: PCRC, DCRC, RCRC. -/
def crc32 (bs : List Byte) : BitVec 32 :=
  bs.foldl (fun (c : BitVec 32) b => iter 8 (fun c => if c.getLsbD 0 then (c >>> 1) ^^^ 0xEDB88320#32 else c >>> 1)
    (c ^^^ b.zeroExtend 32)) 0xFFFFFFFF#32 ^^^ 0xFFFFFFFF#32

/-- CRC-16 of bytes: HCRC and the tie hash. -/
def crc16 (bs : List Byte) : BitVec 16 :=
  bs.foldl (fun (c : BitVec 16) b => iter 8 (fun c => if c.getLsbD 15 then (c <<< 1) ^^^ 0x1021#16 else c <<< 1)
    (c ^^^ ((b.zeroExtend 16 : BitVec 16) <<< 8))) 0xFFFF#16

/-- CRC-8 of bytes: CHK. -/
def crc8 (bs : List Byte) : BitVec 8 :=
  bs.foldl (fun (c : BitVec 8) b => iter 8 (fun c => if c.getLsbD 7 then (c <<< 1) ^^^ 0x07#8 else c <<< 1) (c ^^^ b)) 0#8

-- Link words (R205) ------------------------------------------------------------------------------------------

/-- A link word of type lt for VC v with a count, CHK filled in (Table 7.4). -/
def linkWord (lt v count : Nat) : Word :=
  let w := (lt % 256) <<< 56 + (v % 16) <<< 52 + (count % 2 ^ 32) <<< 8
  BitVec.ofNat 64 (w + (crc8 ((bytesLE 8 w).drop 1)).toNat)

/-- LTYPE. -/
def lwType (w : Word) : Nat := wbits w 56 8
/-- VC of a CREDIT or CSYNC word. -/
def lwVc (w : Word) : Nat := wbits w 52 4
/-- COUNT of a CREDIT or CSYNC word. -/
def lwCount (w : Word) : Nat := wbits w 8 32
/-- CHK is correct. -/
def lwGood (w : Word) : Bool := (crc8 ((bytesLE 8 w.toNat).drop 1)).toNat = wbits w 0 8
/-- The LTYPE is one of Table 7.5. -/
def lwKnown (w : Word) : Bool := lwType w = 0x00 || lwType w = 0x5F || lwType w = 0xC1 || lwType w = 0xC2

-- Node identifiers (R200) ------------------------------------------------------------------------------------

/-- The identifier is an endpoint's. -/
def fnidEndpoint (n : Fnid) : Bool := !n.getLsbD 15
/-- LEAF of an endpoint, INDEX of a switch: bits [14:8]. -/
def fnidLeaf (n : Fnid) : Nat := bitsOf n.toNat 8 7
/-- PORT of an endpoint. -/
def fnidPort (n : Fnid) : Nat := bitsOf n.toNat 2 6
/-- TIER of a switch: spine. -/
def fnidSpine (n : Fnid) : Bool := n.getLsbD 15 && n.getLsbD 7
/-- A leaf switch. -/
def fnidLeafSwitch (n : Fnid) : Bool := n.getLsbD 15 && !n.getLsbD 7
/-- The identifier is valid: no value outside Tables 7.1 and 7.2. -/
def fnidValid (n : Fnid) : Bool :=
  fnidEndpoint n || (bitsOf n.toNat 0 7 = 0 && (!fnidSpine n || decide (fnidLeaf n < 64)))
/-- The multicast destination. -/
def mcastDst : Fnid := 0xFFFF

-- Header fields (R206) -----------------------------------------------------------------------------------------

/-- TC. -/
def Frame.tc (f : Frame) : Nat := wbits f.h0 61 3
/-- LEN. -/
def Frame.len (f : Frame) : Nat := wbits f.h0 48 13
/-- SRC. -/
def Frame.src (f : Frame) : Fnid := f.h0.extractLsb' 32 16
/-- DST. -/
def Frame.dst (f : Frame) : Fnid := f.h0.extractLsb' 16 16
/-- RTE. -/
def Frame.rte (f : Frame) : Nat := wbits f.h0 12 2
/-- STRICT. -/
def Frame.strict (f : Frame) : Bool := f.h0.getLsbD 11
/-- SUSP. -/
def Frame.susp (f : Frame) : Bool := f.h0.getLsbD 10
/-- SPEC. -/
def Frame.spec (f : Frame) : Bool := f.h0.getLsbD 9
/-- ORD. -/
def Frame.ord (f : Frame) : Bool := f.h0.getLsbD 8
/-- VC. -/
def Frame.vc (f : Frame) : Nat := wbits f.h0 4 4
/-- KIND. -/
def Frame.kind (f : Frame) : Nat := wbits f.h0 0 4
/-- OP of the memory form. -/
def Frame.op (f : Frame) : Nat := wbits f.h1 48 16
/-- OFFSET of the memory form. -/
def Frame.offset (f : Frame) : Nat := wbits f.h1 0 48
/-- INDEX of the instance form. -/
def Frame.index (f : Frame) : Nat := wbits f.h1 32 32
/-- INST of the instance form. -/
def Frame.inst (f : Frame) : Nat := wbits f.h1 0 32
/-- MGRP. -/
def Frame.mgrp (f : Frame) : Nat := wbits f.h2 36 14
/-- TAG. -/
def Frame.tag (f : Frame) : BitVec 12 := f.h2.extractLsb' 24 12
/-- SEQ. -/
def Frame.seq (f : Frame) : Nat := wbits f.h2 0 24
/-- HCRC. -/
def Frame.hcrc (f : Frame) : Nat := wbits f.h3 48 16
/-- STEP. -/
def Frame.step (f : Frame) : Nat := wbits f.h3 16 32
/-- MEPOCH. -/
def Frame.mepoch (f : Frame) : Nat := wbits f.h3 0 16
/-- TRUNC. -/
def Frame.trunc (f : Frame) : Bool := f.trailer.getLsbD 33
/-- BAD. -/
def Frame.bad (f : Frame) : Bool := f.trailer.getLsbD 32
/-- PCRC. -/
def Frame.pcrc (f : Frame) : Nat := wbits f.trailer 0 32

/-- c(LEN): the cells a frame occupies (R208). -/
def cellsOf (len : Nat) : Nat := (len + 40 + 255) / 256

/-- BAD or TRUNC is set: no unit applies the contents (R211). -/
def Frame.spoilt (f : Frame) : Bool := f.bad || f.trunc

/-- The words of the link that the frame itself occupies (R204): the header, then LEN payload bytes, the trailer with no gap, and zero bytes up to the
next multiple of 8. A START word stands before them. -/
def Frame.words (f : Frame) : List Word :=
  let bs := fitBytes f.payload f.len ++ bytesLE 8 f.trailer.toNat
  [f.h0, f.h1, f.h2, f.h3] ++ (List.range ((bs.length + 7) / 8)).map (fun i => BitVec.ofNat 64 (leAt bs (8 * i) 8))

/-- The HCRC of a header: over H0 to H3 with the field taken as zero (Table 7.10). -/
def hcrcOf (h0 h1 h2 h3 : Word) : Nat := (crc16 (wordsToBytes [h0, h1, h2, wset h3 48 16 0])).toNat

/-- The header's HCRC is correct. -/
def Frame.hcrcOk (f : Frame) : Bool := hcrcOf f.h0 f.h1 f.h2 f.h3 = f.hcrc

/-- The payload's PCRC is correct. -/
def Frame.pcrcOk (f : Frame) : Bool := (crc32 (f.payload.take f.len)).toNat = f.pcrc

/-- The frame with its HCRC computed again (R209). -/
def Frame.sealHdr (f : Frame) : Frame := { f with h3 := wset f.h3 48 16 (hcrcOf f.h0 f.h1 f.h2 f.h3) }

/-- The frame with RTE stamped (R237). -/
def Frame.stampRte (f : Frame) (e : Nat) : Frame := { f with h0 := wset f.h0 12 2 e }.sealHdr

/-- The frame with SPEC set or cleared (R160). -/
def Frame.setSpec (f : Frame) (b : Bool) : Frame := { f with h0 := wset f.h0 9 1 (if b then 1 else 0) }.sealHdr

/-- The frame with BAD set in its trailer (R211). -/
def Frame.setBad (f : Frame) : Frame := { f with trailer := wset f.trailer 32 1 1 }

/-- The frame completed to its LEN with zero bytes after n payload bytes, PCRC computed again and TRUNC set (R211). -/
def Frame.truncated (f : Frame) (n : Nat) : Frame :=
  let p := fitBytes (f.payload.take n) f.len
  { f with payload := p, trailer := wset (wset f.trailer 0 32 (crc32 p).toNat) 33 1 1 }

/-- Words of a frame's payload: word i, little-endian. -/
def Frame.word (f : Frame) (i : Nat) : Word := BitVec.ofNat 64 (leAt f.payload (8 * i) 8)

-- Kinds (R207) ---------------------------------------------------------------------------------------------------

/-- The KIND may travel on the VC (Table 7.12). -/
def kindVc (k v : Nat) : Bool :=
  match k with
  | 0 => v = 3
  | 1 => v = 1
  | 2 => v = 2
  | 3 => 6 ≤ v
  | 4 => v = 4
  | 5 => v = 5
  | 6 => v = 4
  | 7 => v = 2
  | 8 => v = 0
  | 9 => v = 0
  | _ => false

/-- LEN lies in the range of Table 7.12; a reserved KIND is judged on 4,096 alone (R212 check 3). -/
def kindLen (k n : Nat) : Bool :=
  match k with
  | 3 | 4 => 8 ≤ n && n ≤ 4096
  | 5 | 7 => n ≤ 64
  | 6 => n = 8
  | 8 => n ≤ 1024
  | 9 => n = 0
  | _ => n ≤ 4096

/-- ORD is allowed on DATA and MREQ only (Table 7.12). -/
def kindOrd (k : Nat) : Bool := k = 0 || k = 1

/-- OP of a RELEASE in a SYNC frame (Table 10.2). -/
def opRelease : Nat := 0x38

/-- What a frame that a switch forms says; SRC, MEPOCH, STRICT, RTE, LEN and the checks are filled in when it is formed (R209). -/
structure Hdr where
  kind : Nat
  vc : Nat
  tc : Nat := 0
  dst : Fnid
  h1 : Word := 0
  mgrp : Nat := 0
  tag : Nat := 0
  seq : Nat := 0
  step : Nat := 0
  susp : Bool := false
  ord : Bool := false
  payload : List Byte := []
deriving DecidableEq, Repr

/-- The frame of a header description. -/
def Hdr.frame (h : Hdr) (src : Fnid) (mepoch rte : Nat) (strict : Bool) : Frame :=
  let n (b : Bool) : Nat := if b then 1 else 0
  let h0 := (h.tc % 8) <<< 61 + h.payload.length <<< 48 + src.toNat <<< 32 + h.dst.toNat <<< 16 + (rte % 4) <<< 12 +
    n strict <<< 11 + n h.susp <<< 10 + n h.ord <<< 8 + (h.vc % 16) <<< 4 + h.kind % 16
  let h2 := (h.mgrp % 2 ^ 14) <<< 36 + (h.tag % 2 ^ 12) <<< 24 + h.seq % 2 ^ 24
  let h3 := (h.step % 2 ^ 32) <<< 16 + mepoch % 2 ^ 16
  let f : Frame := ⟨BitVec.ofNat 64 h0, h.h1, BitVec.ofNat 64 h2, BitVec.ofNat 64 h3, h.payload,
    BitVec.ofNat 64 (crc32 h.payload).toNat⟩
  f.sealHdr

/-- H1 in memory form. -/
def h1Mem (op offset : Nat) : Word := BitVec.ofNat 64 ((op % 2 ^ 16) <<< 48 + offset % 2 ^ 48)

/-- H1 in instance form. -/
def h1Inst (index inst : Nat) : Word := BitVec.ofNat 64 ((index % 2 ^ 32) <<< 32 + inst % 2 ^ 32)

-- Collective frames (R109) ---------------------------------------------------------------------------------------

/-- The collective prefix (Table 4.5). -/
structure CPre where
  ck : Nat
  nblk : Nat
  tiles : Bool
  ecode : Nat
  aux : Nat
deriving DecidableEq, Repr

/-- The prefix of a frame. -/
def Frame.pre (f : Frame) : CPre :=
  let w := leAt f.payload 0 8
  { ck := bitsOf w 0 8, nblk := bitsOf w 8 8, tiles := bitsOf w 16 1 = 1, ecode := bitsOf w 24 8, aux := bitsOf w 32 16 }

/-- The bytes of a prefix. -/
def CPre.bytes (p : CPre) : List Byte :=
  bytesLE 8 ((p.aux % 65536) <<< 32 + (p.ecode % 256) <<< 24 + (if p.tiles then 1 else 0) <<< 16 + (p.nblk % 256) <<< 8 + p.ck % 256)

/-- The data after the prefix. -/
def Frame.data (f : Frame) : List Byte := f.payload.drop 8

/-- The group that a COLL frame's VC belongs to (R113). -/
def Frame.grp (f : Frame) : Nat := f.vc - 6

/-- The blocks that a CONTRIB or pass-through frame carries. -/
def Frame.blks (f : Frame) : List Nat := (List.range (f.pre.nblk * (if f.pre.tiles then 8 else 1))).map (· + f.index)

/-- Candidate groups of a sampling frame (Table 6.5): the groups it carries. -/
def Frame.groups (f : Frame) : List Nat := (List.range f.pre.nblk).map (· + f.index)

/-- LAST of a sampling frame. -/
def Frame.last (f : Frame) : Bool := f.pre.aux / 32768 = 1

end Sys2Proof
end

