-- ==== Sys2Proof/Machine/Caddy.lean ====
section
/-!
DEFINITION. Caddy and the credit accounts (R215 to R219, R252 to R263): pools, requester slots, partitions, stored frames with their
reference counts, and the link words that return credit.
-/
namespace Sys2Proof.Machine

open Sys2Proof

-- Ports, link words and accounts ----------------------------------------------------------------------------

/-- Port p. -/
def State.port (s : State) (p : Nat) : Port := s.net.ports.lk {} p

/-- Replace port p. -/
def State.setPort (s : State) (p : Nat) (x : Port) : State := { s with net := { s.net with ports := s.net.ports.put {} p x } }

/-- Change port p. -/
def State.modPort (s : State) (p : Nat) (f : Port → Port) : State := s.setPort p (f (s.port p))

/-- LSTATE of port p (Table 12.2). -/
def State.lstate (s : State) (p : Nat) : Nat := s.fld F.PORT_HEALTH_LSTATE p

/-- Set LSTATE of port p. -/
def State.setLstate (s : State) (p n : Nat) : State := s.setFld F.PORT_HEALTH_LSTATE p n

/-- The ports that the port map defines. -/
def State.portList (s : State) : List Nat := (s.net.ports.filter (fun (x : Nat × Port) => x.2.present)).map Prod.fst

/-- The port's rate in Mb/s (R17). -/
def Port.rate (p : Port) : Nat := if p.wide then 1600000 else 800000

/-- The credit account of VC v. -/
def Port.account (p : Port) (v : Nat) : Acct := p.acct.lk {} v

/-- Replace the credit account of VC v. -/
def Port.setAcct (p : Port) (v : Nat) (a : Acct) : Port := { p with acct := p.acct.put {} v a }

/-- AVAIL(v) (R216). -/
def Acct.avail (a : Acct) : Nat := (a.lastFreed + 2 ^ 32 - a.sent % 2 ^ 32) % 2 ^ 32

/-- The device puts something on its pins or links. -/
def State.emit (s : State) (o : Out) : State := { s with out := s.out ++ [o] }

/-- The link word of a type for VC v, with the count it carries now (R216, R217). -/
def Port.word (p : Port) (lt v : Nat) : Word :=
  linkWord lt v (if lt = 0xC1 then (p.account v).freed else (p.account v).sent)

/-- A CREDIT or CSYNC word leaves at the next link-word position: at once where no frame is in transmission. -/
def sendWord (p lt v : Nat) (s : State) : State :=
  let x := s.port p
  if s.lstate p < 3 then s
  else match x.tx with
    | none => s.emit (.word p (x.word lt v))
    | some _ => if x.words.contains (lt, v) then s else s.setPort p { x with words := x.words ++ [(lt, v)] }

/-- The words that waited for the end of a frame leave (R216). -/
def flushWords (p : Nat) (s : State) : State :=
  let x := s.port p
  let s := s.setPort p { x with words := [] }
  eachDo x.words (fun w s => s.emit (.word p (x.word w.1 w.2))) s

/-- FREED of the ingress port grows and a CREDIT word is due, where the link-up is still that of the frame (R216, R219). -/
def repay (o : Owe) (s : State) : State :=
  let x := s.port o.port
  if x.ups ≠ o.up then s
  else
    let a := x.account o.vc
    sendWord o.port 0xC1 o.vc (s.setPort o.port (x.setAcct o.vc { a with freed := (a.freed + o.cells) % 2 ^ 32 }))

-- Pools (R252, R255) ----------------------------------------------------------------------------------------

/-- Cells per buffer of pool Pk (Table 9.1). -/
def poolCells : Nat → Nat
  | 0 => 1 | 1 => 4 | 2 => 16 | 3 => 64 | 4 => 256 | _ => 4096

/-- The register index of pool Pk of die d (Table 9.2). -/
def poolIdx (d k : Nat) : Nat := if k < 4 then 4 * d + k else 12 + k

/-- The requester slot whose shared allowance goes by number 1,024 + r (R258), or that r is. -/
def slotOf (r : Nat) : Nat := r % 1024

/-- The number that the shared allowance of slot r goes by: further cells of replies, which never use up its FLOOR (R258). -/
def allowance (r : Nat) : Nat := 1024 + r

/-- The core die of requester slot r (Table 9.4). -/
def slotDie (r : Nat) : Nat := if slotOf r < 128 then slotOf r / 32 else (slotOf r - 128) / 64

/-- Buffers of each pool that requester slot r holds, the further cells of replies apart. -/
def State.slotHeld (s : State) (r : Nat) : List Nat := s.net.slots.lk [] r

/-- The k-th entry of a list of counts. -/
def cnt (l : List Nat) (k : Nat) : Nat := l.getD k 0

/-- A list of six counts with the k-th changed. -/
def cntSet (l : List Nat) (k v : Nat) : List Nat :=
  let l := (List.range 6).map (fun i => if i = k then v else cnt l i)
  if l.all (fun x => x = 0) then [] else l

/-- Cells of a list of held buffers. -/
def heldCells (l : List Nat) : Nat := (List.range 6).foldl (fun n k => n + cnt l k * poolCells k) 0

/-- A pool of die d for k below 4, of the device otherwise. -/
def sameDie (k d d' : Nat) : Bool := d = d' || decide (4 ≤ k)

/-- The partitions that are reserved. -/
def State.partList (s : State) : List (Nat × Part) :=
  s.net.parts.filterMap (fun (x : Nat × Option Part) => x.2.map (fun p => (x.1, p)))

/-- Partition i as reserved. -/
def State.part (s : State) (i : Nat) : Option Part := s.net.parts.lk none i

/-- Buffers held of pool Pk of die d: by slots, by partitions, and by frames that neither stands behind. -/
def State.poolHeld (s : State) (d k : Nat) : Nat :=
  let a := s.net.slots.foldl (fun n (x : Nat × List Nat) => if sameDie k d (slotDie x.1) then n + cnt x.2 k else n) 0
  let a := s.net.loose.foldl (fun n (x : Nat × List Nat) => if sameDie k d x.1 then n + cnt x.2 k else n) a
  s.partList.foldl (fun n (x : Nat × Part) => if sameDie k d x.2.die then n + cnt x.2.use k else n) a

/-- FREE of a pool (Table 9.2). -/
def State.poolFree (s : State) (d k : Nat) : Nat := s.fld F.CADDY_POOL_COUNT (poolIdx d k) - s.poolHeld d k

/-- The requester slots of die d. -/
def dieSlots (d : Nat) : List Nat := (List.range 32).map (32 * d + ·) ++ (List.range 64).map (128 + 64 * d + ·)

/-- Buffers of a pool that floors and partitions still reserve (R257). -/
def State.poolReserved (s : State) (d k : Nat) : Nat :=
  let a := if k = 0 then (dieSlots d).foldl (fun n r => n + (s.fld F.CADDY_QUOTA_FLOOR r - cnt (s.slotHeld r) 0)) 0 else 0
  s.partList.foldl (fun n (x : Nat × Part) => if sameDie k d x.2.die then n + (cnt x.2.res k - cnt x.2.use k) else n) a

/-- The shared space of a pool (R257); none of P4 and P5 while a stack is out of service (R341). -/
def State.poolShared (s : State) (d k : Nat) : Nat :=
  if 4 ≤ k && s.hbmOut ≠ [] then 0 else s.poolFree d k - s.poolReserved d k

-- Requester slots (R257 to R259) -----------------------------------------------------------------------------

/-- Cells charged to slot r, the further cells of replies among them (R257, R258). -/
def State.slotCells (s : State) (r : Nat) : Nat := heldCells (s.slotHeld (slotOf r)) + heldCells (s.slotHeld (allowance (slotOf r)))

/-- Change the buffers that slot r, or its shared allowance, holds; USED and PEAK follow. -/
def State.setSlotHeld (s : State) (r : Nat) (l : List Nat) : State :=
  let s := { s with net := { s.net with slots := s.net.slots.put [] r l } }
  (s.setFld F.CADDY_QUSE_USED (slotOf r) (s.slotCells r)).raise F.CADDY_QUSE_PEAK (slotOf r) (s.slotCells r)

/-- The pool from which slot r gets one more cell: within FLOOR from its reservation, above it from the shared space within CEIL, of
the smallest pool that has a buffer (R255, R257). -/
def slotPool (r : Nat) (s : State) : Option Nat :=
  let l := s.slotHeld r
  let d := slotDie r
  if cnt l 0 < s.fld F.CADDY_QUOTA_FLOOR r then some 0
  else (List.range 6).find? (fun k =>
    decide (s.slotCells r + poolCells k ≤ s.fld F.CADDY_QUOTA_CEIL r) && decide (0 < s.poolShared d k))

/-- Charge n cells to slot r; none where they cannot all be granted now. -/
def slotTake (r n : Nat) (s : State) : Option (List Nat × State) :=
  match n with
  | 0 => some ([], s)
  | n + 1 =>
    match slotPool r s with
    | none => none
    | some k =>
      let s := s.setSlotHeld r (cntSet (s.slotHeld r) k (cnt (s.slotHeld r) k + 1))
      match slotTake r n (s.bumpN F.CADDY_QTALLY_FALLBACK r k) with
      | none => none
      | some (l, s) => some (cntSet l k (cnt l k + 1), s)

/-- Charge n cells to the shared allowance of slot r, within CEIL (R258); none where they cannot all be granted now. -/
def slotShared (r n : Nat) (s : State) : Option (List Nat × State) :=
  match n with
  | 0 => some ([], s)
  | n + 1 =>
    let l := s.slotHeld (allowance r)
    match (List.range 6).find? (fun k => decide (s.slotCells r + poolCells k ≤ s.fld F.CADDY_QUOTA_CEIL r) && decide (0 < s.poolShared (slotDie r) k)) with
    | none => none
    | some k =>
      let s := s.setSlotHeld (allowance r) (cntSet l k (cnt l k + 1))
      match slotShared r n (s.bumpN F.CADDY_QTALLY_FALLBACK r k) with
      | none => none
      | some (l, s) => some (cntSet l k (cnt l k + 1), s)

/-- Free buffers that slot r, or its shared allowance, holds. -/
def slotFree (r : Nat) (held : List Nat) (s : State) : State :=
  let l := s.slotHeld r
  s.setSlotHeld r ((List.range 6).foldl (fun l k => cntSet l k (cnt l k - cnt held k)) l)

/-- n cells of the shared space of die d for a frame that no slot and no partition stands behind, each of the smallest pool that has a buffer (R255;
DESIGN CHOICE, log entry 10); none where they cannot all be granted now. -/
def looseTake (d n : Nat) (s : State) : Option (List Nat × State) :=
  match n with
  | 0 => some ([], s)
  | n + 1 =>
    match (List.range 6).find? (fun k => decide (0 < s.poolShared d k)) with
    | none => none
    | some k =>
      let l := s.net.loose.lk [] d
      match looseTake d n { s with net := { s.net with loose := s.net.loose.put [] d (cntSet l k (cnt l k + 1)) } } with
      | none => none
      | some (l, s) => some (cntSet l k (cnt l k + 1), s)

/-- Free such cells. -/
def looseFree (d : Nat) (held : List Nat) (s : State) : State :=
  let l := s.net.loose.lk [] d
  { s with net := { s.net with loose := s.net.loose.put [] d ((List.range 6).foldl (fun l k => cntSet l k (cnt l k - cnt held k)) l) } }

-- Partitions (R260 to R262) ----------------------------------------------------------------------------------

/-- Replace partition i's reservation. -/
def State.setPart (s : State) (i : Nat) (p : Option Part) : State :=
  { s with net := { s.net with parts := s.net.parts.put none i p } }

/-- How many buffers of pool Pk a partition can take of its reservation now: those of it that are not held, as far as the free buffers of the pool go beyond
what FLOORs and other partitions still reserve. Reservations that borrowed buffers occupy are not available yet (R257; DESIGN CHOICE, log entry 136). -/
def State.partOpen (s : State) (p : Part) (k : Nat) : Nat :=
  let own := cnt p.res k - cnt p.use k
  min own (s.poolFree p.die k - (s.poolReserved p.die k - own))

/-- Charge one buffer of at least the asked pool's size to partition i, falling back among its own reservations (R255, R261). -/
def partTake1 (i k : Nat) (s : State) : Option (Nat × State) :=
  match s.part i with
  | none => none
  | some p =>
    match (List.range (6 - k)).find? (fun j => decide (0 < s.partOpen p (k + j)) && (decide (k + j < 4) || s.hbmOut = [])) with
    | none => none
    | some j =>
      let p := { p with use := cntSet p.use (k + j) (cnt p.use (k + j) + 1) }
      some (k + j, ((s.setPart i (some p)).bumpN F.CADDY_PSTAT_FALLBACK i j).raise F.CADDY_PSTAT_PEAK i (heldCells p.use))

/-- Charge n buffers of pool Pk or a larger one to partition i. -/
def partTake (i k n : Nat) (s : State) : Option (List Nat × State) :=
  match n with
  | 0 => some ([], s)
  | n + 1 =>
    match partTake1 i k s with
    | none => none
    | some (j, s) =>
      match partTake i k n s with
      | none => none
      | some (l, s) => some (cntSet l j (cnt l j + 1), s)

/-- Free buffers charged to partition i; a partition of an unloaded Brew that holds none returns its reservation (R262). -/
def partFree (i : Nat) (held : List Nat) (s : State) : State :=
  match s.part i with
  | none => s
  | some p =>
    let p := { p with use := (List.range 6).foldl (fun l k => cntSet l k (cnt l k - cnt held k)) p.use }
    if p.leaving && p.use = [] then s.setPart i none else s.setPart i (some p)

/-- The cells that partition i can take from RES0 now (R257, R261). -/
def partRoom (i : Nat) (s : State) : Nat :=
  match s.part i with
  | none => 0
  | some p => s.partOpen p 0

/-- Charge n cells of RES0 to partition i. -/
def partTake0 (i n : Nat) (s : State) : State :=
  match s.part i with
  | none => s
  | some p =>
    let p := { p with use := cntSet p.use 0 (cnt p.use 0 + n) }
    (s.setPart i (some p)).raise F.CADDY_PSTAT_PEAK i (heldCells p.use)

/-- The smallest pool whose buffers hold n bytes (R255). -/
def poolFor (n : Nat) : Nat := ((List.range 6).find? (fun k => decide (n ≤ 256 * poolCells k))).getD 5

-- Charges and stored frames ----------------------------------------------------------------------------------

/-- The cells in the store of the link from die a to die b on VC v. -/
def crossKey (a b v : Nat) : Nat := (4 * a + b) * 16 + v

/-- R253: the credit limit of a die-to-die link. -/
def crossLimit (v : Nat) : Nat := if v = 0 then 8 else 272

/-- A charge ends (R258). -/
def uncharge (c : Charge) (s : State) : State :=
  match c with
  | .none => s
  | .slot r held => slotFree r held s
  | .part i held => partFree i held s
  | .pool d held => looseFree d held s
  | .cross a b v n =>
    { s with net := { s.net with cross := s.net.cross.put 0 (crossKey a b v) (s.net.cross.lk 0 (crossKey a b v) - n) } }
  | .release d => { s with net := { s.net with relCells := s.net.relCells.put 0 d (s.net.relCells.lk 0 d - 1) } }
  | .both a b => uncharge b (uncharge a s)

/-- Stored frame i. -/
def State.buf (s : State) (i : Nat) : Option Buf := s.net.bufs.lk none i

/-- Replace stored frame i. -/
def State.setBuf (s : State) (i : Nat) (b : Option Buf) : State :=
  { s with net := { s.net with bufs := s.net.bufs.put none i b } }

/-- Store a frame; its number. -/
def store (b : Buf) (s : State) : Nat × State :=
  let i := s.net.nextBuf
  (i, ({ s with net := { s.net with nextBuf := i + 1 } }).setBuf i (some b))

/-- The frame's charge ends and its ingress credit returns, while the frame itself stays stored under a new charge (R258, R261). -/
def recharge (i : Nat) (c : Charge) (s : State) : State :=
  match s.buf i with
  | none => s
  | some b =>
    let s := (uncharge b.charge s).setBuf i (some { b with charge := c, owe := none })
    match b.owe with
    | none => s
    | some o => repay o s

/-- Drop n references of stored frame i; at zero its storage is freed once and its credit returns (R263, R216). A decrement of a count
that is already zero frees nothing and is raised as a hardware fault. -/
def unrefOne (i n : Nat) (s : State) : State :=
  match s.buf i with
  | none => if n = 0 then s else raiseFault F.GLOBAL_FAULT_RCERR dieAll 0 0xFF (s.bump F.CADDY_EVT_RCERR 0)
  | some b =>
    if n < b.refs then s.setBuf i (some { b with refs := b.refs - n })
    else (recharge i .none s).setBuf i none

/-- As unrefOne; a frame that is freed drops its reference of the activation it refers to (R156). -/
def unref (i n : Nat) (s : State) : State :=
  match s.buf i with
  | none => unrefOne i n s
  | some b =>
    let s := unrefOne i n s
    match b.act with
    | some j => if n < b.refs then s else unrefOne j 1 s
    | none => s

/-- A frame is discarded: its storage is freed and its credit returns. -/
def discard (i : Nat) (s : State) : State := unref i 1 s

/-- The new buffer of a copy, charged as the copied one is: to the same partition or slot, or, where neither stands behind it, to its die's shared space
(R263, log entry 10); none where it cannot be granted now. -/
def copyCharge (b : Buf) (s : State) : Option (Charge × State) :=
  let smallest (held : List Nat) : Nat := ((List.range 6).find? (fun k => cnt held k ≠ 0)).getD 0
  match b.charge with
  | .part i held => (partTake i (smallest held) (max 1 (cnt held (smallest held))) s).map (fun x => (.part i x.1, x.2))
  | .slot r held => (slotTake r (max 1 (cnt held (smallest held))) s).map (fun x => (.slot r x.1, x.2))
  | _ => (looseTake b.die (cellsOf b.frame.len) s).map (fun x => (.pool b.die x.1, x.2))

/-- Take one more reference of stored frame i; the holder's buffer is answered. A holder that needs a 256th reference takes a new buffer and copies the
content into it; later references go to the copy (R263); none where the new buffer cannot be granted now, so that what needs it waits (R256). n bounds
the chain of copies. -/
def addRefN (n i : Nat) (s : State) : Option (Nat × State) :=
  match s.buf i with
  | none => some (i, s)
  | some b =>
    if b.refs < 255 then some (i, s.setBuf i (some { b with refs := b.refs + 1 }))
    else
      match n, b.copy.filter (fun j => (s.buf j).isSome) with
      | n + 1, some j => addRefN n j s
      | _, _ =>
        match copyCharge b (s.bump F.CADDY_EVT_RCSPLIT 0) with
        | none => none
        | some (c, s) =>
          let (j, s) := store { b with refs := 1, charge := c, owe := none, copy := none } s
          some (j, s.setBuf i (some { b with copy := some j }))

/-- Take one more reference of stored frame i (R263). -/
def addRef (i : Nat) (s : State) : Option (Nat × State) := addRefN s.net.bufs.length i s

/-- A stored frame waits to be handled by the switch. -/
def toInbox (i : Nat) (s : State) : State := { s with net := { s.net with inbox := s.net.inbox ++ [i] } }

/-- CADDY_WAIT is counted once for a frame that waits for a partition (R256, R261). -/
def countWait (i part : Nat) (s : State) : State :=
  match s.buf i with
  | none => s
  | some b => if b.waited then s else (s.setBuf i (some { b with waited := true })).bump F.CADDY_PSTAT_WAIT part

/-- The store of the link from die a to b has room for a frame on its VC (R253). -/
def State.crossRoom (s : State) (a b : Nat) (f : Frame) : Bool :=
  a = b || decide (s.net.cross.lk 0 (crossKey a b f.vc) + cellsOf f.len ≤ crossLimit f.vc)

/-- A frame has crossed a die-to-die link: one that carries BAD or TRUNC counts under the lowest-numbered port of the receiving die (R228). -/
def crossCount (a b : Nat) (f : Frame) (s : State) : State := s.when (a ≠ b && f.spoilt) (fun s => s.bump F.PORT_RXFRAME_BADIN (32 * b))

/-- The die of a partition. -/
def State.partDie (s : State) (i : Nat) : Nat :=
  match s.part i with
  | some p => p.die
  | none => 0

/-- R261: RES0 of partition i has the cells of stored frame j, and the frame can cross to the partition's die (R253). -/
def State.partLets (s : State) (i : Nat) (b : Buf) : Bool :=
  decide (cellsOf b.frame.len ≤ partRoom i s) && s.crossRoom b.die (s.partDie i) b.frame

/-- R261: partition i takes the whole stored frame j out of its ingress charge, where RES0 has its cells. A frame on another die crosses to the
partition's die first. -/
def partHold (i j : Nat) (s : State) : Option State :=
  match s.buf j with
  | none => none
  | some b =>
    let n := cellsOf b.frame.len
    let d := s.partDie i
    if s.partLets i b then
      let s := recharge j (.part i [n]) (partTake0 i n (crossCount b.die d b.frame s))
      match s.buf j with
      | none => some s
      | some b => some (s.setBuf j (some { b with die := d }))
    else none

/-- A unit accepts a frame whose cells it frees at once: the partition needs room for it for that moment (R261). What a multicast copy takes is freed
with the copy's reference. -/
def partPass (part i : Nat) (s : State) : Option State :=
  match s.buf i with
  | none => some s
  | some b =>
    if b.mc then
      if s.partLets part b then
        let n := cellsOf b.frame.len
        some (discard i (partFree part [n] (partTake0 part n (crossCount b.die (s.partDie part) b.frame s))))
      else none
    else match partHold part i s with
      | none => none
      | some s => some (discard i s)

end Sys2Proof.Machine
end

