-- ==== Sys2Proof/Machine/Reserve.lean ====
section
/-!
DEFINITION. What a core reserves before a memory request issues (R96, R259, R290): the request records of FMEM and FSYNC, and whether the core's slot has the
cells of the first request and of its reply.
-/
namespace Sys2Proof.Machine

open Sys2Proof

/-- The requester slot of core c (Table 9.4). -/
def coreSlot (c : Nat) : Nat := 128 + c

/-- n bytes at a lie in Rod memory. No rule aligns an operand of FQ, PADDR apart (Tables 3.10 and 10.6). -/
def rodRange (a n : Nat) : Bool := decide (a + n ≤ 0x80000)

/-- A request record (Table 10.6). -/
structure FmRec where
  op : Nat
  off : Nat
  tc : Nat
  len : Nat
  tag : Nat
  ord : Bool
  dst : Fnid
  paddr : Nat
deriving DecidableEq, Repr

/-- The record in 32 bytes (Table 10.6). -/
def fmRec (bs : List Byte) : FmRec :=
  let w (i : Nat) := leAt bs (8 * i) 8
  { op := bitsOf (w 0) 48 16, off := bitsOf (w 0) 0 48, tc := bitsOf (w 1) 61 3, len := bitsOf (w 1) 48 13, tag := bitsOf (w 1) 36 12,
    ord := bitsOf (w 1) 32 1 = 1, dst := BitVec.ofNat 16 (bitsOf (w 1) 0 16), paddr := bitsOf (w 2) 0 19 }

/-- A SYNC request code (Table 10.2). -/
def isSyncOp (op : Nat) : Bool := decide (0x30 ≤ op % 2 ^ 15) && decide (op % 2 ^ 15 ≤ 0x34)

/-- Width of an atomic's operand in memory (Table 10.3). -/
def atomicWidth (op : Nat) : Nat :=
  match op % 2 ^ 15 with
  | 0x10 => 4 | 0x1D => 4 | 0x12 => 16 | 0x1C => 16 | _ => 8

/-- The bytes of the largest answer to a request that is written at ARY (R96, R290): the status word, then the reply data; for a STORE, which an ACK names,
the status word alone. -/
def replyLen (op : Nat) (pay : List Byte) : Nat :=
  match op % 2 ^ 15 with
  | 0x01 => 8 + bitsOf (natLE (pay.take 8)) 0 13
  | 0x34 => 72
  | n => if isSyncOp op then 24 else if 0x10 ≤ n && n ≤ 0x1D then 8 + atomicWidth op else 8

/-- The record of an FMEM repeat. -/
def fmemRec (c : Nat) (h : Cmd) (r : Nat) (s : State) : FmRec := fmRec (Mem.rd (s.core c).rmem 0 (h.xAddr r) 32)

/-- The operand bytes of a record. -/
def FmRec.pay (q : FmRec) (c : Nat) (s : State) : List Byte := Mem.rd (s.core c).rmem 0 q.paddr q.len

/-- The record, its operand and the answer of an FMEM repeat lie in Rod memory, and PADDR is 8-byte aligned (Table 10.6). -/
def fmemOk (c : Nat) (h : Cmd) (r : Nat) (s : State) : Bool :=
  let q := fmemRec c h r s
  rodRange (h.xAddr r) 32 && rodRange q.paddr q.len && q.paddr % 8 = 0 && decide (q.len ≤ 4096) && rodRange (h.yAddr r) (replyLen q.op (q.pay c s))

/-- Some repeat of the command asks for an FADD32 (R311). -/
def fmemFadd (c : Nat) (h : Cmd) (s : State) : Bool :=
  (List.range (cwCount h.w)).any (fun r => (fmemRec c h r s).op % 2 ^ 15 = 0x1D)

/-- The OP of an FSYNC: operation XARG[3:0]. -/
def fsyncOp (h : Cmd) : Nat := 0x30 + cwXarg h.w % 16

/-- The operand bytes of an FSYNC. -/
def fsyncLen (h : Cmd) : Nat :=
  match fsyncOp h with
  | 0x33 => 16
  | 0x34 => 0
  | _ => 8

/-- Operand and answer of an FSYNC repeat lie in Rod memory. -/
def fsyncOk (h : Cmd) (r : Nat) : Bool := rodRange (h.xAddr r) (fsyncLen h) && rodRange (h.yAddr r) (replyLen (fsyncOp h) [])

/-- The core's slot has the cells of a request of n bytes, and those of its reply of m bytes (R96, R259). -/
def State.requestRoom (s : State) (c n m : Nat) : Bool :=
  match slotTake (coreSlot c) (cellsOf n) s with
  | none => false
  | some (_, s) => (slotTake (coreSlot c) (cellsOf m) s).isSome

/-- The head command of FQ asks the fabric for memory: it issues with the reservation of its first request (R96). -/
def isRequest (h : Cmd) : Bool := cwOpc h.w = 0x03 || cwOpc h.w = 0x04

/-- The head command of FQ lacks no reply space: it is no request, has none to send, is rejected or faults, or its first request has its cells (R96). -/
def State.headRoom (s : State) (c : Nat) (h : Cmd) : Bool :=
  !isRequest h || cwCount h.w = 0 ||
    (if cwOpc h.w = 0x03 then
      (s.strict && fmemFadd c h s) || !(List.range (cwCount h.w)).all (fun r => fmemOk c h r s) ||
        (let q := fmemRec c h 0 s
         s.requestRoom c q.len (replyLen q.op (q.pay c s)))
    else !(List.range (cwCount h.w)).all (fsyncOk h) || s.requestRoom c (fsyncLen h) (replyLen (fsyncOp h) []))

end Sys2Proof.Machine
end

