-- ==== Sys2Proof/Machine/RodCore.lean ====
section
/-!
DEFINITION. The control core (R64 to R82, R428): fetching, registers, steps and their releases, HALT, and one meaning for each of its
instructions and stalls.
-/
namespace Sys2Proof.Machine

open Sys2Proof

-- Registers and fetch -----------------------------------------------------------------------------------

/-- General register r: g0 reads as zero (R70). -/
def Core.gr (k : Core) (r : GReg) : Word := if r = 0 then 0 else k.g.lk 0 r.toNat

/-- Write general register r: writes to g0 are discarded (R70). -/
def Core.setGr (k : Core) (r : GReg) (w : Word) : Core := if r = 0 then k else { k with g := k.g.put 0 r.toNat w }

/-- The instruction word at the program counter. -/
def Core.fetch (k : Core) : BitVec 32 := BitVec.ofNat 32 (Mem.rdN k.imem 0 k.pc.toNat 4)

/-- The core runs, does not stall, and its clocks run: it executes the instruction at its program counter. -/
def State.executing (s : State) (c : CoreId) : Bool :=
  let k := s.core c
  k.st = .run && k.stall = none && s.clocked c

/-- Core c executes instruction i: it is executing, and the word it fetches decodes to i (R70). -/
def State.runs (s : State) (c : CoreId) (i : Instr) : Bool := s.executing c && decodeRod c (s.core c).fetch = some i

/-- The core with its program counter past the instruction. -/
def Core.advance (k : Core) : Core := { k with pc := k.pc + 4 }

/-- The effect of an instruction on its core. -/
def ctl (c : CoreId) (i : Instr) (f : Core → Core) (s : State) : Host.Outcome State Fault Refusal :=
  actIf (s.runs c i) (fun s => s.setCore c (f (s.core c))) s

/-- An instruction that writes v to rd and goes on. -/
def ctlRd (c : CoreId) (i : Instr) (rd : GReg) (v : Core → Word) (s : State) : Host.Outcome State Fault Refusal :=
  ctl c i (fun k => (k.setGr rd (v k)).advance) s

/-- A register operation of format R. -/
def alu (c : CoreId) (i : Instr) (rd rs1 rs2 : GReg) (f : Word → Word → Word) (s : State) :
    Host.Outcome State Fault Refusal :=
  ctlRd c i rd (fun k => f (k.gr rs1) (k.gr rs2)) s

/-- 1 where the condition holds, else 0. -/
def flagWord (b : Bool) : Word := if b then 1 else 0

-- Steps (R65, R66, R428) ----------------------------------------------------------------------------------

/-- R428: HALT takes effect when a core that is not in quarantine enters LOADED, RUN or STEPWAIT. -/
def enterCoreSt (c : Nat) (st : CoreSt) (s : State) : State :=
  let k := s.core c
  if s.bit F.ROD_CTRL_HALT c && !k.quar then s.setCore c { k with st := .halted, prior := st }
  else s.setCore c { k with st := st }

/-- R65: core c takes a step release: it saves its checkpoint, marks its vector registers unwritten and enters RUN at ENTRY. -/
def takeRelease (c slot : Nat) (s : State) : State :=
  let s := s.modCore c (fun k => { k.freshOrder with
    chk := ⟨k.g, k.a, k.tok⟩, vwritten := [], held := false, heldQuiz := false, stall := none,
    step := s.brewStep slot, pc := BitVec.ofNat 16 (s.fld F.ROD_ENTRY_ENTRY c / 4 * 4) })
  enterCoreSt c .run s

/-- R66, R69: a step release that has reached core c is taken, or held while the core runs or a quiz does; a second one is STEPOVR. -/
def acceptRelease (slot : Nat) (c : Nat) (s : State) : State :=
  let k := s.core c
  match k.st with
  | .loaded | .stepwait => takeRelease c slot s
  | .run | .halted =>
    if k.held then coreFault c .stepovr 7 k.pc (s.setCore c { k with held := false })
    else s.setCore c { k with held := true }
  | .quiz =>
    if k.heldQuiz then coreFault c .stepovr 7 k.pc (s.setCore c { k with heldQuiz := false })
    else s.setCore c { k with heldQuiz := true }
  | .fault | .idle => s

/-- R66: a step release reaches core c of Brew slot k. Its step record is formed at the release, whatever the core does with it (R90, R101, R199). -/
def releaseCore (slot : Nat) (c : Nat) (s : State) : State := acceptRelease slot c (stepRecord c slot s)

/-- HALT is set (R428): the bit is kept, and a core in LOADED, RUN or STEPWAIT that is not in quarantine enters HALTED; one in RUN whose current
instruction stalls does so when that instruction is done. -/
def haltSet (c : Nat) (s : State) : State :=
  let s := s.setFld F.ROD_CTRL_HALT c 1
  let k := s.core c
  if !k.quar && (k.st = .loaded || (k.st = .run && k.stall = none) || k.st = .stepwait) then
    s.setCore c { k with st := .halted, prior := k.st }
  else s

/-- HALT is cleared (R428, R66): a HALTED core returns to the state it left, and takes a held release at once where that is LOADED or
STEPWAIT. -/
def haltClear (c : Nat) (s : State) : State :=
  let s := s.setFld F.ROD_CTRL_HALT c 0
  let k := s.core c
  if k.st = .halted then
    let s := s.setCore c { k with st := k.prior }
    if k.held && (k.prior = .loaded || k.prior = .stepwait) then
      match s.brewOf c with
      | some b => takeRelease c b s
      | none => s
    else s
  else s

-- Control-core memory accesses (R71) ------------------------------------------------------------------------

/-- R71: the access lies below 0x8_0000 and is aligned to its width. -/
def ldstOk (a : Word) (w : Nat) : Bool := decide (a.toNat < 0x80000) && a.toNat % w = 0

/-- The number in w bytes of Rod memory, where the bytes listed as bad are free values (R83). -/
def ldBytes (k : Core) (a w : Nat) (bad : List Nat) (free : Nat) : Nat :=
  if bad.isEmpty then Mem.rdN k.rmem 0 a w
  else natLE ((List.range w).map (fun i =>
    if bad.contains (a + i) then (Config.freeWord (free + bad.idxOf (a + i))).truncate 8 else k.rmem.lk 0 (a + i)))

/-- A control-core load of w bytes. -/
def ctlLoad (c : CoreId) (i : Instr) (rd rs1 : GReg) (imm : BitVec 16) (w : Nat) (s : State) :
    Host.Outcome State Fault Refusal :=
  actIf (s.runs c i) (fun s =>
    let k := s.core c
    let a := k.gr rs1 + imm.signExtend 64
    if ldstOk a w then
      let bad := k.share.clash 6 (a.toNat, w, false)
      { s.setCore c (((k.touch 6 a.toNat w false).setGr rd (BitVec.ofNat 64 (ldBytes k a.toNat w bad s.free))).advance) with
        free := s.free + bad.length }
    else coreFault c .ldstRange 7 k.pc s) s

/-- A control-core store of w bytes. -/
def ctlStore (c : CoreId) (i : Instr) (rs rs1 : GReg) (imm : BitVec 16) (w : Nat) (s : State) :
    Host.Outcome State Fault Refusal :=
  actIf (s.runs c i) (fun s =>
    let k := s.core c
    let a := k.gr rs1 + imm.signExtend 64
    if ldstOk a w then
      freeRod c (k.share.clash 5 (a.toNat, w, true))
        (s.setCore c ({ (k.touch 5 a.toNat w true) with rmem := Mem.wr k.rmem 0 a.toNat (bytesLE w (k.gr rs).toNat) }.advance))
    else coreFault c .ldstRange 7 k.pc s) s

/-- A branch of format B (Table 3.4). -/
def branch (c : CoreId) (i : Instr) (rs1 rs2 : GReg) (off : BitVec 16) (p : Word → Word → Bool) (s : State) :
    Host.Outcome State Fault Refusal :=
  ctl c i (fun k => if p (k.gr rs1) (k.gr rs2) then { k with pc := k.pc + 4 * off } else k.advance) s

-- Queues and tokens (R77 to R82) ---------------------------------------------------------------------------

/-- The command a PUSH forms: rs1 supplies the low word and rs2 the high word (R76). -/
def pushWord (k : Core) (rs1 rs2 : GReg) : CmdWord := k.gr rs2 ++ k.gr rs1

/-- The command enters queue q with its snapshots, and the core's address registers step (R75). -/
def enqueue (k : Core) (q : Nat) (w : CmdWord) : Core :=
  let x := k.queue q
  ({ (stepUsed k q w) with stall := none }.setQueue q { x with wait := x.wait ++ [snapshot k q w k.pc] }).advance

/-- The engine of queue q can take its next command: it has none in execution, or for FQ none that still has repeats to send (R79). -/
def Core.ready (k : Core) (q : Nat) : Bool := (k.queue q).fly.all (fun f => q = 3 && f.todo = [])

/-- The command at the head of queue q of core c waits for token t and for nothing else: its engine is free, and a memory request has its reply space
(R80, R96). -/
def State.headWaits (s : State) (c q t : Nat) : Bool :=
  let k := s.core c
  match (k.queue q).wait with
  | h :: _ => cwWv h.w && !h.granted && cwWtk h.w = t && k.ready q && (q ≠ 3 || s.headRoom c h)
  | [] => false

/-- How many of the queues before q have a head that waits for token t: they are granted first (R80). -/
def State.waitersBefore (s : State) (c q t : Nat) : Nat := ((List.range 5).filter (fun j => j < q && s.headWaits c j t)).length

/-- The core's queues issue: it is not in FAULT (R100), or it is there for a BADCMD, after which what was queued before completes normally (R77; DEDUCED,
log entry 135). -/
def Core.issues (k : Core) : Bool := k.st ≠ .fault || k.drain

/-- The queue can issue its head command: the core's queues issue and its clocks run, and the count of its WV token is at least 1 after the queues of
higher priority have taken theirs (R80, R100). A command whose token has been granted has issued, and finishes as one in execution does. -/
def State.canIssue (s : State) (c q : Nat) : Bool :=
  let k := s.core c
  match (k.queue q).wait with
    | [] => false
    | h :: _ =>
      if h.granted then s.finishing c
      else k.issues && s.clocked c &&
        (!cwWv h.w || decide (s.waitersBefore c q (cwWtk h.w) < k.tok.lk 0 (cwWtk h.w)))

/-- Party p takes one count of token t, and what it carries of the order of accesses (R80, R83). -/
def Core.takeTok (k : Core) (t p : Nat) : Core :=
  { k with tok := k.tok.put 0 t (k.tok.lk 0 t - 1), share := k.share.take p t (k.tok.lk 0 t) }

/-- The head command of queue q leaves the waiting list as it issues, taking its WV token where it has not been granted. -/
def popHead (c q : Nat) (s : State) : State :=
  s.modCore c (fun k =>
    let x := k.queue q
    match x.wait with
    | [] => k
    | h :: t =>
      let k := endEpisode q (k.setQueue q { x with wait := t })
      let k := { k with share := k.share.pushed (k.headParty q) h.stores }
      if cwWv h.w && !h.granted then k.takeTok (cwWtk h.w) (k.headParty q) else k)

/-- The first queue whose head waits for token t, where that head is a memory request: it takes its count as it issues, at its own row, with the reservation
of its reply space (R80, R96). -/
def State.requestFirst (s : State) (c t : Nat) : Bool :=
  (List.range 5).find? (fun q => s.headWaits c q t) = some 3 && ((s.core c).queue 3).wait.head?.any isRequest

/-- A token is granted to the first of its waiters: the queues' heads in queue order, the control core last (R80). A head that is granted its token
issues: the count is taken now, and its engine is free. -/
def grantTok (c t : Nat) (s : State) : State :=
  let k := s.core c
  match (List.range 5).find? (fun q => s.headWaits c q t) with
  | some q =>
    let x := k.queue q
    s.setCore c (endEpisode q ((k.takeTok t (k.headParty q)).setQueue q { x with wait := modAt x.wait 0 (fun h => { h with granted := true }) }))
  | none =>
    match k.stall with
    | some (.twait u) =>
      if u.toNat = t then enterCoreSt c .run (s.setCore c (endEpisode 5 { (k.takeTok t 5) with stall := none }).advance) else s
    | _ => s

/-- Something waits for token t of core c that the count of it goes to by itself (R80). -/
def State.tokWaited (s : State) (c t : Nat) : Bool :=
  !s.requestFirst c t && ((List.range 5).any (fun q => s.headWaits c q t) || match (s.core c).stall with
    | some (.twait u) => u.toNat = t && (s.core c).st = .run
    | _ => false)

-- Meanings --------------------------------------------------------------------------------------------------

/-- rd = rs1 + rs2 modulo 2^64 (Table 3.4, R70). -/
def execAdd (c : CoreId) (rd rs1 rs2 : GReg) (s : State) : Host.Outcome State Fault Refusal :=
  alu c (.add c rd rs1 rs2) rd rs1 rs2 (fun a b => a + b) s

/-- rd = rs1 - rs2 modulo 2^64 (Table 3.4, R70). -/
def execSub (c : CoreId) (rd rs1 rs2 : GReg) (s : State) : Host.Outcome State Fault Refusal :=
  alu c (.sub c rd rs1 rs2) rd rs1 rs2 (fun a b => a - b) s

/-- Bitwise AND (Table 3.4, R70). -/
def execAnd (c : CoreId) (rd rs1 rs2 : GReg) (s : State) : Host.Outcome State Fault Refusal :=
  alu c (.and c rd rs1 rs2) rd rs1 rs2 (fun a b => a &&& b) s

/-- Bitwise OR (Table 3.4, R70). -/
def execOr (c : CoreId) (rd rs1 rs2 : GReg) (s : State) : Host.Outcome State Fault Refusal :=
  alu c (.or c rd rs1 rs2) rd rs1 rs2 (fun a b => a ||| b) s

/-- Bitwise XOR (Table 3.4, R70). -/
def execXor (c : CoreId) (rd rs1 rs2 : GReg) (s : State) : Host.Outcome State Fault Refusal :=
  alu c (.xor c rd rs1 rs2) rd rs1 rs2 (fun a b => a ^^^ b) s

/-- rd = rs1 shifted left by rs2[5:0] (Table 3.4, R70). -/
def execSll (c : CoreId) (rd rs1 rs2 : GReg) (s : State) : Host.Outcome State Fault Refusal :=
  alu c (.sll c rd rs1 rs2) rd rs1 rs2 (fun a b => a <<< (b.toNat % 64)) s

/-- rd = rs1 shifted right logically by rs2[5:0] (Table 3.4, R70). -/
def execSrl (c : CoreId) (rd rs1 rs2 : GReg) (s : State) : Host.Outcome State Fault Refusal :=
  alu c (.srl c rd rs1 rs2) rd rs1 rs2 (fun a b => a >>> (b.toNat % 64)) s

/-- rd = rs1 shifted right arithmetically by rs2[5:0] (Table 3.4, R70). -/
def execSra (c : CoreId) (rd rs1 rs2 : GReg) (s : State) : Host.Outcome State Fault Refusal :=
  alu c (.sra c rd rs1 rs2) rd rs1 rs2 (fun a b => a.sshiftRight (b.toNat % 64)) s

/-- rd = 1 if rs1 < rs2 signed, else 0 (Table 3.4, R70). -/
def execSlt (c : CoreId) (rd rs1 rs2 : GReg) (s : State) : Host.Outcome State Fault Refusal :=
  alu c (.slt c rd rs1 rs2) rd rs1 rs2 (fun a b => flagWord (a.slt b)) s

/-- rd = 1 if rs1 < rs2 unsigned, else 0 (Table 3.4, R70). -/
def execSltu (c : CoreId) (rd rs1 rs2 : GReg) (s : State) : Host.Outcome State Fault Refusal :=
  alu c (.sltu c rd rs1 rs2) rd rs1 rs2 (fun a b => flagWord (a.ult b)) s

/-- rd = low 64 bits of rs1 × rs2 (Table 3.4, R70). -/
def execMul (c : CoreId) (rd rs1 rs2 : GReg) (s : State) : Host.Outcome State Fault Refusal :=
  alu c (.mul c rd rs1 rs2) rd rs1 rs2 (fun a b => a * b) s

/-- rd = high 64 bits of the unsigned product (Table 3.4, R70). -/
def execMulhu (c : CoreId) (rd rs1 rs2 : GReg) (s : State) : Host.Outcome State Fault Refusal :=
  alu c (.mulhu c rd rs1 rs2) rd rs1 rs2 (fun a b => BitVec.ofNat 64 (a.toNat * b.toNat / 2 ^ 64)) s

/-- rd = rs1 + sext(IMM) (Table 3.4, R70). -/
def execAddi (c : CoreId) (rd rs1 : GReg) (imm : BitVec 16) (s : State) : Host.Outcome State Fault Refusal :=
  ctlRd c (.addi c rd rs1 imm) rd (fun k => k.gr rs1 + imm.signExtend 64) s

/-- rd = rs1 AND zext(IMM) (Table 3.4, R70). -/
def execAndi (c : CoreId) (rd rs1 : GReg) (imm : BitVec 16) (s : State) : Host.Outcome State Fault Refusal :=
  ctlRd c (.andi c rd rs1 imm) rd (fun k => k.gr rs1 &&& imm.zeroExtend 64) s

/-- rd = rs1 OR zext(IMM) (Table 3.4, R70). -/
def execOri (c : CoreId) (rd rs1 : GReg) (imm : BitVec 16) (s : State) : Host.Outcome State Fault Refusal :=
  ctlRd c (.ori c rd rs1 imm) rd (fun k => k.gr rs1 ||| imm.zeroExtend 64) s

/-- rd = rs1 XOR zext(IMM) (Table 3.4, R70). -/
def execXori (c : CoreId) (rd rs1 : GReg) (imm : BitVec 16) (s : State) : Host.Outcome State Fault Refusal :=
  ctlRd c (.xori c rd rs1 imm) rd (fun k => k.gr rs1 ^^^ imm.zeroExtend 64) s

/-- rd = rs1 shifted left by IMM[5:0] (Table 3.4, R70). -/
def execSlli (c : CoreId) (rd rs1 : GReg) (imm : BitVec 16) (s : State) : Host.Outcome State Fault Refusal :=
  ctlRd c (.slli c rd rs1 imm) rd (fun k => k.gr rs1 <<< (imm.toNat % 64)) s

/-- rd = rs1 shifted right logically by IMM[5:0] (Table 3.4, R70). -/
def execSrli (c : CoreId) (rd rs1 : GReg) (imm : BitVec 16) (s : State) : Host.Outcome State Fault Refusal :=
  ctlRd c (.srli c rd rs1 imm) rd (fun k => k.gr rs1 >>> (imm.toNat % 64)) s

/-- rd = rs1 shifted right arithmetically by IMM[5:0] (Table 3.4, R70). -/
def execSrai (c : CoreId) (rd rs1 : GReg) (imm : BitVec 16) (s : State) : Host.Outcome State Fault Refusal :=
  ctlRd c (.srai c rd rs1 imm) rd (fun k => (k.gr rs1).sshiftRight (imm.toNat % 64)) s

/-- rd = (rs1 << 16) or zext(IMM) (Table 3.4, R70). -/
def execShori (c : CoreId) (rd rs1 : GReg) (imm : BitVec 16) (s : State) : Host.Outcome State Fault Refusal :=
  ctlRd c (.shori c rd rs1 imm) rd (fun k => (k.gr rs1 <<< 16) ||| imm.zeroExtend 64) s

/-- rd = 1 if rs1 < sext(IMM) signed, else 0 (Table 3.4, R70). -/
def execSlti (c : CoreId) (rd rs1 : GReg) (imm : BitVec 16) (s : State) : Host.Outcome State Fault Refusal :=
  ctlRd c (.slti c rd rs1 imm) rd (fun k => flagWord ((k.gr rs1).slt (imm.signExtend 64))) s

/-- rd = sext(IMM) << 16 (Table 3.4, R70). -/
def execLui (c : CoreId) (rd : GReg) (imm : BitVec 16) (s : State) : Host.Outcome State Fault Refusal :=
  ctlRd c (.lui c rd imm) rd (fun _ => imm.signExtend 64 <<< 16) s

/-- Load 64 bits of Rod memory (Table 3.4, R71). -/
def execLd (c : CoreId) (rd rs1 : GReg) (imm : BitVec 16) (s : State) : Host.Outcome State Fault Refusal :=
  ctlLoad c (.ld c rd rs1 imm) rd rs1 imm 8 s

/-- Load 32 bits, zero-extended, of Rod memory (Table 3.4, R71). -/
def execLw (c : CoreId) (rd rs1 : GReg) (imm : BitVec 16) (s : State) : Host.Outcome State Fault Refusal :=
  ctlLoad c (.lw c rd rs1 imm) rd rs1 imm 4 s

/-- Store the low 64 bits of the RD-position register (Table 3.4, R71). -/
def execSt (c : CoreId) (rs rs1 : GReg) (imm : BitVec 16) (s : State) : Host.Outcome State Fault Refusal :=
  ctlStore c (.st c rs rs1 imm) rs rs1 imm 8 s

/-- Store the low 32 bits of the RD-position register (Table 3.4, R71). -/
def execSw (c : CoreId) (rs rs1 : GReg) (imm : BitVec 16) (s : State) : Host.Outcome State Fault Refusal :=
  ctlStore c (.sw c rs rs1 imm) rs rs1 imm 4 s

/-- Branch by OFF instructions if rs1 and rs2 are in the relation: equal (Table 3.4). -/
def execBeq (c : CoreId) (rs1 rs2 : GReg) (off : BitVec 16) (s : State) : Host.Outcome State Fault Refusal :=
  branch c (.beq c rs1 rs2 off) rs1 rs2 off (fun a b => a == b) s

/-- Branch by OFF instructions if rs1 and rs2 are in the relation: not equal (Table 3.4). -/
def execBne (c : CoreId) (rs1 rs2 : GReg) (off : BitVec 16) (s : State) : Host.Outcome State Fault Refusal :=
  branch c (.bne c rs1 rs2 off) rs1 rs2 off (fun a b => a != b) s

/-- Branch by OFF instructions if rs1 and rs2 are in the relation: signed less (Table 3.4). -/
def execBlt (c : CoreId) (rs1 rs2 : GReg) (off : BitVec 16) (s : State) : Host.Outcome State Fault Refusal :=
  branch c (.blt c rs1 rs2 off) rs1 rs2 off (fun a b => a.slt b) s

/-- Branch by OFF instructions if rs1 and rs2 are in the relation: signed not less (Table 3.4). -/
def execBge (c : CoreId) (rs1 rs2 : GReg) (off : BitVec 16) (s : State) : Host.Outcome State Fault Refusal :=
  branch c (.bge c rs1 rs2 off) rs1 rs2 off (fun a b => !a.slt b) s

/-- Branch by OFF instructions if rs1 and rs2 are in the relation: unsigned less (Table 3.4). -/
def execBltu (c : CoreId) (rs1 rs2 : GReg) (off : BitVec 16) (s : State) : Host.Outcome State Fault Refusal :=
  branch c (.bltu c rs1 rs2 off) rs1 rs2 off (fun a b => a.ult b) s

/-- Branch by OFF instructions if rs1 and rs2 are in the relation: unsigned not less (Table 3.4). -/
def execBgeu (c : CoreId) (rs1 rs2 : GReg) (off : BitVec 16) (s : State) : Host.Outcome State Fault Refusal :=
  branch c (.bgeu c rs1 rs2 off) rs1 rs2 off (fun a b => !a.ult b) s

/-- g31 = PC + 4; PC = PC + 4 × OFF (Table 3.4). -/
def execJal (c : CoreId) (off : BitVec 26) (s : State) : Host.Outcome State Fault Refusal :=
  ctl c (.jal c off) (fun k => { (k.setGr 31 ((k.pc + 4).zeroExtend 64)) with pc := k.pc + 4 * off.truncate 16 }) s

/-- rd = PC + 4; PC = rs1 + sext(IMM) with bits [1:0] cleared, modulo 2^16 (Table 3.4, R70). -/
def execJalr (c : CoreId) (rd rs1 : GReg) (imm : BitVec 16) (s : State) : Host.Outcome State Fault Refusal :=
  ctl c (.jalr c rd rs1 imm) (fun k => { (k.setGr rd ((k.pc + 4).zeroExtend 64)) with
    pc := (k.gr rs1 + imm.signExtend 64).truncate 16 &&& 0xFFFC }) s

/-- Field FLD of address register SEL = rs1 (Table 3.5). -/
def execArset (c : CoreId) (sel : Sel) (fld : BitVec 4) (rs1 : GReg) (s : State) : Host.Outcome State Fault Refusal :=
  ctl c (.arset c sel fld rs1) (fun k =>
    (k.setAr sel.toNat ((k.ar sel.toNat).setFld fld.toNat (k.gr rs1))).advance) s

/-- rd = field FLD of address register SEL (Table 3.5). -/
def execArget (c : CoreId) (rd : GReg) (sel : Sel) (fld : BitVec 4) (s : State) : Host.Outcome State Fault Refusal :=
  ctlRd c (.arget c rd sel fld) rd (fun k => (k.ar sel.toNat).getFld fld.toNat) s

/-- Step address register SEL rs1[15:0] times (R74). -/
def execArstep (c : CoreId) (sel : Sel) (rs1 : GReg) (s : State) : Host.Outcome State Fault Refusal :=
  ctl c (.arstep c sel rs1) (fun k =>
    (k.setAr sel.toNat ((k.ar sel.toNat).steps (wbits (k.gr rs1) 0 16))).advance) s

/-- rd = the current address of SEL (R74). -/
def execAraddr (c : CoreId) (rd : GReg) (sel : Sel) (s : State) : Host.Outcome State Fault Refusal :=
  ctlRd c (.araddr c rd sel) rd (fun k => BitVec.ofNat 64 (k.ar sel.toNat).addr) s

/-- What PUSH changes. A bad command does not enter the queue and puts the core in FAULT; what was queued before completes normally (R77, log entry 135). -/
def pushEffect (c : CoreId) (q : QueueId) (rs1 rs2 : GReg) (s : State) : State :=
  let k := s.core c
  let w := pushWord k rs1 rs2
  if !cmdOk q.val w then (coreFault c .badcmd q.val k.pc s).modCore c (fun k => { k with drain := true })
  else if k.qlen q.val < 32 then s.setCore c (enqueue k q.val w)
  else s.setCore c { k with stall := some (.push q rs1 rs2) }

/-- PUSH (R72, R75 to R79): the command is checked, then enters queue q; a full queue stalls the control core. -/
def execPush (c : CoreId) (q : QueueId) (rs1 rs2 : GReg) (s : State) : Host.Outcome State Fault Refusal :=
  actIf (s.runs c (.push c q rs1 rs2)) (pushEffect c q rs1 rs2) s

/-- A queue entry is free again and a stalled PUSH enters its command (R79); a HALT set meanwhile takes effect (R428). -/
def execPushStallEnd (c : CoreId) (s : State) : Host.Outcome State Fault Refusal :=
  let k := s.core c
  match k.stall with
  | some (.push q rs1 rs2) =>
    actIf (k.st = .run && s.clocked c && decide (k.qlen q.val < 32))
      (fun s => enterCoreSt c .run (s.setCore c (endEpisode 5 (enqueue k q.val (pushWord k rs1 rs2))))) s
  | _ => .next s

/-- rd = the number of commands in queue q (Table 3.4). -/
def execQcnt (c : CoreId) (rd : GReg) (q : QueueId) (s : State) : Host.Outcome State Fault Refusal :=
  ctlRd c (.qcnt c rd q) rd (fun k => BitVec.ofNat 64 (k.qlen q.val)) s

/-- What TSIG changes. -/
def tsigEffect (c : CoreId) (t : Sel) (s : State) : State :=
  let k := s.core c
  if k.tok.lk 0 t.toNat = 255 then coreFault c .tokovf 7 k.pc s
  else signalTok c t.toNat 7 k.pc (s.setCore c k.advance)

/-- Signal token SEL (R80); a count of 255 puts the core in FAULT with TOKOVF (R81). -/
def execTsig (c : CoreId) (t : Sel) (s : State) : Host.Outcome State Fault Refusal :=
  actIf (s.runs c (.tsig c t)) (tsigEffect c t) s

/-- What TWAIT changes. -/
def twaitEffect (c : CoreId) (t : Sel) (s : State) : State :=
  let k := s.core c
  s.setCore c (if s.waitersBefore c 5 t.toNat < k.tok.lk 0 t.toNat then (k.takeTok t.toNat 5).advance else { k with stall := some (.twait t) })

/-- Decrement token SEL where its count is at least 1 after the queues that wait for it have been granted theirs; otherwise stall
(R80). -/
def execTwait (c : CoreId) (t : Sel) (s : State) : Host.Outcome State Fault Refusal :=
  actIf (s.runs c (.twait c t)) (twaitEffect c t) s

/-- A count of token t has become available: the first of its waiters takes it (R80). Where that is a memory request of FQ, its own row does. -/
def execTokenWaitGrant (c : CoreId) (t : Sel) (s : State) : Host.Outcome State Fault Refusal :=
  let k := s.core c
  actIf (k.issues && s.clocked c && decide (1 ≤ k.tok.lk 0 t.toNat) && s.tokWaited c t.toNat) (grantTok c t.toNat) s

/-- rd = count of token SEL (Table 3.4). -/
def execTread (c : CoreId) (rd : GReg) (t : Sel) (s : State) : Host.Outcome State Fault Refusal :=
  ctlRd c (.tread c rd t) rd (fun k => BitVec.ofNat 64 (k.tok.lk 0 t.toNat)) s

/-- rd = the 64-bit step that the core is executing (R66). -/
def execRdstep (c : CoreId) (rd : GReg) (s : State) : Host.Outcome State Fault Refusal :=
  ctlRd c (.rdstep c rd) rd (fun k => k.step) s

/-- An instruction that strict mode rejects: it writes zero and counts STRICTREJ (R73). -/
def strictZero (c : CoreId) (rd : GReg) (s : State) : State :=
  countStrictRej c (s.setCore c ((s.core c).setGr rd 0).advance)

/-- What RDCYC changes. -/
def rdcycEffect (c : CoreId) (rd : GReg) (s : State) : State :=
  if s.strict then strictZero c rd s
  else s.setCore c ((s.core c).setGr rd (BitVec.ofNat 64 ((s.clock.ktick - s.clock.rtick) / 128))).advance

/-- rd = cycles at 2.0 GHz since reset, 128 ticks each; under strict mode zero (R73). -/
def execRdcyc (c : CoreId) (rd : GReg) (s : State) : Host.Outcome State Fault Refusal :=
  actIf (s.runs c (.rdcyc c rd)) (rdcycEffect c rd) s

/-- What RDENT changes. -/
def rdentEffect (c : CoreId) (rd : GReg) (s : State) : State :=
  if s.strict then strictZero c rd s
  else (s.setCore c ((s.core c).setGr rd s.freeVal).advance).freed

/-- rd = 64 bits of entropy, a free value (log entry 3); under strict mode zero (R73). -/
def execRdent (c : CoreId) (rd : GReg) (s : State) : Host.Outcome State Fault Refusal :=
  actIf (s.runs c (.rdent c rd)) (rdentEffect c rd) s

/-- rd = core number (Table 3.4). -/
def execRdid (c : CoreId) (rd : GReg) (s : State) : Host.Outcome State Fault Refusal :=
  ctlRd c (.rdid c rd) rd (fun _ => BitVec.ofNat 64 c.val) s

/-- STEPEND waits for the queues and the vector engine (R67). -/
def execStepend (c : CoreId) (s : State) : Host.Outcome State Fault Refusal :=
  ctl c (.stepend c) (fun k => { k with stall := some .stepEnd }) s

/-- All five queues are empty: the vector engine drains, and the core enters STEPWAIT, taking a held release at once (R66, R67, R85). Where HALT was set
meanwhile the core is HALTED out of STEPWAIT and the release stays held until HALT is cleared (R66, R428; DEDUCED, log entry 121). -/
def execStepwaitEnter (c : CoreId) (s : State) : Host.Outcome State Fault Refusal :=
  let k := s.core c
  actIf (k.st = .run && k.stall = some .stepEnd && s.clocked c && (List.range 5).all (fun q => k.qlen q = 0)) (fun s =>
    let s := drainVec c s
    let s := enterCoreSt c .stepwait (s.modCore c (fun k => { k with stall := none }))
    if k.held && (s.core c).st = .stepwait then
      match s.brewOf c with
      | some b => takeRelease c b s
      | none => s
    else s) s

/-- What HALT changes. -/
def haltEffect (c : CoreId) (s : State) : State := haltSet c (s.setCore c (s.core c).advance)

/-- Enter HALTED as if ROD_CTRL(c).HALT had been set (R428). -/
def execHalt (c : CoreId) (s : State) : Host.Outcome State Fault Refusal :=
  actIf (s.runs c (.halt c)) (haltEffect c) s

/-- What ILLEGAL_INSTRUCTION changes. -/
def illegalInstructionEffect (c : CoreId) (s : State) : State := coreFault c .illegal 7 (s.core c).pc s

/-- An encoding outside Table 3.4 (R70). -/
def execIllegalInstruction (c : CoreId) (s : State) : Host.Outcome State Fault Refusal :=
  actIf (s.executing c && decodeRod c (s.core c).fetch = none) (illegalInstructionEffect c) s

/-- A stall that R82 counts is present: the head of a queue waits for a token, or the control core stalls in TWAIT or PUSH. -/
def State.stalled (s : State) (c : Nat) (w : StallSite) : Bool :=
  let k := s.core c
  match w with
  | .queue q => (match (k.queue q.val).wait with
    | h :: _ => s.headWaits c q.val (cwWtk h.w) && decide (k.tok.lk 0 (cwWtk h.w) ≤ s.waitersBefore c q.val (cwWtk h.w))
    | [] => false)
  | .control => (match k.stall with
    | some (.twait _) | some (.push _ _ _) => true
    | _ => false)

/-- A stall has lasted longer than ROD_STALL_LIMIT: the episode is counted once (R82). A LIMIT of 0 disables the count, and a core in FAULT keeps its
Tallies (R101). -/
def execStallLimitExpiry (c : CoreId) (w : StallSite) (s : State) : Host.Outcome State Fault Refusal :=
  let k := s.core c
  actIf (s.fld F.ROD_STALL_LIMIT_LIMIT 0 ≠ 0 && decide (k.st ≠ .fault) && s.stalled c w && !k.episodes.contains (stallIndex w))
    (fun s => (s.setCore c { k with episodes := stallIndex w :: k.episodes }).bump F.ROD_CMD_TALLY_STALL c) s

end Sys2Proof.Machine
end

