-- ==== Sys2Proof/Machine/Strain.lean ====
section
/-!
DEFINITION. The Strainer's functions (R177 to R186): records and their order, merging, filtering, picking, the fixed-point exp2 and
the counter-based generator.
-/
namespace Sys2Proof.Machine

open Sys2Proof

/-- A Strainer record (R177). -/
structure SRec where
  id : Nat
  key : Nat
deriving DecidableEq, Repr

/-- The record in 8 bytes at an offset. -/
def srecAt (bs : List Byte) (off : Nat) : SRec := ⟨leAt bs (off + 4) 4, leAt bs off 4⟩

/-- The records in a list of bytes, n of them. -/
def srecsOf (bs : List Byte) (n : Nat) : List SRec := (List.range n).map (fun i => srecAt bs (8 * i))

/-- A record's 8 bytes. -/
def SRec.bytes (r : SRec) : List Byte := bytesLE 4 r.key ++ bytesLE 4 r.id

/-- The key is an FP32 NaN in mode 0 (R178). -/
def keyNan (mode key : Nat) : Bool := mode = 0 && fp32IsNan key

/-- How a key that is no NaN ranks: by its number in the mode; a subnormal or negative zero counts as +0 (R177). -/
def keyNum (mode key : Nat) : Int :=
  match mode with
  | 0 => if bitsOf key 23 8 = 0 then 0 else fp32Rank key
  | 1 => sext key 32
  | _ => key

/-- Key a ranks strictly before key b (R178): larger first in descending order, NaN keys last in both orders. -/
def keyBefore (mode : Nat) (asc : Bool) (a b : Nat) : Bool :=
  if keyNan mode a then false
  else if keyNan mode b then true
  else if asc then decide (keyNum mode a < keyNum mode b) else decide (keyNum mode b < keyNum mode a)

/-- Record a ranks strictly before record b: by key, ties by the lower ID (R178). -/
def recBefore (mode : Nat) (asc : Bool) (a b : SRec) : Bool :=
  keyBefore mode asc a.key b.key || (!keyBefore mode asc b.key a.key && decide (a.id < b.id))

/-- R180's merge of two lists; n bounds the records written. The first list comes first among equal records. -/
def smerge (before : SRec → SRec → Bool) : Nat → List SRec → List SRec → List SRec
  | 0, _, _ => []
  | _ + 1, [], [] => []
  | n + 1, x :: xs, [] => x :: smerge before n xs []
  | n + 1, [], z :: zs => z :: smerge before n [] zs
  | n + 1, x :: xs, z :: zs => if before z x then z :: smerge before n (x :: xs) zs else x :: smerge before n xs (z :: zs)

/-- The records in Strainer order, equal records in input order; the fuel bounds the halvings. -/
def ssort (before : SRec → SRec → Bool) : Nat → List SRec → List SRec
  | 0, l => l
  | _, [] => []
  | _, [x] => [x]
  | n + 1, l =>
    let h := l.length / 2
    smerge before l.length (ssort before n (l.take h)) (ssort before n (l.drop h))

/-- The records sorted: 64 halvings suffice for any list here. -/
def strainSort (mode : Nat) (asc : Bool) (l : List SRec) : List SRec := ssort (recBefore mode asc) 64 l

/-- The list is in Strainer order. -/
def inOrder (before : SRec → SRec → Bool) : List SRec → Bool
  | a :: b :: t => !before b a && inOrder before (b :: t)
  | _ => true

/-- How many keys are NaN in the mode (R181). -/
def nanKeys (mode : Nat) (l : List SRec) : Nat := (l.filter (fun r => keyNan mode r.key)).length

/-- SFILT's relation of a key to the threshold: 0 at or above, 1 above, 2 at or below, 3 below, in rank; never for a NaN key
(R179, R180). -/
def sfiltRel (mode : Nat) (asc : Bool) (rel key thr : Nat) : Bool :=
  !keyNan mode key && match rel with
    | 0 => !keyBefore mode asc thr key
    | 1 => keyBefore mode asc key thr
    | 2 => !keyBefore mode asc key thr
    | _ => keyBefore mode asc thr key

/-- Inclusive prefix sums. -/
def prefixSums (acc : Nat) : List Nat → List Nat
  | [] => []
  | x :: t => (acc + x) :: prefixSums (acc + x) t

/-- SPICK (R182): INDEX and KEPT. -/
def spick (cs : List Nat) (topp u : Nat) : Nat × Nat :=
  let n := cs.length
  let last := cs.getD (n - 1) 0
  if n = 0 ∨ last = 0 then (0xFFFFFFFF, 0)
  else
    let m := if topp = 0 then n
      else (((List.range n).find? (fun k => decide (topp * last ≤ cs.getD k 0 * 2 ^ 16))).getD (n - 1)) + 1
    let z := (u * cs.getD (m - 1) 0) >>> 64
    ((((List.range n).find? (fun i => decide (z < cs.getD i 0))).getD 0xFFFFFFFF), m)

/-- T[i]: the integer nearest 2^31 × 2^(-i/256), found bit by bit: the largest t with (2t - 1)^256 at most 2^(8192 - i) (R185). -/
def exp2T (i : Nat) : Nat :=
  (List.range 32).foldl (fun t j =>
    let u := t + 2 ^ (31 - j)
    if (2 * u - 1) ^ 256 ≤ 2 ^ (8192 - i) then u else t) 0

/-- exp2q of an FP32 lane (R185). -/
def exp2q (x : Nat) : Nat :=
  let ef := bitsOf x 23 8
  let neg := bitsOf x 31 1 = 1
  if fp32IsNan x ∨ x = 0xFF800000 then 0
  else if !neg ∨ ef = 0 then 2 ^ 31
  else
    let v : Dy := ⟨2 ^ 23 + bitsOf x 0 23, (ef : Int) - 150⟩
    let U := (v.scale 24).rne.toNat
    if 32 * 2 ^ 24 ≤ U then 0
    else
      let n := U >>> 24
      let i := (U >>> 16) % 256
      let r := U % 2 ^ 16
      let s3 := (0x0E35846B * r) >>> 24
      let s2 := ((0x3D7F7BFF - s3) * r) >>> 24
      let s1 := ((0xB17217F8 - s2) * r) >>> 24
      ((exp2T i * (2 ^ 32 - s1) + 2 ^ 31) >>> 32) >>> n

/-- One round of jrand (R186). -/
def jround (k0 k1 : BitVec 32) (st : BitVec 32 × BitVec 32 × BitVec 32 × BitVec 32) (r : Nat) :
    BitVec 32 × BitVec 32 × BitVec 32 × BitVec 32 :=
  let (a, b, c, d) := st
  let a := a + b
  let d := (d ^^^ a).rotateLeft 16
  let c := c + d
  let b := (b ^^^ c).rotateLeft 12
  let a := a ^^^ (if r % 2 = 0 then k0 else k1) ^^^ BitVec.ofNat 32 (r * 0x11111111)
  (b, c, d, a)

/-- jrand: 64 bits from a seed, a step, a stream and a draw index (R186). -/
def jrand (seed step : Word) (stream draw : BitVec 32) : Word :=
  let k0 : BitVec 32 := seed.extractLsb' 0 32
  let k1 : BitVec 32 := seed.extractLsb' 32 32
  let (a, b, c, d) := (List.range 10).foldl (jround k0 k1)
    (step.extractLsb' 0 32 ^^^ k0, step.extractLsb' 32 32 ^^^ k1, stream ^^^ 0x6A09E667, draw ^^^ 0xBB67AE85)
  (b + d) ++ (a + c)

end Sys2Proof.Machine
end

