-- ==== Sys2Proof/Machine/Vector.lean ====
section
/-!
DEFINITION. The vector engine (R84 to R90): issue slots, hazards, the lane commands and the Bead commands. A row takes the head command of
the core's queue VQ, whose opcode it must be, through all its repeats.
-/
namespace Sys2Proof.Machine

open Sys2Proof

-- Issue and completion, for every queue ----------------------------------------------------------------------

/-- The head command of queue q of core c, where the queue can issue it now. -/
def State.issuable (s : State) (c q : Nat) : Option Cmd :=
  if s.canIssue c q then ((s.core c).queue q).wait.head? else none

/-- A command of queue q that makes its accesses as p completes: it signals its SV token (R80). -/
def signalBy (c q p : Nat) (h : Cmd) (s : State) : State :=
  if cwSv h.w then signalAs c (cwStk h.w) q p h.pc s else s

/-- A command of queue q, whose engine executes one at a time, completes (R80). -/
def signalDone (c q : Nat) (h : Cmd) (s : State) : State := signalBy c q q h s

-- The layout of a sparse tile (R133) --------------------------------------------------------------------------------

/-- The tile is dense (R133). -/
def tileDense (bs : List Byte) : Bool := bitsOf (leAt bs 0 4) 31 1 = 1

/-- k(g): how many values group g lists (R133). -/
def tileK (bs : List Byte) (g : Nat) : Nat := bitsOf (leAt bs 4 12) (3 * g) 3

/-- NVAL of the control word. -/
def tileNval (bs : List Byte) : Nat := leAt bs 0 1

/-- Bytes the position codes take (R133). -/
def tilePos (n : Nat) : Nat := 4 * ((3 * n + 31) / 32)

/-- How many values a compressed tile's k fields list. -/
def tileSum (bs : List Byte) : Nat := (List.range 32).foldl (fun n g => n + tileK bs g) 0

/-- Bytes of a tile of format f (R133). -/
def tileBytes (f : Fmt) (bs : List Byte) : Nat :=
  if tileDense bs then 4 + 256 * (f.width / 8)
  else 16 + tilePos (tileSum bs) + (tileSum bs * (f.width / 8) + 3) / 4 * 4

/-- Where each listed value goes: the pairs of position and number of the value, group by group (R133). -/
def tilePlaces (bs : List Byte) : List (Nat × Nat) :=
  ((List.range 32).foldl (fun (acc : List (Nat × Nat) × Nat) g =>
    let ks := (List.range (tileK bs g)).map (fun j => (8 * g + bitsOf (natLE (bs.drop 16)) (3 * (acc.2 + j)) 3, acc.2 + j))
    (acc.1 ++ ks, acc.2 + tileK bs g)) ([], 0)).1

-- The vector engine -------------------------------------------------------------------------------------------

/-- A check that no repeat fails. -/
def vqFree (_ : State) (_ : Cmd) (_ : Nat) : Bool := true

/-- ARX is aligned to al bytes and its n bytes lie below 0x8_0000 (R88, Table 3.7). -/
def vqMem (al n : Nat) (_ : State) (h : Cmd) (r : Nat) : Bool := h.xAddr r % al = 0 && decide (h.xAddr r + n ≤ 0x80000)

/-- One repeat of a VQ command: the writes due by its slot become visible, the repeat takes its effect, its slot passes (R84). -/
def vqSlot (c : Nat) (rep : Cmd → Nat → State → State) (h : Cmd) (s : State) (r : Nat) : State :=
  (rep h r (commitVec c (s.core c).slot s)).modCore c (fun k => { k with slot := k.slot + 1 })

/-- The command leaves VQ; a WV bit drains the engine first (R85). -/
def vqIssue (c : Nat) (h : Cmd) (s : State) : State := (popHead c 0 s).when (cwWv h.w) (drainVec c)

/-- The command completes; an SV bit drains the engine first (R85). -/
def vqFin (c : Nat) (h : Cmd) (s : State) : State := signalDone c 0 h (s.when (cwSv h.w) (drainVec c))

/-- Bytes of Rod memory that a repeat of a VQ command touches at ARX (Table 3.7): how many, and whether it writes. -/
def vqTouch (c : Nat) (h : Cmd) (r : Nat) (s : State) : Nat × Bool :=
  match cwOpc h.w with
  | 0x01 => (256, false)
  | 0x02 => (256, true)
  | 0x14 | 0x20 | 0x21 | 0x22 => ((cwFinF h.w).tensorBytes 64, false)
  | 0x15 | 0x24 => ((cwFoutF h.w).tensorBytes 64, true)
  | 0x23 => (1024, false)
  | 0x25 => (1024, true)
  | 0x27 => (32, true)
  | 0x28 => (tileBytes (cwFinF h.w) (Mem.rd (s.core c).rmem 0 (h.xAddr r) 1028), false)
  | _ => (0, false)

/-- The spans of Rod memory that a VQ command touches in all its repeats. -/
def vqSpans (c : Nat) (h : Cmd) (s : State) : List Span :=
  ((List.range (cwCount h.w)).map (fun r => (h.xAddr r, vqTouch c h r s))).filter (fun sp => 0 < sp.2.1)

/-- The vector engine is busy from now on for the command's slots, a cycle of 128 ticks each (R84, R354). -/
def vqBusy (c : Nat) (h : Cmd) (s : State) : State := s.modCore c (Core.worked s.now (s.now + 128 * cwCount h.w) s.now)

/-- The command through all its repeats, from issue to completion. -/
def vqWork (c : Nat) (h : Cmd) (rep : Cmd → Nat → State → State) (s : State) : State :=
  let s := vqBusy c h (vqIssue c h s)
  vqFin c h (sharedDo c 0 (vqSpans c h s) (fun s => (List.range (cwCount h.w)).foldl (vqSlot c rep h) s) s)

/-- The head command of VQ, which must have opcode opc, through all its repeats. A WV or SV bit drains the engine (R85), a
repeat whose operands fail the check puts the core in FAULT with CMD_RANGE and nothing is performed (R88), and COUNT 0 is an empty
command (R78). -/
def vqRun (c : CoreId) (opc : Nat) (chk : State → Cmd → Nat → Bool) (rep : Cmd → Nat → State → State) (s : State) :
    Host.Outcome State Fault Refusal :=
  match s.issuable c 0 with
  | some h =>
    actIf (cwOpc h.w = opc) (fun s =>
      if cwCount h.w = 0 then vqFin c h (countEmpty c (vqIssue c h s))
      else if (List.range (cwCount h.w)).all (chk (vqIssue c h s) h) then vqWork c h rep s
      else coreFault c .cmdRange 0 h.pc (vqIssue c h s)) s
  | none => .next s

/-- 64 lanes from a function of the lane number. -/
def lanesOf (f : Nat → Nat) : List Lane := (List.range 64).map (fun i => BitVec.ofNat 32 (f i))

/-- A repeat that reads vector registers and writes VD with a latency (R84, R86, R90). -/
def vecOp (c : Nat) (h : Cmd) (r : Nat) (reads : List Nat) (lat : Nat) (f : List (List Lane) → List Lane) (s : State) : State :=
  let s := eachDo reads (fun v s => readHazard c v r h.pc s) s
  writeVec c (cwVd h.w) lat r h.pc (f (reads.map (s.core c).vreg)) s

/-- A lane-wise repeat over VS1 and VS2. -/
def vec2 (c : Nat) (h : Cmd) (r lat : Nat) (f : Lane → Lane → Lane) (s : State) : State :=
  vecOp c h r [cwV1 h.w, cwV2 h.w] lat (fun vs => (List.range 64).map (fun i =>
    f (laneOf (vs.getD 0 []) i) (laneOf (vs.getD 1 []) i))) s

/-- A lane-wise repeat over VS1, VS2 and VS3. -/
def vec3 (c : Nat) (h : Cmd) (r lat : Nat) (f : Lane → Lane → Lane → Lane) (s : State) : State :=
  vecOp c h r [cwV1 h.w, cwV2 h.w, cwV3 h.w] lat (fun vs => (List.range 64).map (fun i =>
    f (laneOf (vs.getD 0 []) i) (laneOf (vs.getD 1 []) i) (laneOf (vs.getD 2 []) i))) s

/-- A repeat that stores bytes made of VS1 at ARX. -/
def vecStore (c : Nat) (h : Cmd) (r : Nat) (f : List Lane → List Byte) (s : State) : State :=
  let s := readHazard c (cwV1 h.w) r h.pc s
  s.modCore c (fun k => { k with rmem := Mem.wr k.rmem 0 (h.xAddr r) (f (k.vreg (cwV1 h.w))) })

/-- The smaller (or larger) of two lanes by MODE: 0 signed, 1 unsigned, 2 FP32. In FP32 a NaN, or zeros of different sign, leave open which
input's bits are returned: a free choice between the two that depends on them alone (R13, log entry 6). -/
def pickLane (least : Bool) (mode : Nat) (a b : Nat) : Nat :=
  let lt (x y : Nat) : Bool := match mode with
    | 0 => decide (sext x 32 < sext y 32)
    | 1 => decide (x < y)
    | _ => fp32Lt x y
  if mode = 2 ∧ (fp32IsNan a ∨ fp32IsNan b ∨ (fp32Rank a = fp32Rank b ∧ a ≠ b)) then (if Config.pickFirst least a b then a else b)
  else if (if least then lt b a else lt a b) then b else a

/-- VRMAX: the maximum over all lanes in lane 0, the other lanes 0. -/
def vecMax (c : Nat) (h : Cmd) (r : Nat) (s : State) : State :=
  vecOp c h r [cwV1 h.w] 5 (fun vs =>
    let l := (vs.getD 0 []).map BitVec.toNat
    let m := (List.range 63).foldl (fun m i => pickLane false (cwMode h.w) m (l.getD (i + 1) 0)) (l.getD 0 0)
    lanesOf (fun i => if i = 0 then m else 0)) s

/-- VMIN and VMAX. -/
def vecSel (c : Nat) (h : Cmd) (r : Nat) (least : Bool) (s : State) : State :=
  vecOp c h r [cwV1 h.w, cwV2 h.w] 2 (fun vs => lanesOf (fun i =>
    pickLane least (cwMode h.w) (laneOf (vs.getD 0 []) i).toNat (laneOf (vs.getD 1 []) i).toNat)) s

/-- The 64 elements at ARX in FIN, decoded: element positions 0 to 63 of the tensor there (R36). -/
def elems64 (c : Nat) (h : Cmd) (r : Nat) (s : State) : List Dec :=
  let f := cwFinF h.w
  decodeElems f (Mem.rd (s.core c).rmem 0 (h.xAddr r) (f.tensorBytes 64)) 0 64

/-- 64 FP32 lanes as bytes of format f (VPACK): rounded as R37 requires, in an MX format as two blocks of a whole group (R36, R54). An infinity or a NaN
makes all of its MX block NaN, with scale 0xFF and elements of zero (R35, R37; DESIGN CHOICE, log entry 138). -/
def packLanes (f : Fmt) (v : List Lane) : List Byte :=
  let cs := v.map (fun l => fp32Dec l.toNat)
  if f.isMx then
    blocksBytes f ((chunksOf 32 2 cs).map (fun b =>
      if b.contains .nonfin then (nonfinBlock f).1 else (valuesOut f (b.map Cls.val)).1))
  else elBytes f (cs.map (convertVal f))

-- Beads ---------------------------------------------------------------------------------------------------------

/-- The Bead slots lie inside those that admission granted to the Brew that names the core (R88), and outside the blocks of its collectives and layers
(R108). -/
def State.beadsGranted (s : State) (c first n : Nat) : Bool :=
  match s.brewOf c with
  | some k => (match s.brews.lk none k with
    | some b => decide (b.beadFirst ≤ first ∧ first + n ≤ b.beadLast + 1) && s.beadsApart b c first n
    | none => false)
  | none => false

/-- The operands of a Bead command (R88): ARY a multiple of 32 (of 256 for a tile) inside the granted slots, ARX aligned and its bytes
below 0x8_0000. An alignment of 0 says that ARX is not used. -/
def beadArgs (c al n : Nat) (size : Cmd → Nat) (s : State) (h : Cmd) (r : Nat) : Bool :=
  (al = 0 || vqMem al (size h) s h r) && h.yAddr r % (if n = 256 then 256 else 32) = 0 && s.beadsGranted c (h.yAddr r) n

/-- Add integers to consecutive Bead slots (R47). -/
def addBeads (k : Core) (slot : Nat) (ns : List Int) : Core :=
  { k with beads := (List.range ns.length).foldl (fun m i => m.put 0 (slot + i) (beadAdd (m.lk 0 (slot + i)) (ns.getD i 0))) k.beads }

/-- The core with bytes written to its Rod memory. -/
def Core.wrMem (k : Core) (a : Nat) (bs : List Byte) : Core := { k with rmem := Mem.wr k.rmem 0 a bs }

/-- The bytes of n Beads in memory form from a slot on (R48). -/
def Core.beadBytes (k : Core) (slot n : Nat) : List Byte :=
  ((List.range n).map (fun i => beadMem (k.beads.lk 0 (slot + i)))).flatten

/-- The events of Tally set t of a core. -/
def Core.tally (k : Core) (t : Nat) : Tal := Tal.ofList ((List.range 8).map (fun i => k.tset.lk 0 (8 * t + i)))

/-- The core with Tally set t cleared. -/
def Core.clearTally (k : Core) (t : Nat) : Core :=
  { k with tset := (List.range 8).foldl (fun m i => m.put 0 (8 * t + i) 0) k.tset }

/-- Clear n Bead slots and the NONFIN flags of their blocks (R62). -/
def clearBeads (k : Core) (slot n : Nat) : Core :=
  { k with beads := (List.range n).foldl (fun m i => m.put 0 (slot + i) 0) k.beads,
           bflag := (List.range (n / 32)).foldl (fun m i => m.put false (slot / 32 + i) false) k.bflag }

/-- Enter contributions into consecutive Bead slots, E taken from a code for each block of 32: conversion in, NONFIN flags, and the
events (R45, R62, R89). INT formats enter at E = 70 (R44). Under a code that is no exponent (ZERO or NONFINITE) what a FINITE contribution
adds is left open: a free value that depends on the code and the contribution alone (R13, log entry 6). Whether its conversion counts SAT_IN or SHED is
open too: the model counts neither (DESIGN CHOICE, log entry 122). -/
def enterBeads (c : Nat) (isInt : Bool) (codeOf : Nat → Nat) (slot : Nat) (xs : List Cls) (s : State) : State × Tal :=
  let one (i : Nat) (x : Cls) : Int × Tal :=
    let code := codeOf (i / 32)
    if isInt then x.enter 70
    else if code = 0 ∨ code = 0xFF then
      (match x with
        | .fin v => (Config.openEntry code v.m v.e, {})
        | _ => (0, {}))
    else x.enter (codeE code)
  let es := (List.range xs.length).map (fun i => one i (xs.getD i .zero))
  let s := s.modCore c (fun k =>
    let k := addBeads k slot (es.map Prod.fst)
    { k with bflag := (List.range (xs.length / 32)).foldl (fun m b =>
        if ((xs.drop (32 * b)).take 32).contains .nonfin then m.put false (slot / 32 + b) true else m) k.bflag })
  (s, Tal.sum (es.map Prod.snd))

/-- The exponent code of block b: VS1 lane b in MODE 0 (DYNAMIC), ECODE in MODE 1 (FIXED) (Table 3.7). -/
def blockCodeOf (h : Cmd) (v1 : List Lane) (b : Nat) : Nat :=
  if cwMode h.w = 0 then (laneOf v1 b).toNat % 256 else cwEcode h.w

/-- The read of VS1 by a command whose E comes from it: MODE 0 only (DEDUCED, log entry 115). -/
def codeHazard (c : Nat) (h : Cmd) (r : Nat) (s : State) : State := s.when (cwMode h.w = 0) (readHazard c (cwV1 h.w) r h.pc)

/-- A repeat of BACC or BMAC: the elements, each times the gate where there is one, enter their slots (R89). -/
def enterRep (c : Nat) (h : Cmd) (r : Nat) (gate : Option Dec) (s : State) : State :=
  let s := codeHazard c h r s
  let ds := elems64 c h r s
  let v1 := (s.core c).vreg (cwV1 h.w)
  let xs := match gate with
    | some g => ds.map (fun d => d.cls.mul g.cls)
    | none => ds.map Dec.cls
  let (s, t) := enterBeads c (cwFinF h.w).isInt (blockCodeOf h v1) (h.yAddr r) xs s
  let gt := match gate with
    | some g => g.tal
    | none => {}
  addCoreTal c (cwTset h.w) (t.add (gt.add (Tal.sum (ds.map Dec.tal)))) s

/-- The gate of BMAC and BEXP: VS2 lane IMM[5:0], decoded (R38). -/
def gateOf (k : Core) (h : Cmd) : Dec := decodeElem .fp32 (laneOf (k.vreg (cwV2 h.w)) (cwImm h.w % 64)).toNat 0

/-- A repeat of BMAC. -/
def bmacRep (c : Nat) (h : Cmd) (r : Nat) (s : State) : State :=
  let s := readHazard c (cwV2 h.w) r h.pc s
  enterRep c h r (some (gateOf (s.core c) h)) s

/-- The exponent code that BEXP gives a block: for INT8 and INT32 the code of E = 70 (R44), NONFINITE where a product with the gate is. -/
def bexpCode (isInt : Bool) (xs : List Cls) : Nat :=
  if isInt then (if xs.contains .nonfin then 0xFF else 0xB6) else blockCode xs

/-- A repeat of BEXP: it counts nothing (R89). -/
def bexpRep (c : Nat) (h : Cmd) (r : Nat) (s : State) : State :=
  let ds := elems64 c h r s
  let g := (gateOf (s.core c) h).cls
  let xs := if cwMode h.w = 1 then ds.map (fun d => d.cls.mul g) else ds.map Dec.cls
  vecOp c h r ([cwV1 h.w] ++ (if cwMode h.w = 1 then [cwV2 h.w] else [])) 4 (fun vs => (List.range 64).map (fun i =>
    let old := laneOf (vs.getD 0 []) i
    if i < 2 then BitVec.ofNat 32 (max old.toNat (bexpCode (cwFinF h.w).isInt ((xs.drop (32 * i)).take 32))) else old)) s

/-- A repeat of BOUT: two blocks converted out; a block is NONFINITE where its code is 0xFF or its NONFIN flag is set (R89). -/
def boutRep (c : Nat) (h : Cmd) (r : Nat) (s : State) : State :=
  let s := codeHazard c h r s
  let k := s.core c
  let f := cwFoutF h.w
  let y := h.yAddr r
  let bl := [0, 1].map (fun b =>
    let code := if k.bflag.lk false (y / 32 + b) then 0xFF else blockCodeOf h (k.vreg (cwV1 h.w)) b
    blockOut f code ((List.range 32).map (fun i => k.beads.lk 0 (y + 32 * b + i))))
  let s := s.setCore c { k with rmem := Mem.wr k.rmem 0 (h.xAddr r) (blocksBytes f (bl.map Prod.fst)) }
  addCoreTal c (cwTset h.w) (Tal.sum (bl.map Prod.snd)) s

-- Banked accumulation (R137) -------------------------------------------------------------------------------------

/-- The values offered in a cycle go to their banks (position mod 16): applied while the bank has room in the cycle, else into its conflict queue of 8;
the offer stops before one that finds the queue full. Answers what is left of the offer, the queues, and whether it stopped. -/
def bankOffer : List Nat → List Nat → List Nat → List Nat × List Nat × Bool
  | [], _, q => ([], q, false)
  | p :: t, room, q =>
    let b := p % 16
    if 0 < room.getD b 0 then bankOffer t (room.set b (room.getD b 0 - 1)) q
    else if q.getD b 0 < 8 then bankOffer t room (q.set b (q.getD b 0 + 1))
    else (p :: t, q, true)

/-- Cycles of the adder until all positions are offered: at most 16 consecutive groups and 64 values a cycle, and 4 updates a bank, its conflict queue
first. Answers the queues and how many cycles had their offer stopped. n bounds the cycles. -/
def bankRun : Nat → List Nat → List Nat → Nat → List Nat × Nat
  | 0, _, q, stalls => (q, stalls)
  | n + 1, ps, q, stalls =>
    match ps with
    | [] => (q, stalls)
    | p :: _ =>
      let room := (List.range 16).map (fun b => 4 - q.getD b 0)
      let rest := (List.range 16).map (fun b => q.getD b 0 - 4)
      let offer := (ps.takeWhile (fun x => decide (x / 8 < p / 8 + 16))).take 64
      let (left, q, stop) := bankOffer offer room rest
      bankRun n (left ++ ps.drop offer.length) q (stalls + if stop then 1 else 0)

/-- A tile with values at the positions given is offered to core c's Bead adder: how many cycles had their offer stopped. The cycles since the last tile,
in which the queues drained, are a free value (log entry 69). -/
def offerTile (c : Nat) (ps : List Nat) (s : State) : Nat × State :=
  let q := (s.core c).cq
  let (q, s) := if q = [] then (rep 16 0, s) else (q.map (· - 4 * s.freeVal.toNat), s.freed)
  let (q, n) := bankRun 256 ps q 0
  (n, s.modCore c (fun k => { k with cq := if q.all (· = 0) then [] else q }))

-- Sparse tiles (R133) ---------------------------------------------------------------------------------------------

/-- tile_values (R133): the 256 contributions of a tile, decoded. -/
def tileValues (f : Fmt) (bs : List Byte) : List Dec :=
  if tileDense bs then decodeElems f (bs.drop 4) 0 256
  else
    let base := 16 + tilePos (tileSum bs)
    (tilePlaces bs).foldl (fun l p => l.set p.1 (decodeElem f (rawElem f (bs.drop base) p.2).1 0)) (rep 256 ⟨.zero, false⟩)

/-- The positions of a tile's values in group order: those that a compressed tile lists, or all. -/
def tilePositions (bs : List Byte) : List Nat := if tileDense bs then List.range 256 else (tilePlaces bs).map Prod.fst

/-- A repeat of BSCAT: one tile enters 256 slots; the order in which banks apply the updates changes no bit (R137). Its stopped cycles are counted
nowhere: CQSTALL is kept for each group, and BSCAT has none (DEDUCED, log entry 69). -/
def bscatRep (c : Nat) (h : Cmd) (r : Nat) (s : State) : State :=
  let s := codeHazard c h r s
  let f := cwFinF h.w
  let bs := Mem.rd (s.core c).rmem 0 (h.xAddr r) 1028
  let ds := tileValues f bs
  let s := (offerTile c (tilePositions bs) s).2
  let v1 := (s.core c).vreg (cwV1 h.w)
  let (s, t) := enterBeads c f.isInt (blockCodeOf h v1) (h.yAddr r) (ds.map Dec.cls) s
  addCoreTal c (cwTset h.w) (t.add (Tal.sum (ds.map Dec.tal))) s

-- Meanings ----------------------------------------------------------------------------------------------------------

/-- One issue slot per repeat, doing nothing (Table 3.7). -/
def execVnop (c : CoreId) (s : State) : Host.Outcome State Fault Refusal :=
  vqRun c 0x00 vqFree
    (fun _ _ s => s) s

/-- VD = 256 bytes at ARX, 4-byte aligned; visible 6 slots later (Table 3.7). -/
def execVld (c : CoreId) (s : State) : Host.Outcome State Fault Refusal :=
  vqRun c 0x01 (vqMem 4 256)
    (fun h r s => let bs := Mem.rd (s.core c).rmem 0 (h.xAddr r) 256
      vecOp c h r [] 6 (fun _ => lanesOf (fun i => leAt bs (4 * i) 4)) s) s

/-- 256 bytes at ARX = VS1 (Table 3.7). -/
def execVst (c : CoreId) (s : State) : Host.Outcome State Fault Refusal :=
  vqRun c 0x02 (vqMem 1 256)
    (fun h r s => vecStore c h r (fun v => (v.map (fun l => bytesLE 4 l.toNat)).flatten) s) s

/-- Every lane = IMM (Table 3.7). -/
def execVbcast (c : CoreId) (s : State) : Host.Outcome State Fault Refusal :=
  vqRun c 0x03 vqFree
    (fun h r s => vecOp c h r [] 1 (fun _ => lanesOf (fun _ => cwImm h.w)) s) s

/-- Lane-wise sum modulo 2^32 (Table 3.7). -/
def execViadd (c : CoreId) (s : State) : Host.Outcome State Fault Refusal :=
  vqRun c 0x04 vqFree
    (fun h r s => vec2 c h r 2 (fun a b => a + b) s) s

/-- Lane-wise difference modulo 2^32 (Table 3.7). -/
def execVisub (c : CoreId) (s : State) : Host.Outcome State Fault Refusal :=
  vqRun c 0x05 vqFree
    (fun h r s => vec2 c h r 2 (fun a b => a - b) s) s

/-- Lane-wise product modulo 2^32 (Table 3.7). -/
def execVimul (c : CoreId) (s : State) : Host.Outcome State Fault Refusal :=
  vqRun c 0x06 vqFree
    (fun h r s => vec2 c h r 4 (fun a b => a * b) s) s

/-- Lane-wise AND (Table 3.7). -/
def execVand (c : CoreId) (s : State) : Host.Outcome State Fault Refusal :=
  vqRun c 0x07 vqFree
    (fun h r s => vec2 c h r 2 (fun a b => a &&& b) s) s

/-- Lane-wise OR (Table 3.7). -/
def execVor (c : CoreId) (s : State) : Host.Outcome State Fault Refusal :=
  vqRun c 0x08 vqFree
    (fun h r s => vec2 c h r 2 (fun a b => a ||| b) s) s

/-- Lane-wise XOR (Table 3.7). -/
def execVxor (c : CoreId) (s : State) : Host.Outcome State Fault Refusal :=
  vqRun c 0x09 vqFree
    (fun h r s => vec2 c h r 2 (fun a b => a ^^^ b) s) s

/-- Left shift by VS2[4:0] (Table 3.7). -/
def execVshl (c : CoreId) (s : State) : Host.Outcome State Fault Refusal :=
  vqRun c 0x0A vqFree
    (fun h r s => vec2 c h r 2 (fun a b => a <<< (b.toNat % 32)) s) s

/-- Right shift by VS2[4:0]: MODE 0 logical, 1 arithmetic (Table 3.7). -/
def execVshr (c : CoreId) (s : State) : Host.Outcome State Fault Refusal :=
  vqRun c 0x0B vqFree
    (fun h r s => vec2 c h r 2 (fun a b =>
      if cwMode h.w = 0 then a >>> (b.toNat % 32) else a.sshiftRight (b.toNat % 32)) s) s

/-- Lane-wise minimum: MODE 0 signed, 1 unsigned, 2 FP32 (Table 3.7). -/
def execVmin (c : CoreId) (s : State) : Host.Outcome State Fault Refusal :=
  vqRun c 0x0C vqFree
    (fun h r s => vecSel c h r true s) s

/-- Lane-wise maximum: MODE 0 signed, 1 unsigned, 2 FP32 (Table 3.7). -/
def execVmax (c : CoreId) (s : State) : Host.Outcome State Fault Refusal :=
  vqRun c 0x0D vqFree
    (fun h r s => vecSel c h r false s) s

/-- Lane = all ones if the relation holds, else 0: MODE 0 equal, 1 signed less, 2 unsigned less, 3 FP32 less (Table 3.7). -/
def execVcmp (c : CoreId) (s : State) : Host.Outcome State Fault Refusal :=
  vqRun c 0x0E vqFree
    (fun h r s => vec2 c h r 2 (fun a b =>
      let p := match cwMode h.w with
        | 0 => a == b
        | 1 => a.slt b
        | 2 => a.ult b
        | _ => fp32Lt a.toNat b.toNat
      if p then BitVec.allOnes 32 else 0) s) s

/-- Lane = VS1 where VS3 is nonzero, else VS2 (Table 3.7). -/
def execVsel (c : CoreId) (s : State) : Host.Outcome State Fault Refusal :=
  vqRun c 0x0F vqFree
    (fun h r s => vec3 c h r 2 (fun a b z => if z = 0 then b else a) s) s

/-- FP32 VS1 + VS2 (Table 3.7, R37). -/
def execVfadd (c : CoreId) (s : State) : Host.Outcome State Fault Refusal :=
  vqRun c 0x10 vqFree
    (fun h r s => vec2 c h r 4 (fun a b => BitVec.ofNat 32 (fp32Add a.toNat b.toNat)) s) s

/-- FP32 VS1 × VS2 (Table 3.7, R37). -/
def execVfmul (c : CoreId) (s : State) : Host.Outcome State Fault Refusal :=
  vqRun c 0x11 vqFree
    (fun h r s => vec2 c h r 4 (fun a b => BitVec.ofNat 32 (fp32Mul a.toNat b.toNat)) s) s

/-- FP32 VS1 × VS2 + VS3 with one rounding (Table 3.7, R37). -/
def execVffma (c : CoreId) (s : State) : Host.Outcome State Fault Refusal :=
  vqRun c 0x12 vqFree
    (fun h r s => vec3 c h r 4 (fun a b z => BitVec.ofNat 32 (fp32Fma a.toNat b.toNat z.toNat)) s) s

/-- Convert the element in the low bits of each lane from FIN to FOUT (Table 3.7, R89). -/
def execVcvt (c : CoreId) (s : State) : Host.Outcome State Fault Refusal :=
  vqRun c 0x13 vqFree
    (fun h r s => vecOp c h r [cwV1 h.w] 3 (fun vs => lanesOf (fun i =>
      convertVal (cwFoutF h.w) (decodeElem (cwFinF h.w) (bitsOf (laneOf (vs.getD 0 []) i).toNat 0 (cwFinF h.w).width) 0).cls)) s) s

/-- Decode 64 elements at ARX to FP32 lanes (Table 3.7, R89). -/
def execVunpk (c : CoreId) (s : State) : Host.Outcome State Fault Refusal :=
  vqRun c 0x14 (fun k h r => vqMem 1 ((cwFinF h.w).tensorBytes 64) k h r)
    (fun h r s => let ds := elems64 c h r s
      vecOp c h r [] 7 (fun _ => lanesOf (fun i => convertVal .fp32 ((ds.map Dec.cls).getD i .zero))) s) s

/-- Encode 64 FP32 lanes at ARX (Table 3.7, R89). -/
def execVpack (c : CoreId) (s : State) : Host.Outcome State Fault Refusal :=
  vqRun c 0x15 (fun k h r => vqMem 1 ((cwFoutF h.w).tensorBytes 64) k h r)
    (fun h r s => vecStore c h r (fun v => packLanes (cwFoutF h.w) v) s) s

/-- Lane i = VS1 lane VS2[i][5:0] (Table 3.7). -/
def execVperm (c : CoreId) (s : State) : Host.Outcome State Fault Refusal :=
  vqRun c 0x16 vqFree
    (fun h r s => vecOp c h r [cwV1 h.w, cwV2 h.w] 3 (fun vs => (List.range 64).map (fun i =>
      laneOf (vs.getD 0 []) ((laneOf (vs.getD 1 []) i).toNat % 64))) s) s

/-- The fixed-point exp2q of each lane (Table 3.7, R185). -/
def execVexp2 (c : CoreId) (s : State) : Host.Outcome State Fault Refusal :=
  vqRun c 0x17 vqFree
    (fun h r s => vecOp c h r [cwV1 h.w] 6 (fun vs => lanesOf (fun i => exp2q (laneOf (vs.getD 0 []) i).toNat)) s) s

/-- Lane 0 = maximum over all lanes (MODE as VMIN), other lanes 0 (Table 3.7). -/
def execVrmax (c : CoreId) (s : State) : Host.Outcome State Fault Refusal :=
  vqRun c 0x18 vqFree
    (fun h r s => vecMax c h r s) s

/-- Lanes 0 and 1 = the larger of VS1 and the block code of each block of 32 elements, or of their products with the gate; other lanes are VS1's (Table 3.7, R41, R50). -/
def execBexp (c : CoreId) (s : State) : Host.Outcome State Fault Refusal :=
  vqRun c 0x20 (fun k h r => vqMem 4 ((cwFinF h.w).tensorBytes 64) k h r)
    (fun h r s => bexpRep c h r s) s

/-- Slots ARY to ARY + 63 += the 64 elements at ARX converted in (Table 3.7, R89). -/
def execBacc (c : CoreId) (s : State) : Host.Outcome State Fault Refusal :=
  vqRun c 0x21 (beadArgs c 4 64 (fun h => (cwFinF h.w).tensorBytes 64))
    (fun h r s => enterRep c h r none s) s

/-- As BACC, each element multiplied exactly by the gate (Table 3.7, R50). -/
def execBmac (c : CoreId) (s : State) : Host.Outcome State Fault Refusal :=
  vqRun c 0x22 (beadArgs c 4 64 (fun h => (cwFinF h.w).tensorBytes 64))
    (fun h r s => bmacRep c h r s) s

/-- Slots += the 64 Bead partials at ARX in the 16-byte form (Table 3.7). -/
def execBaddp (c : CoreId) (s : State) : Host.Outcome State Fault Refusal :=
  vqRun c 0x23 (beadArgs c 16 64 (fun _ => 1024))
    (fun h r s => let bs := Mem.rd (s.core c).rmem 0 (h.xAddr r) 1024
      s.modCore c (fun k => addBeads k (h.yAddr r) ((List.range 64).map (fun i => (beadAt bs (16 * i)).toInt)))) s

/-- The 64 elements at ARX = slots ARY to ARY + 63 converted out (Table 3.7, R51 to R55). -/
def execBout (c : CoreId) (s : State) : Host.Outcome State Fault Refusal :=
  vqRun c 0x24 (beadArgs c 4 64 (fun h => (cwFoutF h.w).tensorBytes 64))
    (fun h r s => boutRep c h r s) s

/-- 64 Beads in the 16-byte form at ARX = slots (Table 3.7). -/
def execBst (c : CoreId) (s : State) : Host.Outcome State Fault Refusal :=
  vqRun c 0x25 (beadArgs c 16 64 (fun _ => 1024))
    (fun h r s => s.modCore c (fun k => k.wrMem (h.xAddr r) (k.beadBytes (h.yAddr r) 64))) s

/-- Slots and their NONFIN flags = 0 (Table 3.7, R62). -/
def execBclr (c : CoreId) (s : State) : Host.Outcome State Fault Refusal :=
  vqRun c 0x26 (beadArgs c 0 64 (fun _ => 0))
    (fun h r s => s.modCore c (fun k => clearBeads k (h.yAddr r) 64)) s

/-- The Tally set TSET as a 32-byte record at ARX; the set is then cleared (Table 3.7, R58). -/
def execBtal (c : CoreId) (s : State) : Host.Outcome State Fault Refusal :=
  vqRun c 0x27 (vqMem 4 32)
    (fun h r s => s.modCore c (fun k => (k.wrMem (h.xAddr r) (k.tally (cwTset h.w)).record).clearTally (cwTset h.w))) s

/-- Add one sparse tile at ARX into slots ARY to ARY + 255 (Table 3.7, R137). -/
def execBscat (c : CoreId) (s : State) : Host.Outcome State Fault Refusal :=
  vqRun c 0x28 (fun k h r => beadArgs c 4 256 (fun _ => tileBytes (cwFinF h.w) (Mem.rd (k.core c).rmem 0 (h.xAddr r) 1028)) k h r)
    (fun h r s => bscatRep c h r s) s

end Sys2Proof.Machine
end

