-- ==== Sys2Proof/Machine/Spans.lean ====
section
/-!
DEFINITION. What the commands of the tensor engine, the Strainer and the memory engine read and write in Rod memory (Tables 3.9, 3.11 and 6.1): sizes,
kept records, and the spans by which unsynchronised sharing is found (R83).
-/
namespace Sys2Proof.Machine

open Sys2Proof

-- TMM -------------------------------------------------------------------------------------------------------------

/-- K = 32 × XARG[9:0]. -/
def tmmK (h : Cmd) : Nat := 32 * (cwXarg h.w % 1024)

/-- Bytes of an operand A or B: 32 rows of K elements, each row a sequence of whole groups in an MX format (R36). -/
def tmmInBytes (h : Cmd) : Nat := 32 * (cwFinF h.w).tensorBytes (tmmK h)

/-- Bytes of C: 32 × 32 elements, or the 64-byte header and 1,024 Beads of 16 bytes (R93). -/
def tmmOutBytes (h : Cmd) : Nat := if cwFoutF h.w = .bead then 64 + 16384 else 1024 * (cwFoutF h.w).width / 8

/-- The spans of a TMM repeat. -/
def tmmSpans (h : Cmd) (r : Nat) : List Span :=
  [(h.xAddr r, tmmInBytes h, false), (h.yAddr r, tmmInBytes h, false), (h.zAddr r, tmmOutBytes h, cwImm h.w % 2 = 0 || tmmK h ≠ 0)] ++
    (if cwImm h.w % 2 = 1 then [(h.zAddr r, tmmOutBytes h, false)] else [])

-- The Strainer ----------------------------------------------------------------------------------------------------

/-- MODE of a Strainer command. -/
def sqMode (h : Cmd) : Nat := cwMode h.w
/-- XARG[11]: ascending order. -/
def sqAsc (h : Cmd) : Bool := cwXarg h.w / 2048 = 1
/-- K = XARG[10:0]; 0 keeps all n. -/
def sqK (h : Cmd) (n : Nat) : Nat := if cwXarg h.w % 2048 = 0 then n else min n (cwXarg h.w % 2048)
/-- IMM[15:0]. -/
def immLo (h : Cmd) : Nat := cwImm h.w % 65536
/-- IMM[31:16]. -/
def immHi (h : Cmd) : Nat := cwImm h.w / 65536

/-- The records at ARX, IMM of them. -/
def sqRecs (c : Nat) (s : State) (a n : Nat) : List SRec := srecsOf (Mem.rd (s.core c).rmem 0 a (8 * n)) n

/-- The 32-bit values at an address. -/
def sqWords (c : Nat) (s : State) (a n : Nat) : List Nat :=
  let bs := Mem.rd (s.core c).rmem 0 a (4 * n)
  (List.range n).map (fun i => leAt bs (4 * i) 4)

/-- What SFILT keeps: the records in relation XARG[1:0] to the threshold, in input order (R179, R180). -/
def sfiltKeep (h : Cmd) (l : List SRec) (thr : Nat) : List SRec :=
  l.filter (fun r => sfiltRel (sqMode h) (sqAsc h) (cwXarg h.w % 4) r.key thr)

/-- The records SFILT keeps in repeat r. -/
def sfiltOut (c : Nat) (s : State) (h : Cmd) (r : Nat) : List SRec :=
  sfiltKeep h (sqRecs c s (h.xAddr r) (cwImm h.w)) (Mem.rdN (s.core c).rmem 0 (h.zAddr r) 4)

/-- The elements SCOMP keeps in repeat r: those whose mask is nonzero (Table 6.1). -/
def scompOut (c : Nat) (s : State) (h : Cmd) (r : Nat) : List Nat :=
  (((sqWords c s (h.xAddr r) (cwImm h.w)).zip (sqWords c s (h.zAddr r) (cwImm h.w))).filter (fun p => p.2 ≠ 0)).map Prod.fst

/-- The bytes that repeat r of a Strainer command reads (Table 6.1): where, and how many. -/
def sqReads (h : Cmd) (r : Nat) : List (Nat × Nat) :=
  let x := h.xAddr r
  let z := h.zAddr r
  let n := cwImm h.w
  match cwOpc h.w with
  | 0x01 => [(x, 8 * n)]
  | 0x02 => [(x, 8 * immLo h), (z, 8 * immHi h)]
  | 0x03 => [(x, 8 * n), (z, 8)]
  | 0x04 => [(x, 4 * n), (z, 4 * n)]
  | 0x05 => [(x, 4 * n)]
  | 0x06 => [(x, 8 * immLo h), (z, 8)]
  | _ => []

/-- The bytes that repeat r of a Strainer command writes at ARY (Table 6.1). -/
def sqWrites (c : Nat) (s : State) (h : Cmd) (r : Nat) : Nat × Nat :=
  let n := cwImm h.w
  (h.yAddr r, match cwOpc h.w with
    | 0x01 => 8 * sqK h n
    | 0x02 => 8 * sqK h (immLo h + immHi h)
    | 0x03 => 8 + 8 * (sfiltOut c s h r).length
    | 0x04 => 8 + 4 * (scompOut c s h r).length
    | 0x05 => 8 * n
    | _ => 8)

-- The memory engine -----------------------------------------------------------------------------------------------

/-- The spaces of ARX and ARY. -/
def mqX (h : Cmd) : Nat := cwXarg h.w % 4
/-- As mqX, for ARY. -/
def mqY (h : Cmd) : Nat := cwXarg h.w / 4 % 4

/-- Bytes that MFILL writes. -/
def mfillLen (h : Cmd) : Nat := cwXarg h.w / 16 * 64

/-- The 64 indices of an MGATHER repeat (Table 3.11). -/
def mgatherIdx (c : Nat) (h : Cmd) (r : Nat) (s : State) : List Int :=
  let bs := Mem.rd (s.core c).rmem 0 (h.zAddr r) 256
  (List.range 64).map (fun i => sext (leAt bs (4 * i) 4) 32)

/-- The spans of an MQ repeat in the core's own Rod memory. -/
def mqSpans (c : Nat) (s : State) (h : Cmd) (r : Nat) : List Span :=
  let n := cwImm h.w
  let own (space : Nat) (l : List Span) : List Span := if space = 0 then l else []
  match cwOpc h.w with
  | 0x01 => own (mqX h) [(h.xAddr r, n, false)] ++ own (mqY h) [(h.yAddr r, n, true)]
  | 0x02 => own (mqY h) [(h.yAddr r, mfillLen h, true)]
  | _ => [((h.zAddr r : Nat), 256, false)] ++ own (mqX h) ((mgatherIdx c h r s).map (fun i => (((h.xAddr r : Int) + i * n).toNat, n, false))) ++
      own (mqY h) [(h.yAddr r, 64 * n, true)]

/-- The spans of Rod memory that a command of queue q touches in the repeats given. -/
def cmdSpans (c q : Nat) (h : Cmd) (rs : List Nat) (s : State) : List Span :=
  (rs.flatMap (fun r => match q with
    | 1 => tmmSpans h r
    | 2 => (sqReads h r).map (fun a => (a.1, a.2, false)) ++ [((sqWrites c s h r).1, (sqWrites c s h r).2, true)]
    | _ => mqSpans c s h r)).filter (fun sp => 0 < sp.2.1)

end Sys2Proof.Machine
end

