-- ==== Sys2Proof/Machine/Tensor.lean ====
section
/-!
DEFINITION. The tensor engine (R91 to R95), and what the engines share that execute one command at a time: issue, checks,
completion.
-/
namespace Sys2Proof.Machine

open Sys2Proof

-- One command at a time ----------------------------------------------------------------------------------------

/-- The command is in execution in queue q. -/
def cmdEnter (c q : Nat) (h : Cmd) (s : State) : State :=
  s.modCore c (fun k => { (k.setQueue q { k.queue q with fly := [{ cmd := h, id := k.nextId, left := List.range (cwCount h.w), since := s.now }] }) with
    nextId := k.nextId + 1 })

/-- What the repeats of the command in execution in queue q do, with R83 for the bytes of Rod memory that they touch. -/
def cmdReps (c q : Nat) (rep : Cmd → Nat → State → State) (f : Fly) (s : State) : State :=
  sharedDo c q (cmdSpans c q f.cmd f.left s) (eachDo f.left (rep f.cmd)) s

/-- The command in execution in queue q takes its effect repeat by repeat, leaves the queue, and signals its token. -/
def cmdLeave (c q : Nat) (rep : Cmd → Nat → State → State) (f : Fly) (s : State) : State :=
  signalDone c q f.cmd ((cmdReps c q rep f s).modCore c (fun k =>
    (k.setQueue q { k.queue q with fly := (k.queue q).fly.drop 1 }).worked f.since s.now s.now))

/-- The head command of queue q issues where the queue has nothing in execution. An empty command completes at once (R78); operands that
fail the check in any repeat put the core in FAULT with CMD_RANGE and nothing is performed; otherwise the command is in execution. -/
def startCmd (c : CoreId) (q opc : Nat) (chk : State → Cmd → Nat → Bool) (s : State) : Host.Outcome State Fault Refusal :=
  match s.issuable c q with
  | some h =>
    actIf (cwOpc h.w = opc && ((s.core c).queue q).fly.isEmpty) (fun s =>
      let s := popHead c q s
      if cwCount h.w = 0 then signalDone c q h (countEmpty c s)
      else if (List.range (cwCount h.w)).all (chk s h) then cmdEnter c q h s
      else coreFault c .cmdRange q h.pc s) s
  | none => .next s

/-- The command in execution in queue q, which must have opcode opc, takes its effect repeat by repeat and completes (R79). It finishes
even where the core is in FAULT (R100) or the device holds (Table 12.8). -/
def finishCmd (c : CoreId) (q opc : Nat) (rep : Cmd → Nat → State → State) (s : State) : Host.Outcome State Fault Refusal :=
  match ((s.core c).queue q).fly with
  | f :: _ => actIf (cwOpc f.cmd.w = opc && s.finishing c) (cmdLeave c q rep f) s
  | [] => .next s

/-- A command that does nothing and completes at issue. -/
def nopCmd (c : CoreId) (q : Nat) (s : State) : Host.Outcome State Fault Refusal :=
  match s.issuable c q with
  | some h =>
    actIf (cwOpc h.w = 0 && ((s.core c).queue q).fly.isEmpty) (fun s =>
      let s := popHead c q s
      signalDone c q h (if cwCount h.w = 0 then countEmpty c s else s)) s
  | none => .next s

-- TMM -------------------------------------------------------------------------------------------------------------

/-- ACC, bit 0 of IMM. -/
def tmmAcc (h : Cmd) : Bool := cwImm h.w % 2 = 1

/-- The exponent code of the rows of MODE 1: ECODE, and for INT8, whose E is 70 in both modes, its code 0xB6 (R44, R93; DEDUCED, log entry 52). -/
def tmmCode (h : Cmd) : Nat := if cwFin h.w = 5 then 0xB6 else cwEcode h.w

/-- The operands of a TMM repeat (R91): 64-byte aligned and below 0x8_0000; with ACC and FOUT = BEAD each header byte is 0x00,
ECODE or 0xFF (R93). -/
def tmmOk1 (c : Nat) (s : State) (h : Cmd) (r : Nat) : Bool :=
  let ok (a n : Nat) : Bool := a % 64 = 0 && decide (a < 0x80000 ∧ a + n ≤ 0x80000)
  ok (h.xAddr r) (tmmInBytes h) && ok (h.yAddr r) (tmmInBytes h) && ok (h.zAddr r) (tmmOutBytes h) &&
  (!(tmmAcc h && cwFoutF h.w = .bead) ||
    (Mem.rd (s.core c).rmem 0 (h.zAddr r) 32).all (fun b => b.toNat = 0 || b.toNat = tmmCode h || b.toNat = 0xFF))

/-- The 32 rows of an operand, decoded. -/
def tmmRows (f : Fmt) (bs : List Byte) (k : Nat) : List (List Dec) :=
  (List.range 32).map (fun i => decodeElems f (bs.drop (i * f.tensorBytes k)) 0 k)

/-- One output position of MODE 0 in floating point: groups of 32 products, one rounding each (R92). A NONFIN factor has no value: its product adds
nothing to the sum, and the clamps and flushes of the position's loop count though its output is NaN (DEDUCED, log entry 124). -/
def tmmFp (fo : Fmt) (a b : List Cls) (c0 : Cls) (groups : Nat) : Nat × Tal :=
  let ps := (a.zip b).map (fun x => x.1.mul x.2)
  let bad := a.contains .nonfin || b.contains .nonfin || c0 = .nonfin
  let (acc, t) := (List.range groups).foldl (fun (st : Dy × Tal) g =>
    let sum := ((ps.drop (32 * g)).take 32).foldl (fun x p => x.add p.val) st.1
    let (bits, t) := roundFloat .fp32 sum
    ((decodeElem .fp32 bits 0).cls.val, st.2.add t)) (c0.val, ({} : Tal))
  let (y, t2) := if bad then (nanOut fo, {}) else roundFloat fo acc
  let t := t.add t2
  (y, { satOut := min 1 t.satOut, flushOut := min 1 t.flushOut })

/-- One output position of MODE 0 with INT8 inputs: exact, clamped to INT32 (R92). -/
def tmmInt (a b : List Cls) (c0 : Int) : Nat × Tal :=
  roundInt .int32 (((a.zip b).foldl (fun (x : Dy) p => x.add (p.1.mul p.2).val) (Dy.ofInt c0)))

/-- MODE 0: the 32 × 32 outputs and the events (R92). -/
def tmmMode0 (h : Cmd) (A B : List (List Cls)) (C : List Dec) : List Byte × Tal :=
  let fo := cwFoutF h.w
  let outs := (List.range 1024).map (fun n =>
    let a := A.getD (n / 32) []
    let b := B.getD (n % 32) []
    let c0 := if tmmAcc h then ((C.map Dec.cls).getD n .zero) else .zero
    if cwFin h.w = 5 then tmmInt a b c0.val.rne else tmmFp fo a b c0 (tmmK h / 32))
  (elBytes fo (outs.map Prod.fst), Tal.sum (outs.map Prod.snd))

/-- One row of MODES 1 and 2: the products and, with ACC, the old elements of C enter the row's Beads; the row's code, sums and events
(R93). free gives the sums of a NONFINITE row in MODE 2, which nothing fixes (log entry 6). -/
def tmmRow (h : Cmd) (a : List Cls) (B : List (List Cls)) (cOld : List Cls) (beadsOld : List Bead) (hdr : Nat) (free : Nat → Bead) :
    Nat × List Bead × Tal :=
  let ps := B.map (fun b => (a.zip b).map (fun x => x.1.mul x.2))
  let dyn := cwMode h.w = 2
  let bad := ps.any (fun l => l.contains .nonfin) || cOld.contains .nonfin || hdr = 0xFF
  let fixed := tmmCode h
  let code := if bad then 0xFF else if dyn && cwFin h.w ≠ 5 then blockCode ps.flatten else fixed
  if dyn && bad then (0xFF, (List.range 32).map free, {})
  else
    let E := codeE (if dyn then code else fixed)
    let rows := (List.range 32).map (fun j =>
      let es := ((ps.getD j []) ++ (cOld[j]?).toList).map (fun x => x.enter E)
      (es.foldl (fun b e => beadAdd b e.1) (beadsOld.getD j 0), Tal.sum (es.map Prod.snd)))
    (code, rows.map Prod.fst, Tal.sum (rows.map Prod.snd))

/-- MODES 1 and 2: the bytes of C and the events (R93). free gives the sums that row i leaves open. -/
def tmmBead (h : Cmd) (A B : List (List Cls)) (C : List Dec) (old : List Byte) (free : Nat → Nat → Bead) : List Byte × Tal :=
  let fo := cwFoutF h.w
  let acc := tmmAcc h
  let rows := (List.range 32).map (fun i =>
    let cOld := if acc && fo ≠ .bead then ((C.map Dec.cls).drop (32 * i)).take 32 else []
    let bOld := if acc && fo = .bead then (List.range 32).map (fun j => beadAt old (64 + 16 * (32 * i + j))) else []
    let hdr := if acc && fo = .bead then leAt old i 1 else 0
    tmmRow h (A.getD i []) B cOld bOld hdr (free i))
  let t := Tal.sum (rows.map (fun r => r.2.2))
  if fo = .bead then
    (rows.map (fun r => BitVec.ofNat 8 r.1) ++ rep 32 0 ++ (rows.map (fun r => (r.2.1.map beadMem).flatten)).flatten, t)
  else
    let outs := rows.map (fun r => blockOut fo r.1 r.2.1)
    (blocksBytes fo (outs.map Prod.fst), t.add (Tal.sum (outs.map Prod.snd)))

/-- A tile: the bytes of C and the events, from the bytes of A, of B and of the old C (R92 to R94). A K of zero leaves C unchanged with ACC; otherwise it
gives +0, and in MODES 1 and 2 each of the 32 rows is a block without a contribution (R55), or ZERO-coded Beads. -/
def tmmTile (h : Cmd) (a b old : List Byte) : List Byte × Tal :=
  let fi := cwFinF h.w
  let fo := cwFoutF h.w
  if tmmK h = 0 then
    if tmmAcc h then (old, {}) else (rep (tmmOutBytes h) 0, { blocks := if cwMode h.w ≠ 0 && fo ≠ .bead then 32 else 0 })
  else
    let A := tmmRows fi a (tmmK h)
    let B := tmmRows fi b (tmmK h)
    let C := if tmmAcc h && fo ≠ .bead then decodeElems fo old 0 1024 else []
    let Ac := A.map (fun l => l.map Dec.cls)
    let Bc := B.map (fun l => l.map Dec.cls)
    let n := fi.tensorBytes (tmmK h)
    let free (i j : Nat) : Bead := Config.openSum ((a.drop (i * n)).take n) b j
    let (out, t) := if cwMode h.w = 0 then tmmMode0 h Ac Bc C else tmmBead h Ac Bc C old free
    (out, t.add (Tal.sum ((A.flatten ++ B.flatten ++ C).map Dec.tal)))

/-- One repeat of TMM: C is written, the events are counted, the tile may be sampled (R92 to R94, R352). -/
def tmmRep (c : Nat) (h : Cmd) (r : Nat) (s : State) : State :=
  let k := s.core c
  let a := Mem.rd k.rmem 0 (h.xAddr r) (tmmInBytes h)
  let b := Mem.rd k.rmem 0 (h.yAddr r) (tmmInBytes h)
  let old := if tmmAcc h then Mem.rd k.rmem 0 (h.zAddr r) (tmmOutBytes h) else []
  let (out, t) := tmmTile h a b old
  let s := addCoreTal c (cwTset h.w) t (s.setCore c (k.wrMem (h.zAddr r) out))
  shadowSample 2 c 0 (BitVec.ofNat 64 r) k.step (.tile h.w a b old) out s

/-- A TQ command that does nothing (Table 3.9). -/
def execTnop (c : CoreId) (s : State) : Host.Outcome State Fault Refusal := nopCmd c 1 s

/-- TMM issues (R91); pacing only delays the issue (R95). -/
def execTmm (c : CoreId) (s : State) : Host.Outcome State Fault Refusal := startCmd c 1 0x01 (tmmOk1 c) s

/-- TMM has written C and signals its token (Table 3.9). -/
def execTmmComplete (c : CoreId) (s : State) : Host.Outcome State Fault Refusal := finishCmd c 1 0x01 (tmmRep c) s

end Sys2Proof.Machine
end

