-- ==== Sys2Proof/Machine/MemEng.lean ====
section
/-!
DEFINITION. The memory engine of a Rod core (R98, Table 3.11): MNOP, MCOPY, MFILL and MGATHER.
-/
namespace Sys2Proof.Machine

open Sys2Proof

/-- The STATE of a core, RUN, STEPWAIT or HALTED, forbids window writes into its instruction memory (R63). -/
def State.imemLocked (s : State) (c : Nat) : Bool := [2, 3, 4].contains (s.core c).stateCode

/-- An MQ access of n bytes at an address of a space is permitted (R98): aligned to 64 bytes, within the core's Rod memory, or within HBM regions
and Rod windows of the core's Brew; a write never reaches the instruction memory of a core that may be fetching (R63). -/
def mqOk (c space : Nat) (write : Bool) (a : Int) (n : Nat) (s : State) : Bool :=
  decide (0 ≤ a) &&
    (let x := a.toNat
     x % 64 = 0 &&
      (if space = 0 then decide (x + n ≤ 0x80000)
       else match s.brewOf c with
         | none => false
         | some k =>
           let mine (d : Nat) : Bool := match s.brews.lk none k with
             | some b => b.cores.contains d
             | none => false
           match placeOf x with
           | .hbm o => decide (o + n ≤ hbmSize) && s.granted k o n
           | .rod d o => mine d && decide (o + n ≤ 0x80000)
           | .imem d o => mine d && decide (o + n ≤ 0x10000) && !(write && s.imemLocked d)
           | _ => false))

/-- Read n bytes of a space. What an ECC word with an uncorrectable error or a stack out of service gives is a free value. -/
def mqRd (c space a n : Nat) (s : State) : List Byte :=
  if space = 0 then Mem.rd (s.core c).rmem 0 a n
  else match placeOf a with
    | .hbm o => (List.range n).map (fun i =>
        if s.hbmBad (o + i) || s.hbmGone (o + i) then (Config.freeWord (s.free + i)).truncate 8 else s.hbm.lk 0 (o + i))
    | _ => s.memRd a n

/-- A read of n bytes of a space happens: foreign accesses are counted, and free values are used up. -/
def mqTouch (space a n : Nat) (write : Bool) (s : State) : State :=
  if space = 0 then s
  else match placeOf a with
    | .hbm o => { (hbmAccess s.net.fnid write o n s).2 with free := if write then s.free else s.free + n }
    | .rod d o => if write then s else windowDo d [(o, n, false)] id s
    | _ => s

/-- Write bytes to a space; a stack out of service takes none. -/
def mqWr (c space a : Nat) (bs : List Byte) (s : State) : State :=
  if space = 0 then s.modCore c (fun k => k.wrMem a bs)
  else
    let s := mqTouch space a bs.length true s
    match placeOf a with
    | .hbm o => eachDo ((List.range bs.length).filter (fun i => !s.hbmGone (o + i))) (fun i s =>
        { s with hbm := s.hbm.put 0 (o + i) (bs.getD i 0) }) (spoilHbm o bs.length (if s.hbmOut = [] then hbmHeal o bs.length s else s))
    | _ => windowWr a bs s

/-- n bytes are copied from one space to another. -/
def mqCopy (c sx : Nat) (x : Nat) (sy : Nat) (y : Nat) (n : Nat) (s : State) : State :=
  let t := mqTouch sx x n false s
  mqWr c sy y (mqRd c sx x n { t with free := s.free }) t

/-- MNOP (Table 3.11). -/
def execMnop (c : CoreId) (s : State) : Host.Outcome State Fault Refusal := nopCmd c 4 s

/-- The operands of an MCOPY repeat. -/
def mcopyOk (c : Nat) (s : State) (h : Cmd) (r : Nat) : Bool :=
  mqOk c (mqX h) false (h.xAddr r) (cwImm h.w) s && mqOk c (mqY h) true (h.yAddr r) (cwImm h.w) s

/-- MCOPY issues (R98). -/
def execMcopy (c : CoreId) (s : State) : Host.Outcome State Fault Refusal := startCmd c 4 0x01 (mcopyOk c) s

/-- MCOPY has written its last byte (Table 3.11). -/
def execMcopyComplete (c : CoreId) (s : State) : Host.Outcome State Fault Refusal :=
  finishCmd c 4 0x01 (fun h r s => mqCopy c (mqX h) (h.xAddr r) (mqY h) (h.yAddr r) (cwImm h.w) s) s

/-- MFILL issues (R98). -/
def execMfill (c : CoreId) (s : State) : Host.Outcome State Fault Refusal :=
  startCmd c 4 0x02 (fun s h r => mqOk c (mqY h) true (h.yAddr r) (mfillLen h) s) s

/-- MFILL has written its last byte (Table 3.11). -/
def execMfillComplete (c : CoreId) (s : State) : Host.Outcome State Fault Refusal :=
  finishCmd c 4 0x02 (fun h r s =>
    mqWr c (mqY h) (h.yAddr r) ((rep (mfillLen h / 4) (bytesLE 4 (cwImm h.w))).flatten) s) s

/-- Row i of an MGATHER repeat may be copied: its source and its destination. -/
def mgatherRowOk (c : Nat) (h : Cmd) (r i : Nat) (idx : Int) (s : State) : Bool :=
  mqOk c (mqX h) false (h.xAddr r + idx * cwImm h.w) (cwImm h.w) s && mqOk c (mqY h) true (h.yAddr r + i * cwImm h.w) (cwImm h.w) s

/-- MGATHER issues (R98): its index list and every row lie within their spaces. -/
def execMgather (c : CoreId) (s : State) : Host.Outcome State Fault Refusal :=
  startCmd c 4 0x03 (fun s h r =>
    mqOk c 0 false (h.zAddr r) 256 s &&
      (let l := mgatherIdx c h r s
       (List.range 64).all (fun i => mgatherRowOk c h r i (l.getD i 0) s))) s

/-- One row is copied; an index that changed meanwhile and now leaves its space puts the core in FAULT (R98). -/
def mgatherRow (c : Nat) (h : Cmd) (r i : Nat) (idx : Int) (s : State) : State :=
  if mgatherRowOk c h r i idx s then
    mqCopy c (mqX h) (h.xAddr r + idx * cwImm h.w).toNat (mqY h) (h.yAddr r + i * cwImm h.w) (cwImm h.w) s
  else coreFault c .cmdRange 4 h.pc s

/-- MGATHER has written its last row (Table 3.11). -/
def execMgatherComplete (c : CoreId) (s : State) : Host.Outcome State Fault Refusal :=
  finishCmd c 4 0x03 (fun h r s =>
    let l := mgatherIdx c h r s
    eachDo (List.range 64) (fun i s => mgatherRow c h r i (l.getD i 0) s) s) s

end Sys2Proof.Machine
end

