-- ==== Sys2Proof/Machine/Forward.lean ====
section
/-!
DEFINITION. Where a frame goes (R229 to R239), its egress queue and the timing wheel's eligible times (R265 to R269), crossing between core dies
(R253), multicast (R248 to R250), and frames that the switch originates (R203, R209).
-/
namespace Sys2Proof.Machine

open Sys2Proof

-- Ports and node identifiers -----------------------------------------------------------------------------------

/-- The port faces an endpoint. -/
def Port.edge (p : Port) : Bool := p.coord.isSome

/-- DST names this switch (R201, R202): a single switch also answers to the leaf FNID with INDEX 1. -/
def State.isOwn (s : State) (n : Fnid) : Bool := n = s.net.fnid || (s.net.tier = .single && n = 0x8100)

/-- The endpoint port of this switch with a leaf and a down-port coordinate. -/
def State.downPort (s : State) (leaf coord : Nat) : Option Nat :=
  (s.net.ports.find? (fun (x : Nat × Port) => x.2.present && x.2.coord = some coord && x.2.leaf = leaf)).map Prod.fst

/-- The endpoint port of this switch behind which an endpoint lies. -/
def State.portOf (s : State) (n : Fnid) : Option Nat :=
  if fnidEndpoint n then s.downPort (fnidLeaf n) (fnidPort n) else none

/-- R326: the port's endpoints are quarantined: DISABLED, DOWN, TRAINING or PROBATION. -/
def State.portQuar (s : State) (p : Nat) : Bool := decide (s.lstate p < 4)

/-- R326: the endpoint attaches here and is quarantined. -/
def State.fnidQuar (s : State) (n : Fnid) : Bool :=
  match s.portOf n with
  | some p => s.portQuar p
  | none => false

/-- Full rate is in force on the port: UP, and not entering or leaving keepalive. -/
def State.fullRate (s : State) (p : Nat) : Bool :=
  s.lstate p = 5 && ((s.port p).ka = .none || (s.port p).ka = .asked)

/-- The port counts as up for a frame on VC v in a choice of uplink (R231, R340). -/
def State.upFor (s : State) (p v : Nat) : Bool :=
  (s.lstate p = 5 || (s.lstate p = 6 && v = 0)) && (v = 0 || s.fld F.PORT_VCCRED_LIMIT (16 * p + v) ≠ 0)

-- Route banks (R237) -------------------------------------------------------------------------------------------

/-- STATE of route bank b (Table 8.9). -/
def State.bankState (s : State) (b : Nat) : Nat := s.fld F.ROUTE_BANK_STATE b

/-- The CURRENT bank. -/
def State.curBank (s : State) : Nat := if s.bankState 1 = 2 then 1 else 0

/-- The bank in use whose EPOCH equals RTE. -/
def State.bankOf (s : State) (rte : Nat) : Option Nat :=
  [0, 1].find? (fun b => s.bankState b ≠ 0 && s.fld F.ROUTE_BANK_EPOCH b = rte)

/-- A route bank is ARMED or DRAINING (R238). -/
def State.bankBusy (s : State) : Bool := [0, 1].any (fun b => s.bankState b = 1 || s.bankState b = 3)

/-- The uplink of spine n under bank b, if VALID. -/
def State.upPortOf (s : State) (b n : Nat) : Option Nat :=
  if s.bit F.ROUTE_UPPORT_VALID (64 * b + n) then some (s.fld F.ROUTE_UPPORT_PORT (64 * b + n)) else none

/-- The peer of a port: its endpoint with SUB 0, or the switch that the CURRENT bank places there (log entry 11). -/
def State.peerFnid (s : State) (p : Nat) : Fnid :=
  match (s.port p).coord with
  | some c => BitVec.ofNat 16 ((s.port p).leaf <<< 8 + c <<< 2)
  | none =>
    let b := s.curBank
    match s.net.tier with
    | .spine =>
      match (List.range 128).find? (fun l =>
        s.bit F.ROUTE_DOWNPORT_VALID (128 * b + l) && s.fld F.ROUTE_DOWNPORT_PORT (128 * b + l) = p) with
      | some l => BitVec.ofNat 16 (0x8000 + l <<< 8)
      | none => 0x8000
    | _ =>
      match (List.range 64).find? (fun n => s.upPortOf b n = some p) with
      | some n => BitVec.ofNat 16 (0x8080 + n <<< 8)
      | none => 0x8080

-- Uplinks (R231, R232) -------------------------------------------------------------------------------------------

/-- The candidate spines toward leaf l under bank b for VC v, with their ports. -/
def State.spines (s : State) (l b v : Nat) : List (Nat × Nat) :=
  let mask := s.reg .ROUTE_UPMASK (128 * b + l)
  (List.range 64).filterMap (fun n =>
    if mask.getLsbD n then
      match s.upPortOf b n with
      | some p => if s.upFor p v then some (n, p) else none
      | none => none
    else none)

/-- Cells of the frames in a queue, staged frames apart. -/
def State.depth (s : State) (x : EgQueue) : Nat :=
  x.ents.foldl (fun n e => if e.staged then n else
    match s.buf e.buf with
    | some b => n + cellsOf b.frame.len
    | none => n) 0

/-- Queue q of a port. -/
def Port.queue (p : Port) (q : Nat) : EgQueue := p.q.lk {} q

/-- Cells queued at a port on VC v. -/
def State.vcDepth (s : State) (p v : Nat) : Nat :=
  let live (e : QEnt) : Nat := match s.buf e.buf with
    | some b => if !e.staged && b.frame.vc = v then cellsOf b.frame.len else 0
    | none => 0
  (s.port p).q.foldl (fun n (x : Nat × EgQueue) => n + (x.2.ents.map live).sum) 0

/-- R231: the uplink chosen by queue depth and the tie hash. -/
def State.adaptiveUplink (s : State) (f : Frame) (l b : Nat) : Option Nat :=
  let cs := s.spines l b f.vc
  let q (c : Nat × Nat) : Nat := min 15 (s.vcDepth c.2 f.vc / max 1 (s.fld F.ROUTE_ADAPT_CFG_QSTEP 0))
  match cs.map q with
  | [] => none
  | h :: t =>
    let least := t.foldl min h
    let m := cs.filter (fun c => q c = least)
    let bytes := bytesLE 2 f.src.toNat ++ bytesLE 2 f.dst.toNat ++ bytesLE 2 f.seq
    let x := (crc16 bytes).toNat ^^^ s.fld F.ROUTE_ADAPT_CFG_SALT 0
    (m.getD (x % m.length) (0, 0)).2

/-- R232: the uplink that route set i pins toward leaf l, and whether it was diverted. -/
def State.pinnedUplink (s : State) (i l b v : Nat) : Option (Nat × Bool) :=
  let sp := s.fld F.ROUTE_RSET_SPINE i
  let n := if s.bit F.ROUTE_RSET_RULE i then (sp + l) % s.fld F.ROUTE_RSET_NSPINE i else sp
  let cs := s.spines l b v
  match cs.find? (fun c => c.1 = n) with
  | some c => some (c.2, false)
  | none =>
    match (cs.filter (fun c => decide (n < c.1)) ++ cs).head? with
    | some c => some (c.2, true)
    | none => none

/-- What Table 8.1 says of a frame. -/
inductive Hop where
  /-- The egress port; whether Table 8.1 sends the frame up; whether it was diverted. -/
  | to (p : Nat) (up diverted : Bool)
  /-- The destination endpoint attaches here and is quarantined. -/
  | quarantined (p : Nat)
  | noRoute
deriving DecidableEq, Repr

/-- An endpoint behind a port of this switch. -/
def State.localHop (s : State) (n : Fnid) : Hop :=
  match s.downPort (fnidLeaf n) (fnidPort n) with
  | none => .noRoute
  | some p => if s.portQuar p then .quarantined p else .to p false false

/-- Table 8.1: the egress of frame f under bank b with route set i; fromUp says that it arrived on an uplink of a leaf. -/
def State.hop (s : State) (f : Frame) (b i : Nat) (fromUp : Bool) : Hop :=
  let n := f.dst
  match s.net.tier with
  | .single => if fnidEndpoint n && decide (fnidLeaf n < 2) then s.localHop n else .noRoute
  | .spine =>
    if fnidSpine n then .noRoute
    else if s.bit F.ROUTE_DOWNPORT_VALID (128 * b + fnidLeaf n) then .to (s.fld F.ROUTE_DOWNPORT_PORT (128 * b + fnidLeaf n)) false false
    else .noRoute
  | .leaf =>
    if fnidEndpoint n && fnidLeaf n = fnidLeaf s.net.fnid then s.localHop n
    else if fromUp then .noRoute
    else if fnidSpine n then
      match s.upPortOf b (fnidLeaf n) with
      | some p => .to p true false
      | none => .noRoute
    else if f.vc < 4 then
      match s.adaptiveUplink f (fnidLeaf n) b with
      | some p => .to p true false
      | none => .noRoute
    else
      match s.pinnedUplink i (fnidLeaf n) b f.vc with
      | some (p, d) => .to p true d
      | none => .noRoute

-- Queues and the wheel (R265 to R269) -----------------------------------------------------------------------------

/-- The egress queue of a VC and TC on a port (Table 9.12). -/
def State.queueOf (s : State) (p v tc : Nat) : Nat :=
  if v = 0 then 0
  else if v < 4 then wbits (s.reg .PORT_QMAP (3 * p + v - 1)) (5 * tc) 5
  else if v = 4 then 21
  else if v = 5 then 20
  else 16 + v

/-- Virtual time V of the ports: ticks since reset (R267). -/
def State.vtime (s : State) : Int := (s.clock.ktick : Int) - s.clock.rtick

/-- RATE of queue q of port p (Table 9.15). -/
def State.qRate (s : State) (p q : Nat) : Nat :=
  let r := s.fld F.PORT_QSHAPE_RATE (32 * p + q)
  if q = 0 then (s.port p).rate / 64
  else if q < 20 then r
  else if r = 0 then (s.port p).rate else r

/-- The frames of a queue that the wheel considers. -/
def EgQueue.live (x : EgQueue) : List QEnt := x.ents.filter (fun e => !e.staged)

/-- Replace queue q of port p, placed on the fine or the coarse wheel by its E (R268). -/
def State.setQueue (s : State) (p q : Nat) (x : EgQueue) : State :=
  let far := decide (1024 ≤ x.e / 1024 - s.vtime / 1024)
  let x := { x with coarse := x.live ≠ [] && far }
  s.modPort p (fun t => { t with q := t.q.put {} q x })

/-- A queue turns from empty to not empty (R267). -/
def State.wakeQueue (s : State) (p q : Nat) (x : EgQueue) : EgQueue :=
  let v := s.vtime
  let floor := if s.bit F.PORT_QSHAPE_LEGACY (32 * p + q) then
      v - ((s.fld F.PORT_QSHAPE_LBURST (32 * p + q) * 2048000 / s.qRate p q : Nat) : Int)
    else v
  if x.e < floor then { x with e := floor, rem := 0 } else x

-- Keepalive exit (R390) -------------------------------------------------------------------------------------------

/-- A frame that was formed waits for its cells (R256): the wait counts in WAIT of the partition or slot, where one stands behind it. -/
def formWait (x : Formed) (s : State) : State :=
  let s := { s with net := { s.net with formed := s.net.formed ++ [x] } }
  match x.line with
  | .part i => s.bump F.CADDY_PSTAT_WAIT i
  | .slot r => s.bump F.CADDY_QTALLY_WAIT r
  | .loose _ => s

/-- The loose cells of a frame formed on die d (R255, log entry 10): none while they are not free, or while earlier such frames of the die wait. -/
def looseCharge (d : Nat) (f : Frame) (s : State) : Option (Charge × State) :=
  if s.net.formed.any (fun y => y.line = .loose d) then none
  else (looseTake d (cellsOf f.len) s).map (fun x => (.pool d x.1, x.2))

/-- A stored frame for the other end of port p itself enters queue 0. -/
def linkPlace (p : Nat) (f : Frame) (c : Charge) (s : State) : State :=
  let (i, s) := store { frame := f, charge := c, die := p / 32 } s
  let x := (s.port p).queue 0
  let x := if x.live = [] then s.wakeQueue p 0 x else x
  s.setQueue p 0 { x with ents := x.ents ++ [{ buf := i, since := s.now }] }

/-- A frame for the other end of the port itself (BEAT and MGMT frames): it enters queue 0 once it has its cells. -/
def linkFrame (p : Nat) (h : Hdr) (s : State) : State :=
  let f := h.frame s.net.fnid (s.fld F.GLOBAL_MEPOCH_MEPOCH 0) (s.fld F.ROUTE_BANK_EPOCH s.curBank) s.strict
  match looseCharge (p / 32) f s with
  | some (c, s) => linkPlace p f c s
  | none => formWait { line := .loose (p / 32), frame := f, die := p / 32, port := some p } s

/-- An MGMT frame of a type (Table 14.17). -/
def mgmtFrame (p mtype : Nat) (payload : List Byte) (s : State) : State :=
  linkFrame p { kind := 8, vc := 0, dst := s.peerFnid p, h1 := BitVec.ofNat 64 (mtype <<< 56), payload := payload } s

/-- The port returns to full rate where it is in KEEPALIVE or entering it: KA_EXIT is sent, and the stored equalisation is in force again (R390). -/
def kaLeave (p : Nat) (s : State) : State :=
  let x := s.port p
  if (s.lstate p = 6 && x.ka ≠ .leaving) || x.ka = .entering then
    mgmtFrame p 0x04 [] (s.setPort p { x with ka := .leaving, eqNow := x.eqSet })
  else s

/-- A stored frame enters its egress queue on port p (R265); for a port in keepalive a frame on a VC other than VC0 starts the return to
full rate (R235). -/
def enqueueAt (p i : Nat) (staged : Bool) (s : State) : State :=
  match s.buf i with
  | none => s
  | some b =>
    let q := s.queueOf p b.frame.vc b.frame.tc
    let x := (s.port p).queue q
    let x := if x.live = [] && !staged then s.wakeQueue p q x else x
    let s := s.setQueue p q { x with ents := x.ents ++ [{ buf := i, staged := staged, since := s.now }] }
    if b.frame.vc ≠ 0 && !staged then kaLeave p s else s

-- Crossing dies (R253) ---------------------------------------------------------------------------------------------

/-- The frame takes cells of the store of the link from its die to die d and its near cells are freed; its number on the far die. A frame with more
references sends a copy across. -/
def crossOver (i d : Nat) (s : State) : Nat × State :=
  match s.buf i with
  | none => (i, s)
  | some b =>
    let n := cellsOf b.frame.len
    let key := crossKey b.die d b.frame.vc
    let s := crossCount b.die d b.frame { s with net := { s.net with cross := s.net.cross.put 0 key (s.net.cross.lk 0 key + n) } }
    let c := Charge.cross b.die d b.frame.vc n
    if b.refs = 1 then
      let s := recharge i c s
      match s.buf i with
      | none => (i, s)
      | some b => (i, s.setBuf i (some { b with die := d }))
    else
      let (j, s) := store { b with refs := 1, charge := c, owe := none, die := d } s
      (j, unref i 1 s)

/-- The frame crosses to die d and is placed once on the queue of each port there (R250, R253). -/
def crossPlace (i d : Nat) (ports : List Nat) (s : State) : State :=
  let (j, s) := crossOver i d s
  let s := match s.buf j with
    | some c => s.setBuf j (some { c with refs := ports.length })
    | none => s
  eachDo ports (fun p s => enqueueAt p j false s) s

/-- A frame waits to cross from die a to die d on VC v, so that later ones wait behind it (R230). -/
def State.crossBusy (s : State) (a d v : Nat) : Bool :=
  s.net.xwait.any (fun x => x.die = d && (match s.buf x.buf with
    | some y => y.die = a && y.frame.vc = v
    | none => false))

/-- A stored frame goes to ports of die d: at once where that die holds it, or the link has room; otherwise it waits to cross. -/
def crossTo (d : Nat) (ports : List Nat) (i : Nat) (s : State) : State :=
  match s.buf i with
  | none => s
  | some b =>
    if b.die = d then eachDo ports (fun p s => enqueueAt p i false s) s
    else if s.crossRoom b.die d b.frame && !s.crossBusy b.die d b.frame.vc then crossPlace i d ports s
    else { s with net := { s.net with xwait := s.net.xwait ++ [{ buf := i, die := d, ports := ports }] } }

/-- A stored unicast frame goes to port p. -/
def sendTo (p i : Nat) (s : State) : State := crossTo (p / 32) [p] i s

/-- Frames that waited cross while there is room, first in, first out on each VC of a link (R20, R230); stuck are the links and VCs whose first frame
has no room. -/
def crossGo (l : List Cross) (stuck : List Nat) (s : State) : List Cross × State :=
  match l with
  | [] => ([], s)
  | x :: t =>
    match s.buf x.buf with
    | none => crossGo t stuck s
    | some b =>
      let key := crossKey b.die x.die b.frame.vc
      if s.crossRoom b.die x.die b.frame && !stuck.contains key then crossGo t stuck (crossPlace x.buf x.die x.ports s)
      else
        let (r, s) := crossGo t (key :: stuck) s
        (x :: r, s)

/-- Frames that waited to cross do so where they can. -/
def crossDrain (s : State) : State :=
  let (l, s) := crossGo s.net.xwait [] { s with net := { s.net with xwait := [] } }
  { s with net := { s.net with xwait := l ++ s.net.xwait } }

-- Fences (R332) ------------------------------------------------------------------------------------------------------

/-- The entries of GLOBAL_FENCE whose FNID satisfies p. -/
def State.fencing (s : State) (p : Fnid → Bool) : List Nat :=
  (List.range 64).filter (fun i => s.bit F.GLOBAL_FENCE_VALID i && p (BitVec.ofNat 16 (s.fld F.GLOBAL_FENCE_FNID i)))

/-- The entries that fence the frame's source or destination; VC0 is not fenced. -/
def State.fencesOf (s : State) (f : Frame) : List Nat := if f.vc = 0 then [] else s.fencing (fun n => n = f.src || n = f.dst)

/-- The entries that fence an endpoint behind port p (DEDUCED, log entry 125). -/
def State.fencesAt (s : State) (p : Nat) : List Nat := s.fencing (fun n => s.portOf n = some p)

/-- Each entry counts a discarded frame. -/
def fenceCount (is : List Nat) (s : State) : State := eachDo is (fun i s => s.bump F.GLOBAL_FENCE_DROPS i) s

-- Unicast forwarding (R229) --------------------------------------------------------------------------------------

/-- A frame of a fenced node is discarded and counted (R332); another goes on. -/
def unlessFenced (i : Nat) (go : State → State) (s : State) : State :=
  match s.buf i with
  | none => s
  | some x => if s.fencesOf x.frame = [] then go s else discard i (fenceCount (s.fencesOf x.frame) s)

/-- Frame i leaves the switch by Table 8.1 under bank b, with route set r; or it is discarded and counted. -/
def route (i b r : Nat) (fromUp : Bool) : State → State := unlessFenced i fun s =>
  match s.buf i with
  | none => s
  | some x =>
    match s.hop x.frame b r fromUp with
    | .noRoute => discard i (s.bump F.ROUTE_FWD_TALLY_NOROUTE 0)
    | .quarantined p => discard i (s.bump F.PORT_HEALTH_QDROP p)
    | .to p up div =>
      let st := s.lstate p
      if st < 3 || (st < 5 && x.frame.vc ≠ 0) then discard i (s.bump F.ROUTE_FWD_TALLY_LINKDOWN 0)
      else
        let s := s.when div (fun s => s.bump F.ROUTE_PATH_TALLY_PINDIV 0)
        sendTo p i (s.setBuf i (some { x with up := up, rset := r, diverted := x.diverted || div }))

-- Multicast (R248 to R250) -------------------------------------------------------------------------------------------

/-- The ports that group g's mask names and the port map defines. -/
def State.mcPorts (s : State) (g : Nat) : List Nat :=
  s.portList.filter (fun p => (s.reg .MCAST_GRP (2 * g + p / 64)).getLsbD (p % 64))

/-- The group is also delivered to this switch's unit (LOCAL). -/
def State.mcLocal (s : State) (g : Nat) : Bool := (s.reg .MCAST_LOCAL (g / 64)).getLsbD (g % 64)

/-- The ports a multicast frame's copies go to (R249): its arrival port is none for a frame of a local unit. -/
def State.mcTargets (s : State) (f : Frame) (inPort : Option Nat) : List Nat :=
  let up := (s.mcPorts f.mgrp).filter (fun p => s.lstate p = 5 || s.lstate p = 6)
  let up := up.filter (fun p => inPort ≠ some p)
  let fromUp : Bool := match inPort with
    | some p => s.net.tier = .leaf && !(s.port p).edge
    | none => false
  let up :=
    if s.net.tier = .leaf then
      let down := up.filter (fun p => (s.port p).edge)
      if fromUp then down
      else down ++ (up.filter (fun p => !(s.port p).edge)).take 1
    else up
  if f.kind = 3 && leAt f.payload 0 1 = 0x03 then up.filter (fun p => !(s.port p).edge) else up

/-- R249, R250: multicast frame i is placed once on each target queue; own says that this switch formed it, down that it is meant for the
ports that face endpoints only. No copy goes to a fenced endpoint (R332). One copy crosses to each other die with targets (R253). -/
def multicast (i : Nat) (own down : Bool) (s : State) : State :=
  match s.buf i with
  | none => s
  | some b =>
    let f := b.frame
    if !(f.kind = 0 || f.kind = 3 || f.kind = 5) || f.ord then discard i (s.bump F.MCAST_TALLY_MCREJ 0)
    else
      let ts := (s.mcTargets f b.inPort).filter (fun p => !down || (s.port p).edge)
      let loc := s.mcLocal f.mgrp && f.kind ≠ 0 && !(own && f.kind = 3)
      let shut (p : Nat) : Bool := f.vc ≠ 0 && s.fencesAt p ≠ []
      if ts.isEmpty && !loc then discard i (s.bump F.MCAST_TALLY_MCEMPTY 0)
      else
        let s := eachDo (ts.filter shut) (fun p s => fenceCount (s.fencesAt p) s) s
        let ts := ts.filter (fun p => !shut p)
        -- one reference for each port of this die, one for each other die with targets, one for the local unit
        let here := ts.filter (fun p => p / 32 = b.die)
        let far := (List.range 4).filter (fun d => d ≠ b.die && ts.any (fun p => p / 32 = d))
        let refs := here.length + far.length + (if loc then 1 else 0)
        if refs = 0 then discard i s
        else
          let s := s.setBuf i (some { b with refs := refs, mc := true })
          let s := eachDo here (fun p s => enqueueAt p i false s) s
          let s := eachDo far (fun d s => crossTo d (ts.filter (fun p => p / 32 = d)) i s) s
          if loc then toInbox i s else s

-- Frames that the switch originates (R203, R209, R240) ------------------------------------------------------------------

/-- Who forms a frame and what its cells are charged to. -/
structure Origin where
  die : Nat := 0
  charge : Charge := .none
  owe : Option Owe := none
  rset : Nat := 0
  own : Owner := .none
  down : Bool := false
  act : Option Nat := none
deriving DecidableEq, Repr

/-- Store a frame that the switch formed, and go on with it; where no slot and no partition stands behind it, in loose cells of its die (log entry 10),
which it waits for where they are not free (R256). -/
def storeOwn (f : Frame) (o : Origin) (go : Nat → State → State) (s : State) : State :=
  match (if o.charge = .none then looseCharge o.die f s else some (o.charge, s)) with
  | none => formWait { line := .loose o.die, rset := o.rset, down := o.down, frame := f, own := o.own, act := o.act, die := o.die, owe := o.owe } s
  | some (c, s) =>
    let (i, s) := store { frame := f, charge := c, owe := o.owe, die := o.die, rset := o.rset, own := o.own, act := o.act } s
    go i s

/-- A frame of the switch is formed and sent: to the switch itself, to a group, or to the node that DST names. Sequenced kinds
to a node behind a port of this switch pass its resequencer; that is sendOrigin. -/
def sendFrame (f : Frame) (o : Origin) (s : State) : State :=
  storeOwn f o (fun i s =>
    if f.dst = mcastDst then multicast i true o.down s
    else if s.isOwn f.dst then toInbox i s
    else route i s.curBank o.rset false s) s

/-- The frame that a header description gives at this switch now (R209). -/
def State.form (s : State) (h : Hdr) : Frame :=
  h.frame s.net.fnid (s.fld F.GLOBAL_MEPOCH_MEPOCH 0) (s.fld F.ROUTE_BANK_EPOCH s.curBank) s.strict

/-- Form and send an unsequenced frame. -/
def sendPlain (h : Hdr) (o : Origin) (s : State) : State := sendFrame (s.form h) o s

end Sys2Proof.Machine
end

