-- ==== Sys2Proof/Machine/Reseq.lean ====
section
/-!
DEFINITION. The resequencer (R240 to R247): entries, arrivals by Table 8.10, hold timers, NACK(LOST) frames; and the sending of sequenced frames.
-/
namespace Sys2Proof.Machine

open Sys2Proof

/-- The reasons of Table 8.12. -/
inductive LostReason where
  | hole | dependent | late | window | noEntry
deriving DecidableEq, Repr

/-- The encoding of REASON (Table 8.12). -/
def LostReason.code : LostReason → Nat
  | .hole => 1 | .dependent => 2 | .late => 3 | .window => 4 | .noEntry => 5

/-- The entries of group g. -/
def State.group (s : State) (g : Nat) : List RsEntry := s.net.reseq.lk [] g

/-- Replace the entries of group g. -/
def State.setGroup (s : State) (g : Nat) (l : List RsEntry) : State :=
  { s with net := { s.net with reseq := s.net.reseq.put [] g l } }

/-- The entry is that of the pair. -/
def RsEntry.isFor (e : RsEntry) (src dst : Fnid) : Bool := e.src = src && e.dst = dst

/-- The entry of a pair in group g. -/
def State.entry (s : State) (g : Nat) (src dst : Fnid) : Option RsEntry := (s.group g).find? (fun e => e.isFor src dst)

/-- Write an entry back as the most recently used of its group. -/
def State.setEntry (s : State) (g : Nat) (e : RsEntry) : State :=
  s.setGroup g ((s.group g).filter (fun x => !x.isFor e.src e.dst) ++ [e])

/-- Write an entry back in its place. -/
def State.modEntry (s : State) (g : Nat) (e : RsEntry) : State :=
  s.setGroup g ((s.group g).map (fun x => if x.isFor e.src e.dst then e else x))

/-- The offset of a sequence number from NEXP, modulo 2^24. -/
def RsEntry.off (e : RsEntry) (q : Nat) : Nat := (q + 2 ^ 24 - e.nexp) % 2 ^ 24

/-- The slot of a sequence number; none for ABSENT. -/
def RsEntry.slot (e : RsEntry) (q : Nat) : Option RSlot := e.slots.lookup q

/-- Set the slot of a sequence number. -/
def RsEntry.setSlot (e : RsEntry) (q : Nat) (x : RSlot) : RsEntry :=
  { e with slots := e.slots.filter (fun y => y.1 ≠ q) ++ [(q, x)] }

/-- The offset of the highest slot of the window that is not ABSENT. -/
def RsEntry.top (e : RsEntry) : Nat :=
  ((e.slots.map (fun x => e.off x.1)).filter (fun d => decide (d < 1024))).foldl max 0

/-- The HELD frames at or above an offset, lowest first: sequence number and frame. -/
def RsEntry.heldFrom (e : RsEntry) (lo : Nat) : List (Nat × Nat) :=
  let hs := e.slots.filterMap (fun x => match x.2 with
    | .held b => if decide (lo ≤ e.off x.1) then some (x.1, b) else none
    | _ => none)
  hs.mergeSort (fun a b => decide (e.off a.1 ≤ e.off b.1))

/-- The entry holds a HELD slot. -/
def RsEntry.anyHeld (e : RsEntry) : Bool := e.slots.any (fun x => match x.2 with
  | .held _ => true
  | _ => false)

-- NACK(LOST) (R244) ------------------------------------------------------------------------------------------

/-- Sequence numbers, ascending, in runs that fall within 64 of their first: the first and the map. -/
def seqRuns (qs : List Nat) : List (Nat × Nat) :=
  (qs.foldl (fun (acc : List (Nat × Nat)) q =>
    match acc with
    | (f, m) :: t =>
      let d := (q + 2 ^ 24 - f) % 2 ^ 24
      if d < 64 then (f, m ||| 1 <<< d) :: t else (q, 1) :: acc
    | [] => [(q, 1)]) []).reverse

/-- The payload of Table 8.11, with a reason or a status. -/
def lostPayload (pdst : Fnid) (reason first map : Nat) : List Byte :=
  wordsToBytes [BitVec.ofNat 64 (pdst.toNat <<< 32 + reason <<< 24 + first), BitVec.ofNat 64 map]

/-- An ACK frame that names frames of one pair (R244, R282). -/
def ackHdr (op : Nat) (src dst : Fnid) (reason : Nat) (run : Nat × Nat) : Hdr :=
  { kind := 7, vc := 2, dst := src, h1 := h1Mem op 0, seq := run.1, payload := lostPayload dst reason run.1 run.2 }

/-- NACK(LOST) frames that name sequence numbers of a pair with one reason. -/
def nackLost (src dst : Fnid) (r : LostReason) (qs : List Nat) (s : State) : State :=
  eachDo (seqRuns qs) (fun run s => sendPlain (ackHdr 0x41 src dst r.code run) {} s) s

-- Delivery ---------------------------------------------------------------------------------------------------

/-- A frame that the resequencer of a group releases: group 8's frames wait for their unit, others leave by their egress. -/
def deliver (g : Nat) (i : Nat) : State → State := fun s =>
  if g = 8 then toInbox i s
  else unlessFenced i (fun s =>
    match s.buf i with
    | none => s
    | some b =>
      match s.portOf b.frame.dst with
      | none => discard i (s.bump F.ROUTE_FWD_TALLY_NOROUTE 0)
      | some p => if s.portQuar p then discard i (s.bump F.PORT_HEALTH_QDROP p) else sendTo p i s) s

/-- R241, R243: outside the learning interval NEXP passes every leading settled slot, and a HELD frame it reaches is delivered, at most n
slots. -/
def settle (g n : Nat) (e : RsEntry) (s : State) : RsEntry × State :=
  match n with
  | 0 => (e, s)
  | n + 1 =>
    if e.learning then (e, s)
    else
      let next : RsEntry := { e with nexp := (e.nexp + 1) % 2 ^ 24, slots := e.slots.filter (fun y => y.1 ≠ e.nexp) }
      match e.slot e.nexp with
      | none => (e, s)
      | some .present => settle g n next s
      | some .lost => settle g n next s
      | some (.held i) => settle g n next (deliver g i s)

/-- R243: HELD frames at or above an offset are discarded with reason DEPENDENT and their slots become LOST. -/
def dropHeld (g lo : Nat) (e : RsEntry) (s : State) : RsEntry × State :=
  let hs := e.heldFrom lo
  let e := hs.foldl (fun (e : RsEntry) (h : Nat × Nat) => e.setSlot h.1 .lost) e
  let s := eachDo hs (fun h s => discard h.2 s) s
  (e, nackLost e.src e.dst .dependent (hs.map Prod.fst) (s.bumpN F.ROUTE_RESEQ_TALLY_DEPENDENT g hs.length))

/-- Row 4 of Table 8.10: the window advances so that its top slot is q. -/
def windowAdvance (g q : Nat) (e : RsEntry) (s : State) : RsEntry × State :=
  let d := e.off q
  let n := min (d - 1023) 1024
  let leaving := (List.range n).map (fun i => (e.nexp + i) % 2 ^ 24)
  let lost := leaving.filter (fun x => e.slot x = none)
  let heldLeaves := leaving.find? (fun x => match e.slot x with
    | some (.held _) => true
    | _ => false)
  let e := lost.foldl (fun (e : RsEntry) x => e.setSlot x .lost) e
  let s := nackLost e.src e.dst .window lost (s.bumpN F.ROUTE_RESEQ_TALLY_LOST g lost.length)
  let (e, s) := match heldLeaves, lost.head? with
    | some x, some y => dropHeld g (min (e.off x) (e.off y)) e s
    | some x, none => dropHeld g (e.off x) e s
    | none, some y => dropHeld g (e.off y) e s
    | none, none => (e, s)
  let e : RsEntry := if e.learning then e else { e with slots := e.slots.filter (fun y => !leaving.contains y.1) }
  ({ e with nexp := (q + 2 ^ 24 - 1023) % 2 ^ 24 }, s)

/-- A frame has its slot: delivered at once, or HELD (rows 5 and 6). The frame delivered is answered apart when the switch consumes it. -/
def placeFrame (g i q : Nat) (ord : Bool) (e : RsEntry) (s : State) : State × Bool :=
  if ord then
    let (e, s) := settle g 1024 (e.setSlot q (.held i)) s
    (s.modEntry g e, false)
  else
    let e := e.setSlot q .present
    let s := if g = 8 then s else deliver g i s
    let (e, s) := settle g 1024 e s
    (s.modEntry g e, g = 8)

/-- R245: an entry that row 1 may take in a full group: none HELD, none ABSENT below its highest occupied slot. Slots settled behind NEXP by a
window advance in the learning interval do not count. -/
def RsEntry.takeable (e : RsEntry) : Bool :=
  let n := (e.slots.filter (fun x => decide (e.off x.1 < 1024))).length
  !e.anyHeld && decide (n = 0 || n = e.top + 1)

/-- R242: sequenced frame i arrives at the resequencer of group g. Answers also whether the switch consumes the frame now. -/
def reseqArrive (g i : Nat) (s : State) : State × Bool :=
  match s.buf i with
  | none => (s, false)
  | some b =>
    let f := b.frame
    let q := f.seq
    match s.entry g f.src f.dst with
    | none =>
      let l := s.group g
      let fresh : RsEntry := { src := f.src, dst := f.dst, nexp := q }
      if l.length < 4096 then placeFrame g i q f.ord fresh (s.setEntry g fresh)
      else if l.any RsEntry.takeable then
        placeFrame g i q f.ord fresh ((s.setGroup g (dropFirst RsEntry.takeable l)).setEntry g fresh)
      else
        let s := s.bump F.ROUTE_RESEQ_TALLY_NOENTRY g
        if f.ord then (nackLost f.src f.dst .noEntry [q] (discard i s), false)
        else if g = 8 then (s, true) else (deliver g i s, false)
    | some e =>
      let s := s.setEntry g e
      let below := (e.nexp + 2 ^ 24 - q) % 2 ^ 24
      if e.learning && decide (0 < below) && decide (below ≤ 1023 - e.top) && e.slot q = none then
        placeFrame g i q f.ord { e with nexp := q } s
      else
        let d := e.off q
        if decide (2 ^ 23 ≤ d) || e.slot q ≠ none then
          (nackLost f.src f.dst .late [q] (discard i (s.bump F.ROUTE_RESEQ_TALLY_LATE g)), false)
        else if 1024 ≤ d then
          let (e, s) := windowAdvance g q e s
          placeFrame g i q f.ord e s
        else placeFrame g i q f.ord e s

/-- The resequencer group of an egress port (R241): that of its I/O die. -/
def portGroup (p : Nat) : Nat := p / 16

/-- The frame carries a sequence number (Table 7.12): DATA, MREQ and SYNC requests. -/
def sequenced (f : Frame) : Bool := f.kind = 0 || f.kind = 1 || (f.kind = 5 && f.op % 2 ^ 15 ≠ opRelease)

-- Sending (R240) ------------------------------------------------------------------------------------------------

/-- The frame's series takes one more number; a header description with SEQ filled in. -/
def numbered (h : Hdr) (s : State) : Hdr × State :=
  let k := h.dst.toNat
  let q := s.net.seqNext.lk 0 k
  ({ h with seq := q }, { s with net := { s.net with seqNext := s.net.seqNext.put 0 k ((q + 1) % 2 ^ 24) } })

/-- A frame that the switch originates is sent; a sequenced frame to a node behind this switch, or to the switch itself, passes the
resequencer first (R241). -/
def sendOrigin (f : Frame) (o : Origin) (s : State) : State :=
  if !sequenced f || f.dst = mcastDst then sendFrame f o s
  else
    let loc := s.isOwn f.dst
    match (if loc then some 8 else (s.portOf f.dst).map portGroup) with
    | none => sendFrame f o s
    | some g =>
      storeOwn f o (fun i s =>
        match s.portOf f.dst with
        | some p =>
          unlessFenced i (fun s =>
            if s.portQuar p then discard i (s.bump F.PORT_HEALTH_QDROP p) else (reseqArrive g i s).1) s
        | none =>
          let (s, now) := reseqArrive g i s
          if now then toInbox i s else s) s

/-- Form and send a sequenced request to DST; its SEQ is answered. -/
def sendSeq (h : Hdr) (o : Origin) (s : State) : Nat × State :=
  let (h, s) := numbered h s
  (h.seq, sendOrigin (s.form h) o s)

-- Timers of the resequencer -----------------------------------------------------------------------------------------

/-- R243: the hold timer of the frame HELD at a sequence number ends. -/
def holdExpired (g : Nat) (src dst : Fnid) (q : Nat) (s : State) : State :=
  match s.entry g src dst with
  | none => s
  | some e =>
    let lost := ((List.range (e.off q)).map (fun i => (e.nexp + i) % 2 ^ 24)).filter (fun x => e.slot x = none)
    let e := lost.foldl (fun (e : RsEntry) x => e.setSlot x .lost) e
    let s := nackLost src dst .hole lost (s.bumpN F.ROUTE_RESEQ_TALLY_LOST g lost.length)
    let lo := match lost.head? with
      | some x => e.off x
      | none => e.off q
    let (e, s) := dropHeld g lo e s
    let (e, s) := settle g 1024 e s
    s.modEntry g e

/-- The entry holds a HELD frame at a sequence number. -/
def State.holds (s : State) (g : Nat) (src dst : Fnid) (q : Nat) : Bool :=
  match s.entry g src dst with
  | none => false
  | some e => match e.slot q with
    | some (.held _) => true
    | _ => false

/-- R243: HOLD_EXPIRY. -/
def execReseqHoldExpiry (g : Fin 9) (src dst : Fnid) (seq : BitVec 24) (s : State) : Host.Outcome State Fault Refusal :=
  actIf (s.holds g src dst seq.toNat) (holdExpired g src dst seq.toNat) s

/-- What RESEQ_LEARN_END changes. -/
def learnEndEffect (g : Fin 9) (e : RsEntry) (s : State) : State :=
  let old : RsEntry := { e with learning := false }
  -- slots settled behind NEXP by a window advance are forgotten
  let e : RsEntry := { old with slots := old.slots.filter (fun x => decide (old.off x.1 < 1024)) }
  let (e, s) := settle g 1024 e s
  s.modEntry g e

/-- R241: the learning interval of an entry ends; NEXP passes every leading settled slot and released frames are delivered. -/
def execReseqLearnEnd (g : Fin 9) (src dst : Fnid) (s : State) : Host.Outcome State Fault Refusal :=
  match s.entry g src dst with
  | none => .next s
  | some e =>
    actIf e.learning (learnEndEffect g e) s

/-- What the end of an idle entry changes. -/
def entryIdleEffect (g : Fin 9) (src dst : Fnid) (s : State) : State := s.setGroup g ((s.group g).filter (fun x => !x.isFor src dst))

/-- R245: an entry whose pair has been silent for 1,000 µs and that holds no HELD slot becomes free. -/
def execReseqEntryIdle (g : Fin 9) (src dst : Fnid) (s : State) : Host.Outcome State Fault Refusal :=
  match s.entry g src dst with
  | none => .next s
  | some e =>
    actIf (!e.anyHeld) (entryIdleEffect g src dst) s

end Sys2Proof.Machine
end

