-- ==== Sys2Proof/Machine/Rx.lean ====
section
/-!
DEFINITION. Frames that arrive (R202, R203, R210 to R218, R233, R234): the checks of R212 in their order, drops for quarantine, fence and epoch,
cut-through and store-and-forward, and the wrapper by which every unit takes a frame it consumes.
-/
namespace Sys2Proof.Machine

open Sys2Proof

/-- The port's link carries words: PROBATION, HELD, UP or KEEPALIVE. -/
def State.linked (s : State) (p : Nat) : Bool := (s.port p).present && decide (3 ≤ s.lstate p)

/-- The device is in IDLE: it carries VC0 only (R391). -/
def State.idle (s : State) : Bool := s.fld F.KETTLE_PWR_STAT_STATE 0 = 2

/-- Ingress on VC v is paused: a brown-out HOLD pauses every VC but VC0 and VC5 (R214), IDLE every VC but VC0 (R391). -/
def State.paused (s : State) (v : Nat) : Bool := (s.bit F.GLOBAL_HOLD_INHOLD 0 && v ≠ 0 && v ≠ 5) || (s.idle && v ≠ 0)

-- Checks 1 to 7 of R212 -------------------------------------------------------------------------------------------

/-- Check 3: LEN. -/
def lenOk (f : Frame) : Bool := decide (f.len ≤ 4096) && (decide (9 < f.kind) || kindLen f.kind f.len)

/-- Check 4: KIND, VC, ORD, SPEC, keepalive, and a LIMIT that carries the VC. -/
def State.kindOk (s : State) (p : Nat) (f : Frame) : Bool :=
  decide (f.kind < 10) && kindVc f.kind f.vc && (!f.ord || kindOrd f.kind) && !f.spec &&
  (s.lstate p ≠ 6 || f.vc = 0) && ((s.port p).account f.vc).limit ≠ 0

/-- Check 5: DST is valid (R200, R202). -/
def dstOk (f : Frame) : Bool := f.dst = mcastDst || fnidValid f.dst

/-- Check 6: SRC is permitted (R203). -/
def Port.srcOk (x : Port) (f : Frame) : Bool :=
  match x.coord with
  | none => true
  | some c => fnidEndpoint f.src && fnidLeaf f.src = x.leaf && fnidPort f.src = c

/-- Check 7: the frame's cells fit the credit granted and not yet seen used. -/
def Acct.fits (a : Acct) (c : Nat) : Bool := decide (c ≤ (a.freed + 2 ^ 32 - a.received) % 2 ^ 32)

/-- The first of checks 3 to 7 that fails, as the field it counts in. -/
def State.headFail (s : State) (p : Nat) (f : Frame) : Option Fld :=
  if !lenOk f then some F.PORT_RXFRAME_LENERR
  else if !s.kindOk p f then some F.PORT_RXREJ_KINDERR
  else if !dstOk f then some F.PORT_RXREJ_ADDRERR
  else if !(s.port p).srcOk f then some F.PORT_RXREJ_SPOOF
  else if !((s.port p).account f.vc).fits (cellsOf f.len) then some F.PORT_RXREJ_CREDOVF
  else none

/-- A frame with a good header begins to arrive on port p: its cells count in RECEIVED, and where checks 3 to 7 pass it is stored and
charged to the port's slot (R216, R258). -/
def rxHead (p : Nat) (rx : RxFrame) (s : State) : Option Nat × State :=
  let f := rx.frame
  if !rx.startOk then
    (none, (s.when (!(s.port p).resync) (fun s => s.bump F.PORT_LINKERR_LWERR p)).modPort p (fun x => { x with resync := true }))
  else
    let s := s.modPort p (fun x => { x with resync := false })
    -- a LEN that cannot be skipped by leaves the receiver looking for a link word (R212, check 2)
    if !f.hcrcOk then
      (none, (s.bump F.PORT_RXFRAME_HCRCERR p).modPort p (fun x => { x with resync := decide (4096 < f.len) }))
    else
      let c := cellsOf f.len
      let fail := s.headFail p f
      let a := (s.port p).account f.vc
      let s := s.modPort p (fun x => x.setAcct f.vc { a with received := (a.received + c) % 2 ^ 32 })
      let o : Owe := ⟨p, f.vc, c, (s.port p).ups⟩
      -- a BEAT that passes checks 1 to 6 marks the interval as heard (R324)
      let s := s.when (f.kind = 9 && (fail = none || fail = some F.PORT_RXREJ_CREDOVF)) (fun s => s.modPort p (fun x => { x with heard := true }))
      match fail with
      | some fld => (none, repay o (s.bump fld p))
      | none =>
        let s := s.when (f.vc ≠ 0) (fun s => s.modPort p (fun x => { x with lastData := s.now }))
        let (ch, s) := if f.vc = 0 then (Charge.none, s) else
          match slotTake p c s with
          | some (l, s) => (Charge.slot p l, s)
          | none => (Charge.none, s)
        let (i, s) := store { frame := f, charge := ch, owe := some o, die := p / 32, inPort := some p, since := s.now, bound := s.bclk } s
        (some i, s)

-- Checks 8 and 9 ----------------------------------------------------------------------------------------------------

/-- The frame's tail is sound: it arrived whole, its end lies where LEN places it, and its PCRC is correct. A frame that carries BAD is the
mark of an earlier hop and is left to check 9 (R234, log entry 12). -/
def tailOk (rx : RxFrame) : Bool :=
  rx.cut = none && rx.endOk && (rx.frame.bad || rx.frame.pcrcOk)

/-- Check 8 fails on port p: PCRCERR, and for a misplaced end a link-word episode. -/
def tailFail (p : Nat) (rx : RxFrame) (s : State) : State :=
  let s := s.bump F.PORT_RXFRAME_PCRCERR p
  if rx.cut = none && !rx.endOk then
    (s.bump F.PORT_LINKERR_LWERR p).modPort p (fun x => { x with resync := true })
  else s

/-- Check 9: BAD or TRUNC is set. -/
def tainted (f : Frame) : Bool := f.spoilt

-- Drops before a frame is handled -------------------------------------------------------------------------------------

/-- The Counting board object that a memory-form frame names, if any. -/
def objectOf (off : Nat) : Option Nat :=
  if 0x00F000000000 ≤ off && off < 0x00F000400000 then some ((off - 0x00F000000000) / 64) else none

/-- The frame is a SYNC request to a system object (R298, R329). -/
def toSystemObject (f : Frame) : Bool :=
  f.kind = 5 && f.op % 2 ^ 15 ≠ opRelease &&
  match objectOf f.offset with
  | some n => decide (0xFE00 ≤ n)
  | none => false

/-- The kinds whose MEPOCH is not checked (R329). -/
def epochExempt (f : Frame) : Bool := f.kind = 8 || f.kind = 9 || toSystemObject f

/-- e is ahead of the accepted epoch a in serial arithmetic (R329). -/
def epochAhead (e a : Nat) : Bool :=
  let d := (e + 65536 - a) % 65536
  decide (1 ≤ d) && decide (d ≤ 32767)

/-- R329: the frame's epoch is older or ahead; the field that counts it. -/
def State.epochFail (s : State) (f : Frame) : Option Fld :=
  let a := s.fld F.GLOBAL_MEPOCH_MEPOCH 0
  if epochExempt f || f.mepoch = a then none
  else if epochAhead f.mepoch a then some F.GLOBAL_MEPOCH_AHEAD
  else some F.GLOBAL_MEPOCH_OLD

/-- Drops that do not depend on the unit: a port that carries VC0 only (R325, R326), a fence (R332), and, where checked, the epoch
(R329). Answers the state in which the drop is counted, none where the frame goes on. -/
def State.dropped (s : State) (p : Option Nat) (f : Frame) (epoch : Bool) : Option State :=
  let held : Bool := match p with
    | some p => f.vc ≠ 0 && decide (s.lstate p < 5)
    | none => false
  let fs := s.fencesOf f
  if held then some (s.bump F.PORT_HEALTH_QDROP (p.getD 0))
  else if fs ≠ [] then some (fenceCount fs s)
  else if epoch then (s.epochFail f).map (fun fld => s.bump fld 0)
  else none

/-- The port faces an endpoint (R329). -/
def State.edgeIn (s : State) (p : Option Nat) : Bool :=
  match p with
  | some p => (s.port p).edge
  | none => false

-- Consumption ----------------------------------------------------------------------------------------------------------

/-- A unit's row of the table: which frames it takes, what else it counts when a frame fails check 8 or 9, what it does with a stored
frame that passed every check (none where the frame has to wait), and what it counts when a frame starts to wait. -/
structure Unit where
  takes : Frame → State → Bool
  bad : Frame → State → State := fun _ s => s
  use : Nat → Frame → State → Option State
  wait : Nat → Frame → State → State := fun _ _ s => s

/-- The unit takes the stored frame, or it waits at ingress. -/
def Unit.take (u : Unit) (i : Nat) (f : Frame) (s : State) : State :=
  match u.use i f s with
  | some s => s
  | none => toInbox i (u.wait i f s)

/-- A stored frame that passed checks 8 and 9 reaches its unit: drops, then for sequenced kinds the resequencer of group 8, then the unit. -/
def Unit.reach (u : Unit) (i : Nat) (p : Option Nat) (f : Frame) (s : State) : State :=
  match s.dropped p f true with
  | some s => discard i s
  | none =>
    if sequenced f then
      let (s, now) := reseqArrive 8 i s
      if now then u.take i f s else s
    else u.take i f s

/-- A frame for a unit arrives on port p, after checks 1 to 7. -/
def Unit.arrive (u : Unit) (i p : Nat) (rx : RxFrame) (s : State) : State :=
  let f := rx.frame
  if !tailOk rx then discard i (u.bad f (tailFail p rx s))
  else if tainted f then discard i (u.bad f (s.bump F.PORT_RXFRAME_BADIN p))
  -- no room for an MGMT frame (R225)
  else if f.kind = 8 && !rx.room then discard i (s.bump F.PORT_RXREJ_KINDERR p)
  else if s.paused f.vc then
    match s.buf i with
    | some b => toInbox i (s.setBuf i (some { b with fresh := true }))
    | none => s
  else u.reach i (some p) f s

/-- A stored frame that waits is handed to its unit. Frames that a resequencer released, that wait for space or that this switch formed were
checked when they came; copies through LOCAL are checked for epoch here, and for BAD and TRUNC. -/
def Unit.resume (u : Unit) (i : Nat) (b : Buf) (s : State) : State :=
  let out := { s with net := { s.net with inbox := s.net.inbox.erase i } }
  if tainted b.frame then discard i (u.bad b.frame out)
  else if b.fresh then u.reach i b.inPort b.frame (out.setBuf i (some { b with fresh := false }))
  else
    match s.dropped none b.frame true with
    | some s => discard i { s with net := { s.net with inbox := s.net.inbox.erase i } }
    | none =>
      match u.use i b.frame out with
      | some s => s
      | none => u.wait i b.frame s

/-- The frame is addressed to this switch (R202). -/
def State.forMe (s : State) (f : Frame) : Bool := s.isOwn f.dst

/-- The stored frame at place k of the inbox, with its number. -/
def State.waiting (s : State) (k : Nat) : Option (Nat × Buf) :=
  match s.net.inbox[k]? with
  | none => none
  | some i => (s.buf i).map (fun b => (i, b))

/-- A frame comes to the unit's row: it arrives on a port that carries words, or it waits here, its VC is not paused, and the unit takes it. -/
def Unit.offered (u : Unit) (f : Src) (s : State) : Bool :=
  match f with
  | .port p _ => s.linked p
  | .inbox k =>
    match s.waiting k with
    | none => false
    | some (_, b) => (s.forMe b.frame || (b.frame.dst = mcastDst && b.mc)) && u.takes b.frame s && !s.paused b.frame.vc

/-- What the unit's row does with a frame that comes to it. From a port, a frame that fails checks 1 to 7 is discarded and counted whatever row it
would belong to; one that passes them and is not this row's does not occur here (log entry 1). -/
def Unit.handle (u : Unit) (f : Src) (s0 : State) : State :=
  match f with
  | .port p rx =>
    match rxHead p rx s0 with
    | (none, s) => s
    | (some i, s) => if s0.forMe rx.frame && u.takes rx.frame s0 then u.arrive i p rx s else s0
  | .inbox k =>
    match s0.waiting k with
    | none => s0
    | some (i, b) => u.resume i b s0

/-- A row of the table that consumes a frame. -/
def consume (u : Unit) (f : Src) (s : State) : Host.Outcome State Fault Refusal := actIf (u.offered f s) (u.handle f) s

-- Forwarding (R229, R233, R234) -------------------------------------------------------------------------------------------

/-- The bank for a frame that arrived on port p: stamped frames take the CURRENT bank, others the bank of their RTE (R237). -/
def State.bankFor (s : State) (p : Nat) (f : Frame) : Option Nat :=
  if (s.port p).edge && s.net.tier ≠ .spine then some s.curBank else s.bankOf f.rte

/-- The frame that goes on: stamped with RTE where it came from an endpoint (R237). -/
def State.stamped (s : State) (p : Nat) (f : Frame) : Frame :=
  if (s.port p).edge && s.net.tier ≠ .spine then f.stampRte (s.fld F.ROUTE_BANK_EPOCH s.curBank) else f

/-- The frame arrived at a leaf on an uplink. -/
def State.fromUp (s : State) (p : Nat) : Bool := s.net.tier = .leaf && !(s.port p).edge

/-- The rate a port's links run at, in kb/s: 25.78125 Gb/s in keepalive (R18). -/
def State.linkRate (s : State) (p : Nat) : Nat := if s.lstate p = 6 then 25781250 else (s.port p).rate * 1000

/-- R233: the frame is sent cut-through. -/
def State.cutThrough (s : State) (p : Nat) (f : Frame) : Bool :=
  match s.bankFor p f with
  | none => false
  | some b =>
    match s.hop f b 0 (s.fromUp p) with
    | .to e _ _ =>
      (s.reg .PORT_FWDMODE p).getLsbD f.vc && f.dst ≠ mcastDst && !s.forMe f && (!sequenced f || s.portOf f.dst = none) &&
      decide (s.linkRate e ≤ s.linkRate p)
    | _ => false

/-- A stored unicast frame that arrived on port p and has its tail settled goes on: drops, bank, resequencer at its last hop, egress. -/
def forwardStored (i p : Nat) (s : State) : State :=
  match s.buf i with
  | none => s
  | some b =>
    let f := b.frame
    match s.dropped (some p) f (s.edgeIn (some p)) with
    | some s => discard i s
    | none =>
      if s.forMe f then discard i (s.bump F.PORT_RXREJ_ADDRERR p)
      else
        match s.bankFor p f with
        | none => discard i (s.bump F.ROUTE_FWD_TALLY_EPOCHDROP 0)
        | some k =>
          let s := s.setBuf i (some { b with frame := s.stamped p f })
          match s.portOf f.dst with
          | some e =>
            if s.portQuar e then discard i (s.bump F.PORT_HEALTH_QDROP e)
            else if sequenced f then (reseqArrive (portGroup e) i s).1
            else route i k 0 (s.fromUp p) s
          | none => route i k 0 (s.fromUp p) s

/-- The frame the egress sends: BAD is set where check 8 failed behind a cut-through start, and a frame cut short is completed (R211, R234). -/
def cutTail (rx : RxFrame) : Frame :=
  match rx.cut with
  | some n => rx.frame.truncated n
  | none => rx.frame.setBad

/-- FRAME_FORWARD takes the frame: unicast that the switch does not consume, and DATA addressed to it. -/
def State.forwards (s : State) (f : Frame) : Bool := f.dst ≠ mcastDst && (!s.forMe f || f.kind = 0)

/-- Among some stored frames is one of the same ingress port, VC and TC that waits to be forwarded, so that a later one waits behind it (R230). -/
def State.lineBusy (s : State) (l : List Nat) (p : Option Nat) (f : Frame) : Bool :=
  l.any (fun i => match s.buf i with
    | some b => b.inPort = p && p.isSome && !b.mc && b.frame.vc = f.vc && b.frame.tc = f.tc && (b.frame.dst = mcastDst || s.forwards b.frame)
    | none => false)

/-- A frame that arrives on port p to be forwarded waits: its VC is paused, or earlier frames of its line wait. -/
def State.mustQueue (s : State) (p : Nat) (f : Frame) : Bool := s.paused f.vc || s.lineBusy s.net.inbox (some p) f

/-- A unicast frame to forward arrives on port p, after checks 1 to 7. One that the switch would consume and that carries BAD or TRUNC counts in BADIN
alone (R212). -/
def forwardArrive (i p : Nat) (rx : RxFrame) (s : State) : State :=
  let f := rx.frame
  let cut := s.cutThrough p f && !s.mustQueue p f
  let go (f : Frame) (s : State) : State :=
    if tainted f && s.forMe f then discard i s
    else if s.mustQueue p f then toInbox i s
    else
      match s.buf i with
      | none => s
      | some b => forwardStored i p (s.setBuf i (some { b with frame := f }))
  if tailOk rx then go f (s.when (tainted f) (fun s => s.bump F.PORT_RXFRAME_BADIN p))
  else if cut then go (cutTail rx) (if rx.cut = none then tailFail p rx s else s)
  else discard i (tailFail p rx s)

/-- Stored frame i leaves the inbox. -/
def outOfInbox (i : Nat) (s : State) : State := { s with net := { s.net with inbox := s.net.inbox.erase i } }

/-- A frame comes to FRAME_FORWARD. A frame of a core to this switch that no unit takes comes here too. -/
def State.forwardOffered (s : State) (f : Src) : Bool :=
  match f with
  | .port p _ => s.linked p
  | .inbox k =>
    match s.waiting k with
    | none => false
    | some (_, b) =>
      match b.inPort with
      | none => s.forMe b.frame && (b.frame.kind = 0 || decide (9 < b.frame.kind))
      | some _ => s.forwards b.frame && !s.paused b.frame.vc && !s.lineBusy (s.net.inbox.take k) b.inPort b.frame

/-- What FRAME_FORWARD does with the frame. -/
def forwardHandle (f : Src) (s0 : State) : State :=
  match f with
  | .port p rx =>
    match rxHead p rx s0 with
    | (none, s) => s
    | (some i, s) => if s0.forwards rx.frame then forwardArrive i p rx s else s0
  | .inbox k =>
    match s0.waiting k with
    | none => s0
    | some (i, b) =>
      match b.inPort with
      | none => discard i (outOfInbox i s0)
      | some p => forwardStored i p (outOfInbox i s0)

/-- FRAME_FORWARD (R229): unicast frames that the switch does not consume, and DATA addressed to it, which is counted in ADDRERR (R221). -/
def execFrameForward (f : Src) (s : State) : Host.Outcome State Fault Refusal := actIf (s.forwardOffered f) (forwardHandle f) s

/-- A COLL frame with a bad PCRC, BAD or TRUNC that the collective unit would have consumed: its INST names a descriptor (R110). -/
def collBad (f : Frame) (s : State) : State := if (s.findDesc f.inst).isSome then s.bump F.SCHED_COLL_DROP_CRCDROP f.grp else s

/-- A multicast frame fails check 8 or 9 whose copy through LOCAL the collective unit would have consumed (R110, R249). -/
def mcastBad (f : Frame) (s : State) : State := s.when (f.kind = 3 && s.mcLocal f.mgrp) (collBad f)

/-- A multicast frame that arrived on port p, checked whole, is stored once and placed on its target queues. -/
def mcastStored (i p : Nat) (s : State) : State :=
  match s.buf i with
  | none => s
  | some b =>
    match s.dropped (some p) b.frame (s.edgeIn (some p)) with
    | some s => discard i s
    | none => multicast i false false (s.setBuf i (some { b with frame := s.stamped p b.frame }))

/-- A frame comes to MCAST_FRAME_RX. -/
def State.mcastOffered (s : State) (f : Src) : Bool :=
  match f with
  | .port p _ => s.linked p
  | .inbox k =>
    match s.waiting k with
    | none => false
    | some (_, b) => b.inPort.isSome && b.frame.dst = mcastDst && !b.mc && !s.paused b.frame.vc &&
        !s.lineBusy (s.net.inbox.take k) b.inPort b.frame

/-- What MCAST_FRAME_RX does with the frame. -/
def mcastHandle (f : Src) (s0 : State) : State :=
  match f with
  | .port p rx =>
    match rxHead p rx s0 with
    | (none, s) => s
    | (some i, s) =>
      if rx.frame.dst = mcastDst then
        if !tailOk rx then discard i (mcastBad rx.frame (tailFail p rx s))
        else
          let s := s.when (tainted rx.frame) (fun s => s.bump F.PORT_RXFRAME_BADIN p)
          if s.mustQueue p rx.frame then toInbox i s else mcastStored i p s
      else s0
  | .inbox k =>
    match s0.waiting k with
    | none => s0
    | some (i, b) => mcastStored i (b.inPort.getD 0) (outOfInbox i s0)

/-- MCAST_FRAME_RX (R249): always store-and-forward. -/
def execMcastFrameRx (f : Src) (s : State) : Host.Outcome State Fault Refusal := actIf (s.mcastOffered f) (mcastHandle f) s

end Sys2Proof.Machine
end

