-- ==== Sys2Proof/Machine/Egress.lean ====
section
/-!
DEFINITION. The egress of ports (R205, R215 to R219, R227, R236, R250, R266 to R270): starting and ending frames, the coarse wheel, ageing, queue samples,
link words, and what happens to queued frames when a port goes down.
-/
namespace Sys2Proof.Machine

open Sys2Proof

-- Starting a frame (R266, R267) -----------------------------------------------------------------------------------

/-- The head frame of a queue, staged frames passed over. -/
def EgQueue.head (x : EgQueue) : Option QEnt := x.live.head?

/-- The queue's head frame is eligible on the wheel (R268). -/
def State.eligible (s : State) (x : EgQueue) : Bool :=
  x.live ≠ [] && !x.coarse && decide (x.e / 1024 ≤ s.vtime / 1024)

/-- The VCs that the port carries now (R214): VC0 from PROBATION on, the others only at full rate and not in IDLE (R391). -/
def State.carries (s : State) (p v : Nat) : Bool := if v = 0 then decide (3 ≤ s.lstate p) else s.fullRate p && !s.idle

/-- The head frame of queue q may begin: eligible, its VC carried, and AVAIL at least its cells (R215). -/
def State.canStart (s : State) (p q : Nat) : Bool :=
  let x := (s.port p).queue q
  match x.head with
  | none => false
  | some e =>
    match s.buf e.buf with
    | none => false
    | some b =>
      s.eligible x && s.carries p b.frame.vc && decide (cellsOf b.frame.len ≤ ((s.port p).account b.frame.vc).avail) &&
        !b.frame.spec

/-- The queue with the least E, ties to the lower number. -/
def State.leastE (s : State) (p : Nat) (qs : List Nat) : Option Nat :=
  qs.foldl (fun (m : Option Nat) q =>
    match m with
    | none => some q
    | some n => if ((s.port p).queue q).e < ((s.port p).queue n).e then some q else m) none

/-- R266: the queue whose head frame begins: queue 0, then tier 1, then tier 2. -/
def State.nextQueue (s : State) (p : Nat) : Option Nat :=
  let ok := (List.range 32).filter (fun q => s.canStart p q)
  if ok.contains 0 then some 0
  else
    let t1 (q : Nat) : Bool := decide (20 ≤ q) && s.fld F.PORT_QSHAPE_RATE (32 * p + q) ≠ 0
    match s.leastE p (ok.filter t1) with
    | some q => some q
    | none => s.leastE p (ok.filter (fun q => !t1 q))

/-- Remove the first entry of a buffer. -/
def EgQueue.drop (x : EgQueue) (i : Nat) : EgQueue := { x with ents := dropFirst (fun (e : QEnt) => e.buf = i) x.ents }

/-- The words that something put on a port's link makes of the stream (R204): a link word is one; a frame is its header, payload, trailer and the zero
bytes up to the next multiple of 8. -/
def linkWords (p : Nat) : Out → List Word
  | .word n w => if n = p then [w] else []
  | .frame n f => if n = p then f.words else []
  | _ => []

/-- The words that the latest command put on port p's link, in order. -/
def State.stream (s : State) (p : Nat) : List Word := s.out.flatMap (linkWords p)

/-- The head frame of queue q begins behind its START word: credit is deducted, E and REM advance (R204, R215, R267). -/
def startFrame (p q : Nat) (s : State) : State :=
  let x := (s.port p).queue q
  match x.head with
  | none => s
  | some e =>
    match s.buf e.buf with
    | none => s
    | some b =>
      let v := b.frame.vc
      let a := (s.port p).account v
      let n := (b.frame.len + 40 + s.fld F.PORT_EGCFG_OVH p) * 2048000 + x.rem
      let r := s.qRate p q
      let x := { x.drop e.buf with e := x.e + (n / r : Nat), rem := n % r }
      let s := s.setQueue p q x
      let s := s.modPort p (fun t => { t.setAcct v { a with sent := (a.sent + cellsOf b.frame.len) % 2 ^ 32 } with tx := some (q, e.buf) })
      let s := (s.emit (.word p (linkWord 0x5F 0 0))).emit (.frame p b.frame)
      s.when (v ≠ 0) (fun s => s.modPort p (fun t => { t with lastData := s.now }))

/-- EGRESS_FRAME_START (R266): the port sends words, no frame is in transmission, and a queue qualifies. -/
def execEgressFrameStart (p : PortId) (s : State) : Host.Outcome State Fault Refusal :=
  match s.nextQueue p with
  | none => .next s
  | some q => actIf (s.linked p && (s.port p).tx = none) (startFrame p q) s

/-- A port with nothing else to send sends an IDLE word (R204). -/
def sendIdle (p : Nat) (s : State) : State := s.when (s.nextQueue p = none && decide (3 ≤ s.lstate p)) (fun s => s.emit (.word p (linkWord 0 0 0)))

/-- A frame's last bit leaves the egress lands (R250, R258): its reference and charge end, frames that waited for the store of a
die-to-die link cross, and the link words that waited leave. -/
def endFrame (p i : Nat) (s : State) : State :=
  sendIdle p (flushWords p (crossDrain (unref i 1 (s.modPort p (fun t => { t with tx := none })))))

-- The coarse wheel and ageing -----------------------------------------------------------------------------------------

/-- What COARSE_WHEEL_SLOT changes. -/
def coarseWheelSlotEffect (p : PortId) (slot : Fin 1024) (s : State) : State :=
  s.modPort p (fun t => { t with q := t.q.map (fun (x : Nat × EgQueue) =>
      if x.2.coarse && x.2.e / 1048576 % 1024 = (slot.val : Int) then (x.1, { x.2 with coarse := false }) else x) })

/-- COARSE_WHEEL_SLOT (R268): the queues of a coarse slot move to the fine wheel. -/
def execCoarseWheelSlot (p : PortId) (slot : Fin 1024) (s : State) : Host.Outcome State Fault Refusal :=
  act (coarseWheelSlotEffect p slot) s

/-- Take one entry of a queue out; what the multicast copy or frame owed is released. -/
def dequeue (p q i : Nat) (s : State) : State := s.setQueue p q (((s.port p).queue q).drop i)

/-- R227: the conditions under which the frames of a queue accrue waiting time: the port UP, the head eligible, and its credit short. -/
def State.starved (s : State) (p q : Nat) : Bool :=
  let x := (s.port p).queue q
  match x.head with
  | none => false
  | some e =>
    match s.buf e.buf with
    | none => false
    | some b => s.fullRate p && s.eligible x && decide (((s.port p).account b.frame.vc).avail < cellsOf b.frame.len)

/-- What EGRESS_AGEING changes. -/
def egressAgeingEffect (p : PortId) (q : Fin 32) (e : QEnt) (s : State) : State :=
  let mc : Bool := match s.buf e.buf with
    | some b => b.mc
    | none => false
  let s := dequeue p q e.buf (s.bump F.PORT_LINKERR_AGED p)
  crossDrain (unref e.buf 1 (s.when mc (fun s => s.bump F.MCAST_TALLY_MCDROP 0)))

/-- EGRESS_AGEING (R227, R250): frame i of a queue has waited 48 µs for credit. -/
def execEgressAgeing (p : PortId) (q : Fin 32) (i : Nat) (s : State) : Host.Outcome State Fault Refusal :=
  match ((s.port p).queue q).live[i]? with
  | none => .next s
  | some e =>
    actIf (s.starved p q) (egressAgeingEffect p q e) s

-- Queue sampling (R270) --------------------------------------------------------------------------------------------------

/-- One queue is sampled. -/
def sampleQueue (p q : Nat) (s : State) : State :=
  let x := (s.port p).queue q
  let d := s.depth x
  let h := match x.head with
    | none => 0
    | some e => min ((s.now - e.since) / 256) (2 ^ 24 - 1)
  let i := 32 * p + q
  let s := ((s.setFld F.PORT_QSTAT_DEPTH i (min d (2 ^ 18 - 1))).setFld F.PORT_QSTAT_HOLDLY i h).raise F.PORT_QSTAT_MAXDEPTH i d
  let m := s.net.qmax.lk (0, 0) i
  { s with net := { s.net with qmax := s.net.qmax.put (0, 0) i (max m.1 d, max m.2 h) } }

/-- What QUEUE_SAMPLE changes. -/
def queueSampleEffect (s : State) : State := eachDo s.portList (fun p s => eachDo (List.range 32) (sampleQueue p) s) s

/-- QUEUE_SAMPLE (R270): at a 1 µs boundary every queue of every port is sampled. -/
def execQueueSample (s : State) : Host.Outcome State Fault Refusal :=
  act queueSampleEffect s

-- Link words -----------------------------------------------------------------------------------------------------------

/-- The word is a link word with a good CHK and a known LTYPE, and the receiver expects one. -/
def goodWord (w : Word) (lt : Nat) : Bool := lwGood w && lwType w = lt

/-- What CREDIT_RX changes. -/
def creditRxEffect (p : PortId) (w : Word) (s : State) : State :=
  s.modPort p (fun x => { x.setAcct (lwVc w) { x.account (lwVc w) with lastFreed := lwCount w } with resync := false })

/-- CREDIT_RX (R216): LASTFREED of the VC becomes COUNT. A good word also ends a resynchronisation. -/
def execCreditRx (p : PortId) (w : Word) (s : State) : Host.Outcome State Fault Refusal :=
  actIf (s.linked p && goodWord w 0xC1) (creditRxEffect p w) s

/-- What CSYNC_RX changes. -/
def csyncRxEffect (p : PortId) (w : Word) (s : State) : State :=
  let s := s.modPort p (fun x => { x with resync := false })
  let x := s.port p
  let a := x.account (lwVc w)
  let d := (lwCount w + 2 ^ 32 - a.received) % 2 ^ 32
  if d < 2 ^ 31 then
    let s := s.setPort p (x.setAcct (lwVc w) { a with received := lwCount w })
    if d = 0 then s else repay ⟨p, lwVc w, d, x.ups⟩ (s.bumpN F.PORT_LINKERR_LOSTCELL p d)
  else s.bump F.PORT_LINKERR_LWERR p

/-- CSYNC_RX (R217): lost cells are returned, or the word is rejected. -/
def execCsyncRx (p : PortId) (w : Word) (s : State) : Host.Outcome State Fault Refusal :=
  actIf (s.linked p && goodWord w 0xC2) (csyncRxEffect p w) s

/-- What LINK_WORD_BAD changes. -/
def linkWordBadEffect (p : PortId) (s : State) : State := (s.bump F.PORT_LINKERR_LWERR p).modPort p (fun x => { x with resync := true })

/-- LINK_WORD_BAD (R205): a bad CHK or a reserved LTYPE where a link word is expected begins an episode. -/
def execLinkWordBad (p : PortId) (w : Word) (s : State) : Host.Outcome State Fault Refusal :=
  actIf (s.linked p && !(lwGood w && lwKnown w) && !(s.port p).resync) (linkWordBadEffect p) s

/-- What LINK_WORD_RESYNC changes. -/
def linkWordResyncEffect (p : PortId) (s : State) : State := s.modPort p (fun x => { x with resync := false })

/-- LINK_WORD_RESYNC (R205): during an episode a link word with a good CHK arrives. -/
def execLinkWordResync (p : PortId) (w : Word) (s : State) : Host.Outcome State Fault Refusal :=
  actIf (s.linked p && lwGood w && (s.port p).resync) (linkWordResyncEffect p) s

/-- What CREDIT_REFRESH changes. -/
def creditRefreshEffect (p : PortId) (s : State) : State :=
  eachDo (List.range 16) (fun v s =>
      if ((s.port p).account v).limit = 0 then s else sendWord p 0xC1 v s) s

/-- CREDIT_REFRESH (R216): a CREDIT word for each VC whose LIMIT is nonzero. -/
def execCreditRefresh (p : PortId) (s : State) : Host.Outcome State Fault Refusal :=
  actIf (s.linked p) (creditRefreshEffect p) s

/-- CSYNC_SEND (R217): a CSYNC word that carries SENT(v). -/
def execCsyncSend (p : PortId) (v : Vc) (s : State) : Host.Outcome State Fault Refusal :=
  actIf (s.linked p) (sendWord p 0xC2 v.toNat) s

/-- R216, R267: the link comes up: accounts start again with LIMIT read now, every queue's E is V, and the first CREDIT words are sent. -/
def linkUp (p : Nat) (s : State) : State :=
  let lim (v : Nat) : Nat := if v = 0 then 8 else s.fld F.PORT_VCCRED_LIMIT (16 * p + v)
  let acct := (List.range 16).foldl (fun m v => SMap.put m {} v { freed := lim v, limit := lim v : Acct }) []
  let v := s.vtime
  let s := s.modPort p (fun x => { x with
    acct := acct, ups := x.ups + 1, resync := false, tx := none, words := [], ka := .none,
    q := (List.range 32).foldl (fun m q => SMap.put m {} q { x.queue q with e := v, rem := 0, coarse := false }) [] })
  eachDo (List.range 16) (fun v s => if lim v = 0 then s else sendWord p 0xC1 v s) s

-- A port goes down (R219, R236) --------------------------------------------------------------------------------------------

/-- A frame queued for a port that went down, and not begun. One whose RTE no bank in use has is discarded at this lookup (R235, R237). -/
def requeue (i : Nat) (s : State) : State :=
  match s.buf i with
  | none => s
  | some b =>
    if b.mc then unref i 1 (s.bump F.MCAST_TALLY_MCDROP 0)
    else if b.up then
      match s.bankOf b.frame.rte with
      | none => discard i (s.bump F.ROUTE_FWD_TALLY_EPOCHDROP 0)
      | some k => match s.hop b.frame k b.rset false with
        | .to n _ _ =>
          -- an uplink that a spine's own FNID names is no choice: down, it cannot carry the frame
          let st := s.lstate n
          if st < 3 || (st < 5 && b.frame.vc ≠ 0) then route i k b.rset false s
          else route i k b.rset false ((s.setBuf i (some { b with diverted := true })).bump F.ROUTE_PATH_TALLY_REROUTE 0)
        | _ => route i k b.rset false s
    else discard i (s.bump F.ROUTE_FWD_TALLY_LINKDOWN 0)

/-- Frames that wait to cross toward port p do so no longer: a unicast frame is chosen again, a multicast copy for that port is released. -/
def waitDrop (p : Nat) (s : State) : State :=
  let mine := s.net.xwait.filter (fun c => c.ports.contains p)
  let mc (c : Cross) : Bool := match s.buf c.buf with
    | some b => b.mc
    | none => false
  let keep := s.net.xwait.filterMap (fun c =>
    if !c.ports.contains p then some c
    else if mc c && c.ports ≠ [p] then some { c with ports := c.ports.filter (· ≠ p) }
    else none)
  eachDo mine (fun c s =>
    if mc c && c.ports ≠ [p] then s.bump F.MCAST_TALLY_MCDROP 0 else requeue c.buf s) { s with net := { s.net with xwait := keep } }

/-- R219, R236: the port's credit accounts are discarded, the frame in transmission is lost, and queued frames are handled. Staged copies are left to
their unit. LSTATE has been set before. -/
def portDrop (p : Nat) (s : State) : State :=
  let x := s.port p
  let ents := (x.q.map (fun (y : Nat × EgQueue) => y.2.ents.filter (fun e => !e.staged))).flatten
  let s := s.setPort p { x with
    acct := [], tx := none, words := [], resync := false, ka := .none, heard := false, ucw := 0, quiz := none,
    ups := x.ups + 1,
    q := (List.range 32).foldl (fun m k => SMap.put m {} k
      { x.queue k with ents := (x.queue k).ents.filter (fun e => e.staged), coarse := false }) [] }
  let s := match x.tx with
    | some (_, i) =>
      let mc : Bool := match s.buf i with
        | some b => b.mc
        | none => false
      unref i 1 (s.when mc (fun s => s.bump F.MCAST_TALLY_MCDROP 0))
    | none => s
  let s := eachDo ents (fun e s => requeue e.buf s) s
  -- a lane quiz ends without its echo
  let s := if x.quiz.isSome then quizRecFree 1 p (portDie p) 3 s else s
  crossDrain (waitDrop p s)

end Sys2Proof.Machine
end

