-- ==== Sys2Proof/Machine/Fabric.lean ====
section
/-!
DEFINITION. The fabric engine of a Rod core (R95 to R97, R259, R289, R290): FSEND, FRECV, FMEM, FSYNC and FFENCE, the frames that wait for an
FRECV, and the answers of memory requests.
-/
namespace Sys2Proof.Machine

open Sys2Proof

-- The queue FQ ---------------------------------------------------------------------------------------------------

/-- Earlier commands of FQ have sent all their repeats, so that the next may issue (R79). -/
def Core.fqFree (k : Core) : Bool := (k.queue 3).fly.all (fun f => f.todo = [])

/-- Change the issued commands of FQ. -/
def Core.modFly (k : Core) (f : Fly → Fly) : Core := k.setQueue 3 { k.queue 3 with fly := (k.queue 3).fly.map f }

/-- Commands at the front of FQ that have completed signal their tokens in push order (R79). -/
def fqRetire (c : Nat) (s : State) : State :=
  let q := (s.core c).queue 3
  let fin (f : Fly) : Bool := f.left = [] && f.todo = []
  eachDo (q.fly.takeWhile fin) (fun f s => signalBy c 3 (fqParty f.id) f.cmd (s.modCore c (Core.worked f.since s.now s.now)))
    (s.modCore c (fun k => k.setQueue 3 { q with fly := q.fly.dropWhile fin }))

/-- A command enters execution in FQ with its repeats to do and to complete; its number is answered. -/
def fqEnter (c : Nat) (h : Cmd) (todo left : List Nat) (s : State) : State :=
  s.modCore c (fun k => { (k.setQueue 3 { k.queue 3 with fly := (k.queue 3).fly ++ [{ cmd := h, id := k.nextId, left := left, todo := todo, since := s.now }] })
    with nextId := k.nextId + 1 })

/-- Repeat r of command id has completed. -/
def fqDone (c id r : Nat) (s : State) : State :=
  fqRetire c (s.modCore c (fun k => k.modFly (fun f => if f.id = id then { f with left := f.left.filter (fun x => x ≠ r) } else f)))

/-- The head command of FQ, where it may issue and has opcode opc. -/
def fqHead (c opc : Nat) (s : State) : Option Cmd :=
  match s.issuable c 3 with
  | some h => if cwOpc h.w = opc && (s.core c).fqFree then some h else none
  | none => none

/-- The repeats that could not be sent keep waiting. A command in execution finishes even where its core is in FAULT (R100). -/
def fqSendAll (send : Cmd → Nat → State → Option State) (h : Cmd) : List Nat → State → List Nat × State
  | [], s => ([], s)
  | r :: t, s =>
    match send h r s with
    | none => (r :: t, s)
    | some s => fqSendAll send h t s

/-- The command of FQ that still has repeats to send. -/
def Core.fqSending (k : Core) : Option Fly := (k.queue 3).fly.find? (fun f => f.todo ≠ [])

/-- The latest issued command of FQ, or one that was sending, has repeats todo left to send. -/
def fqTodo (c id : Nat) (todo : List Nat) (s : State) : State :=
  s.modCore c (fun k => k.modFly (fun f => if f.id = id then { f with todo := todo } else f))

-- FSEND (R96, R259) ------------------------------------------------------------------------------------------------

/-- The kinds whose TAG Table 7.12 gives as 0. -/
def tagless (kind : Nat) : Bool := [0, 3, 4, 6, 7, 8, 9].contains kind

/-- The kinds whose SEQ Table 7.12 gives as 0. -/
def seqless (kind : Nat) : Bool := [3, 4, 6, 8, 9].contains kind

/-- The VC that a frame the switch forms travels on (R213): its kind's; for COLL that of the descriptor INST names, otherwise the template's among VC6 to
VC15 (DESIGN CHOICE, log entry 126). A reserved KIND has none and keeps the template's. -/
def State.formedVc (s : State) (f : Frame) : Nat :=
  match f.kind with
  | 0 => 3
  | 1 => 1
  | 2 => 2
  | 3 => match s.findDesc f.inst with
    | some (_, samp, i) => 6 + (s.desc samp i).group % 10
    | none => if 6 ≤ f.vc then f.vc else 6
  | 4 => 4
  | 5 => 5
  | 6 => 4
  | 7 => 2
  | 8 => 0
  | 9 => 0
  | _ => f.vc

/-- What Tables 7.6 to 7.12 make a sender write in a header: zero in reserved bits, in SPEC, in TAG and SEQ where the kind has none and in MGRP of a
unicast frame; and the VC (R207, R209, R213). -/
def State.legalHdr (s : State) (f : Frame) : Frame :=
  let f : Frame := { f with h0 := wset (wset (wset f.h0 14 2 0) 9 1 0) 4 4 (s.formedVc f), h2 := wset f.h2 50 14 0 }
  let f : Frame := if f.dst = mcastDst then f else { f with h2 := wset f.h2 36 14 0 }
  let f : Frame := if tagless f.kind then { f with h2 := wset f.h2 24 12 0 } else f
  if seqless f.kind then { f with h2 := wset f.h2 0 24 0 } else f

/-- The frame of an FSEND repeat: the template's header with SRC, LEN, MEPOCH, STEP, STRICT, RTE, SEQ of a sequenced kind, and the checks
filled in, and zero where a sender must write zero (Table 3.10, R207, R209, R213, R237, R240). -/
def fsendFrame (c : Nat) (h : Cmd) (r : Nat) (s : State) : Frame × State :=
  let k := s.core c
  let w (i : Nat) : Word := BitVec.ofNat 64 (Mem.rdN k.rmem 0 (h.yAddr r + 8 * i) 8)
  let pay := Mem.rd k.rmem 0 (h.xAddr r) (cwImm h.w)
  let b (x : Bool) : Nat := if x then 1 else 0
  let h0 := wset (wset (wset (wset (w 0) 48 13 pay.length) 32 16 s.net.fnid.toNat) 12 2 (s.fld F.ROUTE_BANK_EPOCH s.curBank)) 11 1 (b s.strict)
  let h3 := wset (wset (w 3) 0 16 (s.fld F.GLOBAL_MEPOCH_MEPOCH 0)) 16 32 (wbits k.step 0 32)
  let f := s.legalHdr ⟨h0, w 1, w 2, h3, pay, BitVec.ofNat 64 (crc32 pay).toNat⟩
  if sequenced f then
    let key := f.dst.toNat
    let q := s.net.seqNext.lk 0 key
    ({ f with h2 := wset f.h2 0 24 q }.sealHdr,
      { s with net := { s.net with seqNext := s.net.seqNext.put 0 key ((q + 1) % 2 ^ 24) } })
  else (f.sealHdr, s)

/-- A credit is lacking for a frame formed on a die (R96): on its VC at the port it leaves by, beside what is queued there, or on the link to that port's
die. A frame to this switch, to a group or to no port needs none here (DEDUCED, log entry 126). -/
def State.creditShort (s : State) (f : Frame) (die : Nat) : Bool :=
  if f.dst = mcastDst || s.isOwn f.dst || s.fencesOf f ≠ [] then false
  else match s.hop f s.curBank 0 false with
    | .to p _ _ =>
      (s.fullRate p && decide (((s.port p).account f.vc).avail < s.vcDepth p f.vc + cellsOf f.len)) ||
        (decide (5 ≤ s.lstate p) && (!s.crossRoom die (p / 32) f || s.crossBusy die (p / 32) f.vc))
    | _ => false

/-- One repeat of FSEND: none where Caddy refuses space at the core's quota or a credit is lacking (R96). -/
def fsendRep (c id : Nat) (h : Cmd) (r : Nat) (s : State) : Option State :=
  match slotTake (coreSlot c) (cellsOf (cwImm h.w)) s with
  | none => none
  | some (held, s) => sharedTry c (fqParty id) [(h.yAddr r, 32, false), (h.xAddr r, cwImm h.w, false)] (fun s =>
    let (f, s) := fsendFrame c h r s
    if s.creditShort f (coreDie c) then none
    else some (sendOrigin f { die := coreDie c, charge := .slot (coreSlot c) held } s)) s

/-- The template and the payload lie in Rod memory. -/
def fsendOk (h : Cmd) (r : Nat) : Bool := rodRange (h.yAddr r) 32 && rodRange (h.xAddr r) (cwImm h.w)

/-- The waiting repeats of an issued FSEND are sent as far as space allows; a repeat that starts to wait counts in WAIT (R256). -/
def fsendGo (c : Nat) (h : Cmd) (id : Nat) (reps : List Nat) (s : State) : State :=
  let (left, s) := fqSendAll (fsendRep c id) h reps s
  let s := s.when (left ≠ [] && (slotTake (coreSlot c) (cellsOf (cwImm h.w)) s).isNone) (fun s => s.bump F.CADDY_QTALLY_WAIT (coreSlot c))
  fqRetire c ((fqTodo c id left s).modCore c (fun k => k.modFly (fun f => if f.id = id then { f with left := left } else f)))

/-- What FSEND changes. -/
def fsendEffect (c : CoreId) (h : Cmd) (s : State) : State :=
  let s := popHead c 3 s
  let reps := List.range (cwCount h.w)
  let id := (s.core c).nextId
  if reps = [] then fqRetire c (fqEnter c h [] [] (countEmpty c s))
  else if reps.all (fsendOk h) then fsendGo c h id reps (fqEnter c h reps reps s)
  else coreFault c .cmdRange 3 h.pc s

/-- FSEND issues (Table 3.10, R96). -/
def execFsend (c : CoreId) (s : State) : Host.Outcome State Fault Refusal :=
  match fqHead c 0x01 s with
  | none => .next s
  | some h => act (fsendEffect c h) s

/-- The FSEND of core c that waits, with its next repeat sent where Caddy has space now. -/
def fsendNext (c : Nat) (s : State) : Option State :=
  match (s.core c).fqSending with
  | none => none
  | some f =>
    if cwOpc f.cmd.w ≠ 0x01 then none
    else match f.todo with
      | [] => none
      | r :: t =>
        match fsendRep c f.id f.cmd r s with
        | none => none
        | some s => some (fsendGo c f.cmd f.id t s)

/-- FSEND_ACCEPTED (R96): Caddy accepts the waiting frame; with its last frame the command completes. -/
def execFsendAccepted (c : CoreId) (s : State) : Host.Outcome State Fault Refusal :=
  match fsendNext c s with
  | none => .next s
  | some _ => act (fun s => (fsendNext c s).getD s) s

-- FRECV (R97) --------------------------------------------------------------------------------------------------------

/-- Repeat r of an FRECV awaits the frame: KIND, instance and index are its key (Table 3.10). -/
def frecvKey (h : Cmd) (r : Nat) (f : Frame) : Bool :=
  cwXarg h.w % 16 = f.kind && cwImm h.w = f.inst && h.zAddr r % 2 ^ 32 = f.index

/-- The pending FRECV repeats of a core, in push order: command number, command, repeat. -/
def Core.frecvs (k : Core) : List (Nat × Cmd × Nat) :=
  ((k.queue 3).fly.filter (fun f => cwOpc f.cmd.w = 0x02)).flatMap (fun f => f.left.map (fun r => (f.id, f.cmd, r)))

/-- FP32 elements added one by one in arrival order (R56); bytes beyond the last whole element are ignored. -/
def fp32AddBytes (old new : List Byte) : List Byte :=
  ((List.range (new.length / 4)).map (fun i => bytesLE 4 (fp32Add (leAt old (4 * i) 4) (leAt new (4 * i) 4)))).flatten

/-- The payload of a matched frame is written or added, and the repeat completes. -/
def frecvTake (c id : Nat) (h : Cmd) (r : Nat) (pay : List Byte) (s : State) : State :=
  let a := h.xAddr r
  if rodRange a pay.length then
    fqDone c id r (sharedDo c (fqParty id) [(a, pay.length, true)] (fun s =>
      let k := s.core c
      s.setCore c (k.wrMem a (if cwMode h.w = 1 then fp32AddBytes (Mem.rd k.rmem 0 a pay.length) pay else pay))) s)
  else fqDone c id r (coreFault c .cmdRange 3 h.pc s)

/-- The FRECV that takes a frame: the lowest core with one pending, its earliest-pushed (R97, log entry 15). -/
def State.frecvFor (s : State) (f : Frame) (only : Option Nat) : Option (Nat × Nat × Cmd × Nat) :=
  s.cores.findSome? (fun (x : Nat × Core) =>
    if only = none || only = some x.1 then (x.2.frecvs.find? (fun y => frecvKey y.2.1 y.2.2 f)).map (fun y => (x.1, y)) else none)

/-- A pending FRECV takes stored frame i where there is one and the frame can cross to its core's die (R97, R253). -/
def frecvTry (i : Nat) (s : State) : Option State :=
  match s.buf i with
  | none => none
  | some b =>
    match s.frecvFor b.frame b.only with
    | some (c, id, h, r) =>
      if s.crossRoom b.die (coreDie c) b.frame then some (discard i (frecvTake c id h r b.frame.payload s)) else none
    | none => none

/-- Stored frame i is offered to FRECV: it is taken by one that is pending, otherwise it waits (R97, R110, R146). -/
def offerFrecv (i : Nat) (s : State) : State :=
  (frecvTry i s).getD { s with net := { s.net with unmatched := s.net.unmatched ++ [i] } }

/-- Frames that wait for an FRECV are offered again, oldest first: one that had to cross to the core's die may do so now. -/
def frecvAgain (s : State) : State :=
  eachDo s.net.unmatched (fun i s =>
    match frecvTry i s with
    | some s => { s with net := { s.net with unmatched := s.net.unmatched.erase i } }
    | none => s) s

/-- A repeat of a new FRECV takes the oldest waiting frame with its key. -/
def frecvScan (c id : Nat) (h : Cmd) (r : Nat) (s : State) : State :=
  match s.net.unmatched.find? (fun i => match s.buf i with
    | some b => frecvKey h r b.frame && (b.only = none || b.only = some c) && s.crossRoom b.die (coreDie c) b.frame
    | none => false) with
  | none => s
  | some i =>
    match s.buf i with
    | none => s
    | some b =>
      frecvTake c id h r b.frame.payload (discard i { s with net := { s.net with unmatched := s.net.unmatched.erase i } })

/-- What FRECV changes. -/
def frecvEffect (c : CoreId) (h : Cmd) (s : State) : State :=
  let s := popHead c 3 s
  let reps := List.range (cwCount h.w)
  let id := (s.core c).nextId
  if reps = [] then fqRetire c (fqEnter c h [] [] (countEmpty c s))
  else if cwMode h.w = 1 && s.strict then fqRetire c (fqEnter c h [] [] (countEmpty c (countStrictRej c s)))
  else eachDo reps (fun r s => frecvScan c id h r s) (fqEnter c h [] reps s)

/-- FRECV issues (Table 3.10, R97, R311): under strict mode MODE 1 completes empty. -/
def execFrecv (c : CoreId) (s : State) : Host.Outcome State Fault Refusal :=
  match fqHead c 0x02 s with
  | none => .next s
  | some h => act (frecvEffect c h) s

-- Memory requests of a core (R290) ------------------------------------------------------------------------------------

/-- One request is issued: its own cells and its reply's are reserved at the core's slot, then it is sent; none while space is lacking
(R96, R259). -/
def sendRequest (c id r : Nat) (q : FmRec) (pay : List Byte) (ary : Nat) (sync : Bool) (s : State) : Option State :=
  let k := s.core c
  match slotTake (coreSlot c) (cellsOf pay.length) s with
  | none => none
  | some (own, s) =>
    let n := replyLen q.op pay
    match slotTake (coreSlot c) (cellsOf n) s with
    | none => none
    | some (held, s) =>
      let isSync := isSyncOp q.op
      let h : Hdr := {
        kind := if isSync then 5 else 1, vc := if isSync then 5 else 1, tc := q.tc, dst := q.dst, h1 := h1Mem q.op q.off,
        tag := q.tag, step := wbits k.step 0 32, ord := q.ord && !isSync, payload := pay }
      let (hd, s) := numbered h s
      let rq : FReq := {
        id := id, rep := r, dst := q.dst, seq := hd.seq, ary := ary, rlen := n, store := q.op % 2 ^ 15 = 2, sync := sync, held := held }
      -- the number is in use again: an answer to an earlier request under it is over (R290)
      let s := { s with board := { s.board with late := s.board.late.filter (fun x => x ≠ (q.dst, hd.seq)) } }
      let s := s.modCore c (fun k => { k with freqs := k.freqs ++ [rq] })
      some (sendOrigin (s.form hd) { die := coreDie c, charge := .slot (coreSlot c) own } s)

/-- A repeat whose record has gone bad since its command issued is not sent: the core enters FAULT and the repeat is done with (log entry 70). -/
def requestBad (c id : Nat) (h : Cmd) (r : Nat) (s : State) : State := fqDone c id r (coreFault c .cmdRange 3 h.pc s)

/-- One repeat of FMEM (R290). -/
def fmemRep (c id : Nat) (h : Cmd) (r : Nat) : State → Option State :=
  sharedTry c (fqParty id) [(h.xAddr r, 32, false)] fun s =>
    let q := fmemRec c h r s
    if fmemOk c h r s then
      sharedTry c (fqParty id) [(q.paddr, q.len, false)] (fun s => sendRequest c id r q (q.pay c s) (h.yAddr r) false s) s
    else some (requestBad c id h r s)

/-- The repeats of an issued FMEM or FSYNC are sent as far as space allows. -/
def requestGo (c : Nat) (rep : Cmd → Nat → State → Option State) (h : Cmd) (id : Nat) (reps : List Nat) (s : State) : State :=
  let (left, s) := fqSendAll rep h reps s
  let s := s.when (left ≠ []) (fun s => s.bump F.CADDY_QTALLY_WAIT (coreSlot c))
  fqRetire c (fqTodo c id left s)

/-- A command whose first request cannot be reserved does not issue; its wait is counted once (R96, R256). -/
def requestWaits (c : Nat) (s : State) : State :=
  let q := (s.core c).queue 3
  if q.wait.any (fun h => h.waited) then s
  else (s.modCore c (fun k => k.setQueue 3 { q with wait := modAt q.wait 0 (fun h => { h with waited := true }) })).bump F.CADDY_QTALLY_WAIT (coreSlot c)

/-- What a request command needs of its rows: whether the operands of a repeat are in range, and one repeat. -/
structure Requester where
  ok : Cmd → Nat → State → Bool
  rep : Nat → Cmd → Nat → State → Option State

/-- The head command issues its requests; it waits while the first cannot be reserved. Operands out of range in any repeat put the core in FAULT with
CMD_RANGE and nothing is performed. -/
def requestIssue (c : Nat) (u : Requester) (h : Cmd) (s : State) : State :=
  let s1 := popHead c 3 s
  let id := (s1.core c).nextId
  let reps := List.range (cwCount h.w)
  if reps = [] then fqRetire c (fqEnter c h [] [] (countEmpty c s1))
  else if !reps.all (fun r => u.ok h r s1) then coreFault c .cmdRange 3 h.pc s1
  else
    let s2 := fqEnter c h reps reps s1
    match u.rep id h 0 s2 with
    | none => requestWaits c s
    | some _ => requestGo c (u.rep id) h id reps s2

/-- The next waiting request of an issued FMEM or FSYNC is sent where space allows now. -/
def requestNext (c : Nat) (u : Requester) (f : Fly) (s : State) : Option State :=
  match f.todo with
  | [] => none
  | r :: t =>
    match u.rep f.id f.cmd r s with
    | none => none
    | some s => some (requestGo c (u.rep f.id) f.cmd f.id t s)

/-- The request rows: requests of an issued command that still wait go first; otherwise the head command issues. -/
def requestRow (c : Nat) (opc : Nat) (u : Requester) (rej : Cmd → State → Bool) (s : State) :
    Host.Outcome State Fault Refusal :=
  match (s.core c).fqSending with
  | some f =>
    actIf (cwOpc f.cmd.w = opc && s.finishing c && (requestNext c u f s).isSome) (fun s => (requestNext c u f s).getD s) s
  | none =>
    match fqHead c opc s with
    | none => .next s
    | some h => act (fun s =>
        if rej h s then fqRetire c (fqEnter c h [] [] (countEmpty c (countStrictRej c (popHead c 3 s))))
        else requestIssue c u h s) s

/-- What FMEM is to the request rows. -/
def fmemUnit (c : Nat) : Requester := ⟨fun h r s => fmemOk c h r s, fmemRep c⟩

/-- FMEM (R290, R311). -/
def execFmem (c : CoreId) (s : State) : Host.Outcome State Fault Refusal :=
  requestRow c 0x03 (fmemUnit c) (fun h s => s.strict && fmemFadd c h s) s

/-- One repeat of FSYNC: operation XARG[3:0] on object IMM[15:0] of the switch IMM[31:16] (log entry 14), its operand at ARX. The TAG is a free
value: nothing says how the engine numbers these requests. -/
def fsyncRep (c id : Nat) (h : Cmd) (r : Nat) (s : State) : Option State :=
  let op := fsyncOp h
  let n := fsyncLen h
  let q : FmRec := {
    op := op, off := 0x00F000000000 + 64 * (cwImm h.w % 65536), tc := 0, len := n, tag := wbits s.freeVal 0 12, ord := false,
    dst := BitVec.ofNat 16 (cwImm h.w / 65536), paddr := h.xAddr r }
  sharedTry c (fqParty id) (if n = 0 then [] else [(h.xAddr r, n, false)])
    (fun s => sendRequest c id r q (Mem.rd (s.core c).rmem 0 (h.xAddr r) n) (h.yAddr r) true s) s.freed

/-- What FSYNC is to the request rows. -/
def fsyncUnit (c : Nat) : Requester := ⟨fun h r _ => fsyncOk h r, fsyncRep c⟩

/-- FSYNC (Table 3.10). -/
def execFsync (c : CoreId) (s : State) : Host.Outcome State Fault Refusal := requestRow c 0x04 (fsyncUnit c) (fun _ _ => false) s

/-- What FNOP changes. -/
def fnopEffect (c : CoreId) (h : Cmd) (s : State) : State :=
  fqRetire c (fqEnter c h [] [] (s.when (cwCount h.w = 0) (countEmpty c) |> popHead c 3))

/-- FNOP completes at issue, in push order (R79). -/
def execFnop (c : CoreId) (s : State) : Host.Outcome State Fault Refusal :=
  match fqHead c 0x00 s with
  | none => .next s
  | some h => act (fnopEffect c h) s

/-- The fence status word (Table 10.8). -/
def fenceWord (nerr : Nat) : List Byte := bytesLE 8 (min nerr (2 ^ 32 - 1) <<< 32 + (if nerr = 0 then 0 else 1))

/-- What FFENCE changes. -/
def ffenceEffect (c : CoreId) (h : Cmd) (s : State) : State :=
  let s := popHead c 3 s
  let reps := List.range (cwCount h.w)
  let id := (s.core c).nextId
  if reps = [] then fqRetire c (fqEnter c h [] [] (countEmpty c s))
  else if reps.all (fun r => rodRange (h.xAddr r) 8) then
    fqRetire c (fqEnter c h [] [] (eachDo reps (fun r =>
      sharedDo c (fqParty id) [(h.xAddr r, 8, true)] (fun s => s.modCore c (fun k => k.wrMem (h.xAddr r) (fenceWord k.nerr)))) s))
  else coreFault c .cmdRange 3 h.pc s

/-- FFENCE (R290): every earlier command of FQ, and so every earlier FMEM, has its answer; the fence status is written. -/
def execFfence (c : CoreId) (s : State) : Host.Outcome State Fault Refusal :=
  match fqHead c 0x05 s with
  | none => .next s
  | some h =>
    actIf (((s.core c).queue 3).fly = []) (ffenceEffect c h) s

-- Answers (R289, R290) --------------------------------------------------------------------------------------------------

/-- An answer is written at ARY: the status word, then the data; the reserved space is released (R290). -/
def answerReq (c : Nat) (q : FReq) (word : Nat) (data : List Byte) (s : State) : State :=
  let out := (bytesLE 8 word ++ data).take (max 8 q.rlen)
  let s := sharedDo c (fqParty q.id) [(q.ary, out.length, true)] (fun s => s.modCore c (fun k =>
    { (k.wrMem q.ary out) with
      freqs := k.freqs.filter (fun x => !(x.id = q.id && x.rep = q.rep)),
      nerr := if word % 256 ≠ 0 && !q.sync then k.nerr + 1 else k.nerr })) s
  fqDone c q.id q.rep (slotFree (coreSlot c) q.held s)

/-- The request of some core that a (DST, SEQ) pair names. -/
def State.reqOf (s : State) (dst : Fnid) (seq : Nat) : Option (Nat × FReq) :=
  s.cores.findSome? (fun (x : Nat × Core) => (x.2.freqs.find? (fun q => q.dst = dst && q.seq = seq)).map (fun q => (x.1, q)))

/-- An answer to the request would come late from now on (R290). -/
def answerLate (q : FReq) (s : State) : State := { s with board := { s.board with late := s.board.late ++ [(q.dst, q.seq)] } }

/-- FMEM_TIMEOUT (R290): the i-th outstanding request has no answer FTIMEOUT after its issue. -/
def execFmemTimeout (c : CoreId) (i : Nat) (s : State) : Host.Outcome State Fault Refusal :=
  match (s.core c).freqs[i]? with
  | none => .next s
  | some q => actIf (!q.sync) (fun s => answerReq c q 11 [] (answerLate q s)) s

end Sys2Proof.Machine
end

