-- ==== Sys2Proof/Machine/Units.lean ====
section
/-!
DEFINITION. What the collective and expert units share: frames they form under a partition (R256, R261), how they take frames out of their ingress
charge, delivery bounds and their breaches (R130, R173, R275), and the end of a frame at the egress lands.
-/
namespace Sys2Proof.Machine

open Sys2Proof

-- Frames that a unit forms (R261) -----------------------------------------------------------------------------------

/-- The n cells of a formed frame, where what it waits for has them now: their charge. -/
def lineTake (l : Line) (n : Nat) (s : State) : Option (Charge × State) :=
  match l with
  | .part i => (partTake i 0 n s).map (fun x => (.part i x.1, x.2))
  | .loose d => (looseTake d n s).map (fun x => (.pool d x.1, x.2))
  | .slot r => (slotShared r n s).map (fun x => (.slot (allowance r) x.1, x.2))

/-- A reference of the stored activation that a frame refers to, if it refers to one (R156, R263). -/
def actRef (a : Option Nat) (s : State) : Option (Option Nat × State) :=
  match a.filter (fun j => (s.buf j).isSome) with
  | none => some (none, s)
  | some j => (addRef j s).map (fun x => (some x.1, x.2))

/-- The die a frame is formed on. -/
def State.formDie (s : State) (x : Formed) : Nat :=
  match x.line with
  | .part i => s.partDie i
  | _ => x.die

/-- A formed frame leaves, or is offered to the FRECVs of its core (R163), where it can have its cells now. It carries the route epoch of the bank that is
CURRENT as it leaves (R237). -/
def formTry (x : Formed) (s : State) : Option State :=
  match lineTake x.line (cellsOf x.frame.len) s with
  | none => none
  | some (c, s) =>
    match actRef x.act s with
    | none => none
    | some (act, s) =>
      let f := x.frame.stampRte (s.fld F.ROUTE_BANK_EPOCH s.curBank)
      match x.only, x.port with
      | some _, _ =>
        let (i, s) := store { frame := f, charge := c, die := s.formDie x, only := x.only, act := act } s
        some (offerFrecv i s)
      | none, some p => some (linkPlace p f c s)
      | none, none => some (sendOrigin f { die := s.formDie x, charge := c, owe := x.owe, rset := x.rset, own := x.own, down := x.down, act := act } s)

/-- A unit forms a frame: it is charged to the partition of its descriptor, or to what else stands behind it, and waits in order where that has no cells; the
wait is counted once (R256, R261). -/
def formSend (x : Formed) (s : State) : State :=
  if s.net.formed.any (fun y => y.line = x.line) then formWait x s
  else match formTry x s with
    | some s => s
    | none => formWait x s

/-- The frames that wait leave in order for each of the things they wait for, while it has cells; the others stay. -/
def formDrain (l : List Formed) (stuck : List Line) (s : State) : List Formed × State :=
  match l with
  | [] => ([], s)
  | x :: t =>
    if stuck.contains x.line then
      let (r, s) := formDrain t stuck s
      (x :: r, s)
    else match formTry x s with
      | some s => formDrain t stuck s
      | none =>
        let (r, s) := formDrain t (x.line :: stuck) s
        (x :: r, s)

-- Delivery bounds (R130, R173, R275) ------------------------------------------------------------------------------------

/-- The class of a breach (R275). -/
def State.breachClass (s : State) (m : Meas) : Nat :=
  if m.void then 0 else if s.holdSince m.tick then 1 else if m.link then 2 else 3

/-- The field that counts a class of breach. -/
def breachFld (c : Nat) : Fld :=
  match c with
  | 0 => F.SCHED_BREACH_VOID
  | 1 => F.SCHED_BREACH_HOLD
  | 2 => F.SCHED_BREACH_LINK
  | _ => F.SCHED_BREACH_FAULT

/-- A breach is counted, latched, recorded, and raised as a hardware fault where its class is FAULT (R275). -/
def breach (m : Meas) (excess port : Nat) (s : State) : State :=
  let c := s.breachClass m
  let leg := if m.own = .none then 0 else 1
  let w := mkWord [(1, 63), (c, 61), (leg, 60), (port % 128, 48), (m.inst % 65536, 32), (min excess (2 ^ 32 - 1), 0)]
  let s := s.bump (breachFld c) 0
  let s := if s.bit F.SCHED_BREACH_FIRST_VALID 0 then s else s.setReg .SCHED_BREACH_FIRST 0 w
  let s := addRec 0x0A dieAll [w, mkWord [(m.slot, 61), (wbits m.step 0 32, 0)]] s
  let s := match m.own with
    | .leg l st o _ _ => { s with exp := { s.exp with breached := s.exp.breached ++ [(l, st, o)] } }
    | .none => s
  s.when (c = 3) (raiseFault F.GLOBAL_FAULT_BREACH dieAll 0 0xFF)

/-- The delivery event of a measurement has come: the interval is compared with DEADLINE. -/
def measEnd (m : Meas) (s : State) : State :=
  match m.dep with
  | none => s
  | some (d, port) =>
    if ns m.deadline < d - m.closing then breach m ((d - m.closing) / 256 - m.deadline) port s else s

/-- A RESULT or STATUS frame of an instance (Table 4.6). -/
def isDelivery (f : Frame) : Bool := f.kind = 3 && (leAt f.payload 0 1 = 6 || leAt f.payload 0 1 = 7)

/-- The frame is one whose departure a measurement waits for. -/
def Meas.covers (m : Meas) (b : Buf) : Bool :=
  if m.own = .none then isDelivery b.frame && b.frame.inst = m.inst && b.frame.step = wbits m.step 0 32
  else b.own = m.own

/-- The stored frames that are queued or in transmission on a port. -/
def Port.bufs (x : Port) : List Nat :=
  (x.q.flatMap (fun (y : Nat × EgQueue) => y.2.ents.map QEnt.buf)) ++ (match x.tx with
    | some (_, i) => [i]
    | none => [])

/-- A frame that the measurement waits for is still to leave. -/
def State.measOpen (s : State) (m : Meas) : Bool :=
  s.net.formed.any (fun x => m.covers { frame := x.frame, own := x.own }) ||
  s.net.xwait.any (fun x => (m.own ≠ .none || x.ports.any (fun p => (s.port p).edge)) && (s.buf x.buf).any m.covers) ||
  s.net.ports.any (fun (x : Nat × Port) => (m.own ≠ .none || x.2.edge) && x.2.bufs.any (fun i => match s.buf i with
    | some b => m.covers b
    | none => false))

/-- Measurements whose last frame has left end. -/
def measSettle (s : State) : State :=
  let past (m : Meas) : Bool := m.armed && m.dep.isSome && !s.measOpen m
  let ends := s.coll.meas.filter past
  eachDo ends measEnd { s with coll := { s.coll with meas := s.coll.meas.filter (fun m => !past m) } }

/-- The departure of a COMBINED frame is the latest of its owner's in the layer step: the status leg runs from it (R173). -/
def noteCombined (b : Buf) (s : State) : State :=
  match b.own with
  | .leg l st o _ 1 =>
    { s with exp := { s.exp with layers := s.exp.layers.map (fun y =>
      if y.layer = l && y.step = st then { y with combOut := y.combOut.filter (fun c => c.1 ≠ o) ++ [(o, s.bclk, s.now)] } else y) } }
  | _ => s

/-- A departure is noted by the measurements it concerns. -/
def noteDeparture (p : Nat) (b : Buf) (s : State) : State :=
  let upd (m : Meas) : Meas :=
    let m := if m.covers b && (m.own ≠ .none || (s.port p).edge) then { m with dep := some (s.bclk, p) } else m
    let mine : Bool := if m.own = .none then b.frame.kind = 3 && b.frame.inst = m.inst && b.frame.step = wbits m.step 0 32 else b.own = m.own
    let m := if mine && b.diverted then { m with link := true } else m
    -- the status leg runs from the last COMBINED frame of the owner (R173)
    match m.own, b.own with
    | .leg l st o _ 2, .leg l' st' o' _ 1 => if l = l' && st = st' && o = o' then { m with closing := s.bclk, tick := s.now } else m
    | _, _ => m
  { s with coll := { s.coll with meas := s.coll.meas.map upd } }

/-- What EGRESS_FRAME_END changes. -/
def egressFrameEndEffect (p : PortId) (i : Nat) (s : State) : State :=
  let s := match s.buf i with
    | some b => noteCombined b (noteDeparture p b s)
    | none => s
  measSettle (endFrame p i s)

/-- EGRESS_FRAME_END (R250, R258): the last bit of the frame in transmission leaves the egress lands. -/
def execEgressFrameEnd (p : PortId) (s : State) : Host.Outcome State Fault Refusal :=
  match (s.port p).tx with
  | none => .next s
  | some (_, i) => act (egressFrameEndEffect p i) s

end Sys2Proof.Machine
end

