-- ==== Sys2Proof/Machine/Board.lean ====
section
/-!
DEFINITION. What answers requests (R281, R282, R258): replies, stores to acknowledge, the replay log (R294, R295), and the objects of the Counting board with
their WAITs and releases (R297 to R300).
-/
namespace Sys2Proof

/-- The operand of a request. -/
def Frame.operand (f : Frame) : List Byte := f.payload.take f.len

end Sys2Proof

namespace Sys2Proof.Machine

open Sys2Proof

-- Replies (R281, R258) ------------------------------------------------------------------------------------------------

/-- A memory status word (Table 10.4). -/
def statusWord (st : Nat) (foreign hit : Bool) : Nat := st % 256 + (if hit then 256 else 0) + (if foreign then 512 else 0)

/-- The MRSP that answers a request (R281). -/
def replyHdr (f : Frame) (pay : List Byte) : Hdr :=
  { kind := 2, vc := 2, tc := f.tc, dst := f.src, h1 := f.h1, tag := f.tag.toNat, seq := f.seq, payload := pay }

/-- Buffers taken away from a list of held ones. -/
def heldSub (a b : List Nat) : List Nat := (List.range 6).foldl (fun l k => cntSet l k (cnt l k - cnt b k)) a

/-- One of the held buffers, of the smallest pool. -/
def heldOne (a : List Nat) : List Nat :=
  match (List.range 6).find? (fun k => decide (0 < cnt a k)) with
  | some k => cntSet [] k 1
  | none => []

/-- A charge that holds no cells of its own: those that a core reserved hold the frame (R259). -/
def reservedCells (die : Nat) : Charge := .pool die []

/-- The core die that holds what lies at an offset (R15, R297): HBM stacks 3d to 3d + 2, cores 64d to 64d + 63 and objects 16,384d on lie on die d. -/
def placeDie (off : Nat) : Option Nat :=
  match placeOf off with
  | .hbm o => some ((hbmPlace o).1 / 3)
  | .rod c _ => some (coreDie c)
  | .imem c _ => some (coreDie c)
  | .board n _ => some (n / 16384)
  | _ => none

/-- Stored request i crosses to the die that holds what it names (R15, R253); none where the link has no room or others of its VC wait for it. -/
def goHome (i : Nat) (f : Frame) (s : State) : Option State :=
  match s.buf i, placeDie f.offset with
  | some b, some d =>
    if b.die = d then some s
    else if s.crossRoom b.die d f && !s.crossBusy b.die d f.vc then some (crossOver i d s).2
    else none
  | _, _ => some s

/-- The cells of a charge that lie behind a stored request: those of its slot, or those of the link that it crossed (R253, R258). -/
def Charge.frameCells (c : Charge) : Nat :=
  match c with
  | .slot _ held => held.foldl (· + ·) 0
  | .cross _ _ _ n => n
  | _ => 0

/-- Stored request i is consumed and answered. The reply to a request from a port takes over its cells, wherever they lie, and any further cells come from the
shared allowance of the port's slot; none where they are not available yet (R258). The reply to a request of a core lies in the cells that the core reserved
(R259). -/
def reply (i : Nat) (word : Nat) (data : List Byte) (s : State) : Option State :=
  match s.buf i with
  | none => some s
  | some b =>
    let pay := bytesLE 8 word ++ data
    let h := replyHdr b.frame pay
    match b.inPort with
    | none => some (sendPlain h { die := b.die, charge := reservedCells b.die } (discard i s))
    | some p =>
      match slotShared p (cellsOf pay.length - b.charge.frameCells) (s.setBuf i (some { b with charge := .none })) with
      | none => none
      | some (more, s) => some (sendPlain h { die := b.die, charge := .both b.charge (.slot (allowance p) more) } (discard i s))

/-- The fields of MEMREG_ERR that count refusals (Table 10.17). -/
def countErr (st : Nat) (s : State) : State :=
  match st with
  | 2 => s.bump F.MEMREG_ERR_RANGE 0
  | 3 | 4 | 7 => s.bump F.MEMREG_ERR_BADOP 0
  | 5 => s.bump F.MEMREG_ERR_DENIED 0
  | 6 | 8 => s.bump F.MEMREG_ERR_UE 0
  | _ => s

/-- A store is consumed; an ACK will name it with its status (R282), in a cell of the store's that it takes over (R258). -/
def ackStore (i st : Nat) (s : State) : State :=
  match s.buf i with
  | none => s
  | some b =>
    let (keep, rest) : Charge × Charge := match b.inPort, b.charge with
      | none, c => (reservedCells b.die, c)
      | some _, .slot r held => (.slot r (heldOne held), .slot r (heldSub held (heldOne held)))
      | some _, .cross a b v n => (.cross a b v 1, .cross a b v (n - 1))
      | some _, c => (.none, c)
    let s := s.setBuf i (some { b with charge := rest })
    discard i { s with board := { s.board with dones := s.board.dones ++ [⟨b.frame.src, b.frame.dst, b.frame.seq, st, b.die, keep⟩] } }

/-- A request waits for further cells of the slot of the port that it came by; its wait is counted once (R256). What waits to cross dies asks for none
(R253). -/
def reqWait (i : Nat) (f : Frame) (s : State) : State :=
  match s.buf i with
  | none => s
  | some b =>
    if b.waited || (goHome i f s).isNone then s
    else
      let s := s.setBuf i (some { b with waited := true })
      match b.inPort with
      | some p => s.bump F.CADDY_QTALLY_WAIT p
      | none => s

/-- Stores of one pair and one status within 64 sequence numbers of the lowest of them, the oldest store to acknowledge among them. -/
def doneGroup (d : DoneRec) (l : List DoneRec) : List DoneRec :=
  let same := l.filter (fun x => x.src = d.src && x.dst = d.dst && x.status = d.status)
  let back (x : DoneRec) : Nat := (d.seq + 2 ^ 24 - x.seq) % 2 ^ 24
  let lo := (same.map back).foldl (fun m b => if b < 64 then max m b else m) 0
  let first := (d.seq + 2 ^ 24 - lo) % 2 ^ 24
  same.filter (fun x => decide ((x.seq + 2 ^ 24 - first) % 2 ^ 24 < 64))

/-- The lowest sequence number of a group, and the map of the group (Table 8.11). -/
def doneRun (d : DoneRec) (g : List DoneRec) : Nat × Nat :=
  let back (x : DoneRec) : Nat := (d.seq + 2 ^ 24 - x.seq) % 2 ^ 24
  let lo := (g.map back).foldl (fun m b => if b < 64 then max m b else m) 0
  let first := (d.seq + 2 ^ 24 - lo) % 2 ^ 24
  (first, g.foldl (fun m x => m ||| 1 <<< ((x.seq + 2 ^ 24 - first) % 2 ^ 24)) 0)

/-- The ACK that is due for a source is sent (R282), in the cell that the oldest store left for it; those of the others are freed. -/
def sendDone (src : Fnid) (s : State) : State :=
  match s.board.dones.find? (fun d => d.src = src) with
  | none => s
  | some d =>
    let g := doneGroup d s.board.dones
    let s := { s with board := { s.board with dones := s.board.dones.filter (fun x => !g.contains x) } }
    let s := eachDo (g.filter (· ≠ d)) (fun x s => uncharge x.charge s) s
    sendPlain (ackHdr 0x40 d.src d.dst d.status (doneRun d g)) { die := d.die, charge := d.charge } s

/-- DONE_ACK_SEND (R282). -/
def execDoneAckSend (src : Fnid) (s : State) : Host.Outcome State Fault Refusal :=
  actIf (s.board.dones.any (fun d => d.src = src)) (sendDone src) s

-- The replay log (R294 to R296) -------------------------------------------------------------------------------------------

/-- The entry of the replay log under a key. -/
def State.logOf (s : State) (src : Fnid) (tag : BitVec 12) : Option LogEnt := s.board.log.find? (fun e => e.src = src && e.tag = tag)

/-- The entries under other keys, and an entry in place of the key's own. -/
def logPut (e : LogEnt) (s : State) : State :=
  { s with board := { s.board with log := s.board.log.filter (fun x => !(x.src = e.src && x.tag = e.tag)) ++ [e] } }

/-- No LIVE entry is free (R294). -/
def State.logFull (s : State) : Bool := decide (65536 ≤ (s.board.log.filter (fun e => e.reply.isSome)).length)

/-- What Table 10.11 says of a logged request. -/
inductive LogCase where
  /-- Row 1: the logged reply. -/
  | hit (word : Nat) (data : List Byte)
  /-- Rows 2 and 3. -/
  | reuse (e : LogEnt)
  /-- Row 4. -/
  | stale
  /-- Rows 5 to 7. -/
  | apply
deriving DecidableEq, Repr

/-- Table 10.11. -/
def State.logCase (s : State) (f : Frame) : LogCase :=
  match s.logOf f.src f.tag with
  | none => .apply
  | some e =>
    let same : Bool := e.op = f.op % 2 ^ 15 && e.off = f.offset && e.operand = f.operand
    match e.reply with
    | some (w, d) => if same then .hit w d else .reuse e
    | none => if same && decide (2 ^ 15 ≤ f.op) then .stale else .apply

/-- The fields of word 2 of an object (Table 10.13) and of a region control word (Table 10.10); their other bits are reserved and zero (R9). -/
def fieldMasks : Nat × Word := (0xFFFF00073FFF, ~~~0xF0#64)

/-- What a request named by tag reuse may affect: its bytes of HBM, its object, its region control word take free values (R296). -/
def scramble (op off : Nat) (s : State) : State :=
  match placeOf off with
  | .hbm o =>
    let n := if op = 2 then 0 else atomicWidth op
    { (memWr o (s.freeBytes n) s) with free := s.free + n }
  | .board n _ =>
    let w (i : Nat) : Nat := (Config.freeWord (s.free + i)).toNat
    let o : Obj := ⟨w 0, w 1, w 2 &&& fieldMasks.1, w 3, w 4, BitVec.ofNat 16 (w 5)⟩
    { s with free := s.free + 6, board := { s.board with objs := s.board.objs.put {} n o } }
  | .region i _ => (s.setReg .MEMREG_CTL i (s.freeVal &&& fieldMasks.2)).freed
  | _ => s

/-- A logged request is handled by Table 10.11. apply gives the status word, the reply data and the state after the request has been applied. None where the
request waits: for room in the log, or for the cells of its reply. A request that deny refuses where it would be applied is not logged. -/
def loggedUse (i : Nat) (f : Frame) (deny : Option (State → Option State)) (apply : State → (Nat × List Byte) × State) (s : State) : Option State :=
  match s.logCase f with
  | .hit w d => reply i (w % 256 + 256 + bitsOf w 9 1 * 512) d (s.bump F.MEMREG_TALLY_RETRYHIT 0)
  | .reuse e =>
    let s := scramble (f.op % 2 ^ 15) f.offset (scramble e.op e.off (s.bump F.MEMREG_TALLY_TAGREUSE 0))
    let n := replyLen f.op f.operand - 8
    reply i s.freeVal.toNat ((s.freed).freeBytes n) { s with free := s.free + 1 + n }
  | .stale => reply i 1 [] (s.bump F.MEMREG_TALLY_STALE 0)
  | .apply =>
    match deny with
    | some g => g s
    | none =>
      if s.logFull then none
      else
        let ((w, d), s) := apply s
        reply i w d (logPut ⟨f.src, f.tag, f.op % 2 ^ 15, f.offset, f.operand, some (w, d)⟩ s)

/-- A logged request that waits: for room in the log (LOGFULL, R294), or for cells (R256); each is counted once. -/
def loggedWait (i : Nat) (f : Frame) (s : State) : State :=
  match s.buf i with
  | none => s
  | some b =>
    if s.logFull && s.logCase f = .apply && (goHome i f s).isSome then
      if b.logWait then s else (s.setBuf i (some { b with logWait := true })).bump F.MEMREG_TALLY_LOGFULL 0
    else reqWait i f s

/-- What REPLAY_LOG_EXPIRY changes. -/
def logExpire (e : LogEnt) (s : State) : State :=
  { s with board := { s.board with log := s.board.log.map (fun x => if x = e then { x with reply := none } else x) } }

/-- REPLAY_LOG_EXPIRY (R294): a LIVE entry becomes SPENT; its reply is discarded. -/
def execReplayLogExpiry (src : Fnid) (tag : BitVec 12) (s : State) : Host.Outcome State Fault Refusal :=
  match s.logOf src tag with
  | none => .next s
  | some e => actIf e.reply.isSome (logExpire e) s

-- Counting board objects (R297 to R300) -------------------------------------------------------------------------------------

/-- Object n. -/
def State.obj (s : State) (n : Nat) : Obj := s.board.objs.lk {} n

/-- Replace object n. -/
def State.setObj (s : State) (n : Nat) (o : Obj) : State := { s with board := { s.board with objs := s.board.objs.put {} n o } }

/-- RUNI, AUTO, RELEASED, RMGRP and RDST of word 2 (Table 10.13). -/
def Obj.runi (o : Obj) : Bool := bitsOf o.word2 16 1 = 1
/-- AUTO. -/
def Obj.auto (o : Obj) : Bool := bitsOf o.word2 17 1 = 1
/-- RELEASED. -/
def Obj.released (o : Obj) : Bool := bitsOf o.word2 18 1 = 1
/-- RMGRP. -/
def Obj.rmgrp (o : Obj) : Nat := bitsOf o.word2 0 14
/-- RDST. -/
def Obj.rdst (o : Obj) : Fnid := BitVec.ofNat 16 (bitsOf o.word2 32 16)

/-- The bits of word 2 that are fields, RELEASED apart. -/
def word2Mask : Nat := 0xFFFF00033FFF

/-- NWAIT. -/
def State.nwait (s : State) (n : Nat) : Nat := (s.board.waits.filter (fun w => w.obj = n)).length

/-- The 64 bytes of an object (Table 10.13). -/
def State.objBytes (s : State) (n : Nat) : List Byte :=
  let o := s.obj n
  ([o.count, o.target, o.word2, o.gen, o.arrives, (s.nwait n % 65536) <<< 16 + o.lastSrc.toNat, 0, 0].map (bytesLE 8)).flatten

/-- COUNT, then GENERATION: the reply data of SYNC requests (R298). -/
def State.syncData (s : State) (n : Nat) : List Byte := bytesLE 8 (s.obj n).count ++ bytesLE 8 (s.obj n).gen

/-- Every recorded WAIT on object n is answered with the reply data as they stand, in cells of the shared allowance of the slot that it came by, for which the
reply waits where none are free (R256, R258); the reply to a core of this switch lies in the cells that the core reserved (R259). -/
def answerWaits (n : Nat) (s : State) : State :=
  let ws := s.board.waits.filter (fun w => w.obj = n)
  let s := { s with board := { s.board with waits := s.board.waits.filter (fun w => w.obj ≠ n) } }
  eachDo ws (fun w s =>
    let h : Hdr := { kind := 2, vc := 2, tc := w.tc, dst := w.src, h1 := w.h1, tag := w.tag, seq := w.seq, payload := bytesLE 8 0 ++ s.syncData n }
    match w.slot with
    | none => sendPlain h { die := n / 16384, charge := reservedCells (n / 16384) } s
    | some p => formSend { line := .slot p, die := n / 16384, frame := s.form h } s) s

/-- A RELEASE becomes pending; where one is pending already the two become one (R300). -/
def makePending (n : Nat) (dst : Option Fnid) (s : State) : State :=
  if s.board.pendRel.any (fun x => x.1 = n) then
    ({ s with board := { s.board with pendRel := s.board.pendRel.map (fun (x : Nat × Option Fnid) => if x.1 = n then (n, dst) else x) } }).bump F.CBOARD_TALLY_COALESCE 0
  else { s with board := { s.board with pendRel := s.board.pendRel ++ [(n, dst)] } }

/-- The release test of R299 after a request of a source. GENERATION counts releases and saturates (R11). -/
def releaseTest (n : Nat) (src : Fnid) (s : State) : State :=
  let o := s.obj n
  if o.target ≠ 0 && decide (o.target ≤ o.count) && (o.auto || !o.released) then
    let o := { o with gen := min (o.gen + 1) (2 ^ 64 - 1), lastSrc := src }
    let o := if o.auto then { o with count := o.count - o.target } else { o with word2 := o.word2 ||| 0x40000 }
    makePending n none (answerWaits n ((s.setObj n o).bump F.CBOARD_TALLY_RELEASES 0))
  else s

/-- A commit or unload object releases (R382, R383): GENERATION rises, COUNT takes a value, the WAITs are answered, and a RELEASE goes to who
issued the request, if anyone did. -/
def completionRelease (n count : Nat) (who : Option Fnid) (s : State) : State :=
  let o := s.obj n
  let o := { o with gen := min (o.gen + 1) (2 ^ 64 - 1), count := count % 2 ^ 64, lastSrc := who.getD o.lastSrc }
  let s := answerWaits n ((s.setObj n o).bump F.CBOARD_TALLY_RELEASES 0)
  match who with
  | some w => makePending n (some w) s
  | none => s

/-- The RELEASE frame of object n as it stands (R300). -/
def relHdr (n : Nat) (dst : Option Fnid) (s : State) : Hdr :=
  let o := s.obj n
  let h : Hdr := { kind := 5, vc := 5, dst := mcastDst, h1 := h1Mem opRelease (0x00F000000000 + 64 * n), mgrp := o.rmgrp,
                   payload := bytesLE 8 o.gen ++ bytesLE 8 o.count }
  match dst with
  | some d => { h with dst := d, mgrp := 0 }
  | none => if o.runi then { h with dst := o.rdst, mgrp := 0 } else h

/-- What RELEASE_FORM changes. -/
def releaseFormEffect (n : BitVec 16) (dst : Option Fnid) (s : State) : State :=
  let h := relHdr n.toNat dst s
  let s := { s with board := { s.board with pendRel := s.board.pendRel.filter (fun x => x.1 ≠ n.toNat) },
                    net := { s.net with relCells := s.net.relCells.put 0 (n.toNat / 16384) (s.net.relCells.lk 0 (n.toNat / 16384) + 1) } }
  sendPlain h { die := n.toNat / 16384, charge := .release (n.toNat / 16384) } s

/-- The ports whose credit a formed frame waits for: those that it would leave by and that are UP or in keepalive. -/
def State.wayPorts (s : State) (f : Frame) : List Nat :=
  if f.dst = mcastDst then s.mcTargets f none
  else if s.isOwn f.dst then []
  else match s.hop f s.curBank 0 false with
    | .to p _ _ => if s.lstate p = 5 || s.lstate p = 6 then [p] else []
    | _ => []

/-- R221, R300: the credit allows frame f (DESIGN CHOICE, log entry 34): at one of the ports that it would leave by, AVAIL covers its cells and those
that wait there on its VC already; a frame that leaves by no port needs none. -/
def State.creditFor (s : State) (f : Frame) : Bool :=
  let ps := s.wayPorts f
  ps.isEmpty || ps.any (fun p => decide (cellsOf f.len + s.vcDepth p f.vc ≤ ((s.port p).account f.vc).avail))

/-- RELEASE_FORM (R300): a cell of the 64 that R252 sets apart on the object's die is free and the credit allows; the frame is formed from the object and
sent. -/
def execReleaseForm (n : BitVec 16) (s : State) : Host.Outcome State Fault Refusal :=
  match s.board.pendRel.find? (fun x => x.1 = n.toNat) with
  | none => .next s
  | some (_, dst) => actIf (decide (s.net.relCells.lk 0 (n.toNat / 16384) < 64) && s.creditFor (s.form (relHdr n.toNat dst s))) (releaseFormEffect n dst) s

-- SYNC requests on ordinary objects (Table 10.7) --------------------------------------------------------------------------------

/-- ARRIVE k. ARRIVES counts an event of the hardware and saturates (R11). -/
def objArrive (n k : Nat) (src : Fnid) (s : State) : State :=
  let o := s.obj n
  releaseTest n src (s.setObj n { o with count := (o.count + k) % 2 ^ 64, arrives := min (o.arrives + 1) (2 ^ 64 - 1) })

/-- ADD d. -/
def objAdd (n d : Nat) (src : Fnid) (s : State) : State :=
  let o := s.obj n
  releaseTest n src (s.setObj n { o with target := (o.target + d) % 2 ^ 64 })

/-- RESET to TARGET t and word 2 from w. -/
def objReset (n t w : Nat) (s : State) : State :=
  s.setObj n { s.obj n with count := 0, arrives := 0, target := t, word2 := w &&& word2Mask }

/-- WAIT g: answered at once, recorded, or refused for want of room (R299). -/
def waitUse (i n : Nat) (f : Frame) (s : State) : Option State :=
  if leAt f.operand 0 8 < (s.obj n).gen then reply i 0 (s.syncData n) s
  else if 16384 ≤ s.board.waits.length then reply i 9 [] (s.bump F.CBOARD_TALLY_WAITFULL 0)
  else
    let slot := (s.buf i).bind Buf.inPort
    some (discard i { s with board := { s.board with waits := s.board.waits ++ [⟨n, f.src, f.h1, f.tc, f.tag.toNat, f.seq, slot⟩] } })

end Sys2Proof.Machine
end

