-- ==== Sys2Proof/Machine/Crypto.lean ====
section
/-!
DEFINITION. The hash functions of FIPS 180-4 that the manual names, SHA-256 (R317) and SHA-384 (R368, R378), and the verification of ECDSA signatures
over the curve P-384 (R368, R370, R377).
-/
namespace Sys2Proof.Machine

open Sys2Proof

/-- The largest r, found bit by bit from bit n - 1 down to bit 0 on top of acc, whose k-th power is at most x. -/
def rootFrom (k x : Nat) : Nat → Nat → Nat
  | 0, acc => acc
  | n + 1, acc => rootFrom k x n (if (acc + 2 ^ n) ^ k ≤ x then acc + 2 ^ n else acc)

/-- The first w bits of the fractional part of the k-th root of p, for a root below 8. -/
def rootBits (k w p : Nat) : Nat := rootFrom k (p <<< (k * w)) (w + 3) 0 % 2 ^ w

/-- The primes below 410 in rising order: there are 80 of them. -/
def shaPrimes : List Nat :=
  (List.range 410).filter (fun n => 2 ≤ n && (List.range 21).all (fun d => d < 2 || n ≤ d || n % d ≠ 0))

/-- What the two hash functions differ in: word width, rounds, which eight of the primes give the initial value, and the rotations of their four
functions (the third of the small ones is a shift). -/
structure Sha where
  w : Nat
  rounds : Nat
  skip : Nat
  big0 : Nat × Nat × Nat
  big1 : Nat × Nat × Nat
  small0 : Nat × Nat × Nat
  small1 : Nat × Nat × Nat

/-- SHA-256. -/
def sha256P : Sha :=
  { w := 32, rounds := 64, big0 := (2, 13, 22), big1 := (6, 11, 25), small0 := (7, 18, 3), small1 := (17, 19, 10), skip := 0 }

/-- SHA-384. -/
def sha384P : Sha :=
  { w := 64, rounds := 80, big0 := (28, 34, 39), big1 := (14, 18, 41), small0 := (1, 8, 7), small1 := (19, 61, 6), skip := 8 }

/-- Rotation right by n. -/
def Sha.rotr (h : Sha) (x n : Nat) : Nat := x >>> n + (x % 2 ^ n) <<< (h.w - n)

/-- A function of three rotations. -/
def Sha.sig (h : Sha) (r : Nat × Nat × Nat) (x : Nat) : Nat := h.rotr x r.1 ^^^ h.rotr x r.2.1 ^^^ h.rotr x r.2.2

/-- A function of two rotations and a shift. -/
def Sha.ssig (h : Sha) (r : Nat × Nat × Nat) (x : Nat) : Nat := h.rotr x r.1 ^^^ h.rotr x r.2.1 ^^^ x >>> r.2.2

/-- The constants of the rounds: fractions of the cube roots of the first primes. -/
def Sha.consts (h : Sha) : List Nat := (shaPrimes.take h.rounds).map (rootBits 3 h.w)

/-- The initial value: fractions of the square roots of eight primes. -/
def Sha.init (h : Sha) : List Nat := ((shaPrimes.drop h.skip).take 8).map (rootBits 2 h.w)

/-- n more words of the message schedule, newest first. -/
def Sha.extend (h : Sha) (n : Nat) (ws : List Nat) : List Nat :=
  match n with
  | 0 => ws
  | n + 1 =>
    let x := h.ssig h.small1 (ws.getD 1 0) + ws.getD 6 0 + h.ssig h.small0 (ws.getD 14 0) + ws.getD 15 0
    h.extend n (x % 2 ^ h.w :: ws)

/-- One round on the working variables a to h. -/
def Sha.round (h : Sha) (v : List Nat) (k w : Nat) : List Nat :=
  let g (i : Nat) : Nat := v.getD i 0
  let mask := 2 ^ h.w - 1
  let t1 := g 7 + h.sig h.big1 (g 4) + ((g 4 &&& g 5) ^^^ ((mask - g 4) &&& g 6)) + k + w
  let t2 := h.sig h.big0 (g 0) + ((g 0 &&& g 1) ^^^ (g 0 &&& g 2) ^^^ (g 1 &&& g 2))
  [(t1 + t2) % 2 ^ h.w, g 0, g 1, g 2, (g 3 + t1) % 2 ^ h.w, g 4, g 5, g 6]

/-- A number from bytes, big-endian. -/
def natBE (bs : List Byte) : Nat := bs.foldl (fun n b => 256 * n + b.toNat) 0

/-- n bytes of a number, big-endian. -/
def bytesBE (n x : Nat) : List Byte := (bytesLE n x).reverse

/-- The next chaining value after a block of 16 words, with the constants ks of the rounds. -/
def Sha.block (h : Sha) (ks hv : List Nat) (bs : List Byte) : List Nat :=
  let n := h.w / 8
  let ws := (List.range 16).map (fun i => natBE ((bs.drop (n * i)).take n))
  let sched := (h.extend (h.rounds - 16) ws.reverse).reverse
  let v := (ks.zip sched).foldl (fun v (x : Nat × Nat) => h.round v x.1 x.2) hv
  (hv.zip v).map (fun (x : Nat × Nat) => (x.1 + x.2) % 2 ^ h.w)

/-- The padding of a message of n bytes: a one bit, zeros, and the length in bits. -/
def Sha.pad (h : Sha) (n : Nat) : List Byte :=
  let b := 2 * h.w
  let l := h.w / 4
  let z := (2 * b - (n + 1 + l) % b) % b
  0x80 :: (rep z 0 ++ bytesBE l (8 * n))

/-- The chaining value after n blocks of a padded message. -/
def Sha.blocks (h : Sha) (ks : List Nat) (n : Nat) (hv : List Nat) (bs : List Byte) : List Nat :=
  match n with
  | 0 => hv
  | n + 1 => h.blocks ks n (h.block ks hv (bs.take (2 * h.w))) (bs.drop (2 * h.w))

/-- The hash of a message, before it is cut to its length. -/
def Sha.hash (h : Sha) (m : List Byte) : List Byte :=
  let p := m ++ h.pad m.length
  ((h.blocks h.consts (p.length / (2 * h.w)) h.init p).map (bytesBE (h.w / 8))).flatten

/-- SHA-256 of a message. -/
def sha256 (m : List Byte) : List Byte := sha256P.hash m

/-- SHA-384 of a message. -/
def sha384 (m : List Byte) : List Byte := (sha384P.hash m).take 48

-- ECDSA over P-384 -----------------------------------------------------------------------------------------------------------

/-- The field prime of P-384. -/
def p384P : Nat := 2 ^ 384 - 2 ^ 128 - 2 ^ 96 + 2 ^ 32 - 1
/-- The order of its base point. -/
def p384N : Nat := 0xffffffffffffffffffffffffffffffffffffffffffffffffc7634d81f4372ddf581a0db248b0a77aecec196accc52973
/-- The coefficient b. -/
def p384B : Nat := 0xb3312fa7e23ee7e4988e056be3f82d19181d9c6efe8141120314088f5013875ac656398d8a2ed19d2a85c8edd3ec2aef
/-- The base point. -/
def p384G : Nat × Nat :=
  (0xaa87ca22be8b05378eb1c71ef320ad746e1d3b628ba79b9859f741e082542a385502f25dbf55296c3a545e3872760ab7,
   0x3617de4a96262c6f5d9e98bf9292dc29f8f41dbd289a147ce9da3113b5f0b8c00a60b1ce1d7e819d7a431d7c90ea0e5f)

/-- b to the power e modulo m, by n bits of e. -/
def powMod (n b e m : Nat) : Nat :=
  match n with
  | 0 => 1 % m
  | n + 1 =>
    let r := powMod n (b * b % m) (e / 2) m
    if e % 2 = 1 then b * r % m else r

/-- The inverse modulo a prime of 384 bits. -/
def invMod (x m : Nat) : Nat := powMod 384 x (m - 2) m

/-- Sum of two points; none is the point at infinity. -/
def ecAdd (a b : Option (Nat × Nat)) : Option (Nat × Nat) :=
  match a, b with
  | none, q => q
  | q, none => q
  | some (x1, y1), some (x2, y2) =>
    let p := p384P
    if x1 = x2 && (y1 + y2) % p = 0 then none
    else
      let l := if x1 = x2 then (3 * x1 * x1 + p - 3) * invMod (2 * y1) p % p else (y2 + p - y1) * invMod ((x2 + p - x1) % p) p % p
      let x := (l * l + 2 * p - x1 - x2) % p
      some (x, (l * (x1 + p - x) + p - y1) % p)

/-- k times a point, by n bits of k. -/
def ecMul (n k : Nat) (q : Option (Nat × Nat)) : Option (Nat × Nat) :=
  match n with
  | 0 => none
  | n + 1 =>
    let r := ecMul n (k / 2) (ecAdd q q)
    if k % 2 = 1 then ecAdd q r else r

/-- The signature (r, s) verifies for a digest under the public key (x, y). -/
def ecdsaOk (x y r s : Nat) (digest : List Byte) : Bool :=
  let p := p384P
  let n := p384N
  let w := invMod s n
  let pt := ecAdd (ecMul 384 (natBE digest * w % n) (some p384G)) (ecMul 384 (r * w % n) (some (x, y)))
  decide (0 < r) && decide (r < n) && decide (0 < s) && decide (s < n) && decide (x < p) && decide (y < p) &&
    decide (y * y % p = (x * x * x + 3 * (p - x) + p384B) % p) &&
    (match pt with
      | some q => q.1 % n = r
      | none => false)

/-- A signature of 96 bytes over a message, r then s, each big-endian (R368, R377). -/
def sigOk (x y : Nat) (msg sig : List Byte) : Bool :=
  sig.length = 96 && ecdsaOk x y (natBE (sig.take 48)) (natBE (sig.drop 48)) (sha384 msg)

end Sys2Proof.Machine
end

