-- ==== Sys2Proof/Machine/CollData.lean ====
section
/-!
DEFINITION. The data of collective and sampling instances (R102 to R112, R133 to R136, R188 to R194, R315 to R320): descriptors, members and roles, which
blocks a member owes, frame prefixes, tiles, the audit fold and the sampling function.
-/
namespace Sys2Proof.Machine

open Sys2Proof

-- Members and roles (R106) -----------------------------------------------------------------------------------------------

/-- Member i of the instance. -/
def State.memberAt (s : State) (d : CDesc) (i : Nat) : Fnid := s.memberEntry (d.mtbase + i)

/-- The position of a member. -/
def State.memberPos (s : State) (d : CDesc) (n : Fnid) : Option Nat := (List.range d.mcount).find? (fun i => s.memberAt d i = n)

/-- What this switch is in an instance. -/
inductive Role where
  | single | leaf | root
deriving DecidableEq, Repr

/-- The switch's role (R106, R116). -/
def State.role (s : State) (d : CDesc) : Role :=
  if d.rootsw = 0xFFFF then .single else if d.rootsw = s.net.fnid.toNat then .root else .leaf

/-- The FNID of the leaf that an endpoint attaches to. -/
def leafOf (n : Fnid) : Fnid := BitVec.ofNat 16 (0x8000 + fnidLeaf n <<< 8)

/-- The positions of the members that attach to this switch. -/
def State.locals (s : State) (d : CDesc) : List Nat :=
  match s.role d with
  | .single => List.range d.mcount
  | .leaf => (List.range d.mcount).filter (fun i => leafOf (s.memberAt d i) = s.net.fnid)
  | .root => []

/-- The leaves that take part. -/
def State.leaves (s : State) (d : CDesc) : List Fnid :=
  ((List.range d.mcount).map (fun i => leafOf (s.memberAt d i))).eraseDups

/-- Member m owes block b (Table 4.1, R110). -/
def State.owes (s : State) (d : CDesc) (m b : Nat) : Bool :=
  decide (b < d.bcount) && (match d.op with
    | 3 => b / d.slice = m
    | 4 => (s.memberAt d m).toNat = d.root
    | 6 => false
    | _ => true)

/-- How many blocks member m owes; a BARRIER's empty frame counts as one. -/
def State.owed (s : State) (d : CDesc) (m : Nat) : Nat :=
  match d.op with
  | 3 => d.slice
  | 4 => if (s.memberAt d m).toNat = d.root then d.bcount else 0
  | 6 => 1
  | _ => d.bcount

/-- The members of leaf l owe block b. -/
def State.owesFrom (s : State) (d : CDesc) (l : Fnid) (b : Nat) : Bool :=
  (List.range d.mcount).any (fun m => leafOf (s.memberAt d m) = l && s.owes d m b)

/-- The core that reduces block b of step S, and the Bead block its sum stands in (R107). -/
def State.blockHome (s : State) (d : CDesc) (step : Word) (b : Nat) : Nat × Nat :=
  s.beadBlock (d.bmbase + step.toNat % 2 * d.window + b % max 1 d.window)

/-- The core that reduces block b of step S (R107). -/
def State.blockCore (s : State) (d : CDesc) (step : Word) (b : Nat) : Nat := (s.blockHome d step b).1

/-- The 32 Beads of a Bead block of a core: slots 32 k to 32 k + 31. -/
def State.beads32 (s : State) (x : Nat × Nat) : List Bead := (List.range 32).map (fun i => (s.core x.1).beads.lk 0 (32 * x.2 + i))

/-- Write the Beads of a Bead block, and set its NONFIN flag where the block has a NONFIN contribution. -/
def setBeads32 (x : Nat × Nat) (l : List Bead) (nonf : Bool) (s : State) : State :=
  s.modCore x.1 (fun k => { k with
    beads := (List.range 32).foldl (fun m i => m.put 0 (32 * x.2 + i) (l.getD i 0)) k.beads
    bflag := if nonf then k.bflag.put false x.2 true else k.bflag })

/-- A Bead block and its NONFIN flag are cleared. -/
def clearBlock (x : Nat × Nat) (s : State) : State := s.modCore x.1 (fun k => clearBeads k (32 * x.2) 32)

-- Frames (R109, R112) -------------------------------------------------------------------------------------------------------

/-- Block j of a frame's data in format F. -/
def blockAt (F : Fmt) (bs : List Byte) (j : Nat) : Block :=
  let es := (List.range 32).map (fun k => rawElem F bs (32 * j + k))
  { scale := ((es.head?).map Prod.snd).getD 0, els := es.map Prod.fst }

/-- The decoded elements of a block. -/
def Block.dec (F : Fmt) (x : Block) : List Dec := x.els.map (fun e => decodeElem F e x.scale)

/-- The length of n whole blocks, where they may travel so: MX blocks in groups of 8 (R111). -/
def blocksLen (F : Fmt) (first n : Nat) : Option Nat :=
  if F.isMx && (n % 8 ≠ 0 || first % 8 ≠ 0) then none else some (F.tensorBytes (32 * n))

-- Tiles (R133 to R136) --------------------------------------------------------------------------------------------------------

/-- Bytes of a dense tile. -/
def denseLen (F : Fmt) : Nat := 4 + 256 * F.width / 8

/-- Bytes of a compressed tile with n values. -/
def tileLen (F : Fmt) (n : Nat) : Nat := (16 + 4 * ((3 * n + 31) / 32) + n * F.width / 8 + 3) / 4 * 4

/-- A parsed tile: its 256 element encodings, the positions of its values, its size, whether it is compressed, and the largest number of values of a group. -/
structure Tile where
  els : List Nat
  pos : List Nat
  size : Nat
  comp : Bool
  most : Nat
deriving DecidableEq, Repr

/-- Strictly ascending. -/
def ascending : List Nat → Bool
  | a :: b :: t => decide (a < b) && ascending (b :: t)
  | _ => true

/-- The tile at the start of the bytes; none where it is malformed (R133). -/
def tileAt (F : Fmt) (bs : List Byte) : Option Tile :=
  let w := F.width / 8
  let c := leAt bs 0 4
  if bitsOf c 31 1 = 1 then
    if bs.length < denseLen F then none
    else some { els := (List.range 256).map (fun i => leAt bs (4 + i * w) w), pos := List.range 256, size := denseLen F, comp := false, most := 8 }
  else
    let n := bitsOf c 0 8
    let ks := (List.range 32).map (fun g => bitsOf (leAt bs 4 12) (3 * g) 3)
    let codes := leAt bs 16 (4 * ((3 * n + 31) / 32))
    let code (i : Nat) : Nat := bitsOf codes (3 * i) 3
    let vals := 16 + 4 * ((3 * n + 31) / 32)
    -- the first code of each group
    let starts := (ks.foldl (fun (a : List Nat × Nat) k => (a.1 ++ [a.2], a.2 + k)) ([], 0)).1
    let groups := (starts.zip ks).map (fun (x : Nat × Nat) => (List.range x.2).map (fun j => (code (x.1 + j), x.1 + j)))
    if ks.sum ≠ n || bs.length < tileLen F n || !groups.all (fun g => ascending (g.map Prod.fst)) then none
    else
      let els := (groups.map (fun g => (List.range 8).map (fun p =>
        match g.lookup p with
        | some i => leAt bs (vals + i * w) w
        | none => 0))).flatten
      some { els := els, pos := ((List.range 32).zip groups).flatMap (fun g => g.2.map (fun y => 8 * g.1 + y.1)), size := tileLen F n, comp := true, most := ks.foldl max 0 }

/-- n tiles that fill the bytes exactly. -/
def tilesIn (F : Fmt) (n : Nat) (bs : List Byte) : Option (List Tile) :=
  match n with
  | 0 => if bs = [] then some [] else none
  | n + 1 =>
    match tileAt F bs with
    | none => none
    | some t => (tilesIn F n (bs.drop t.size)).map (fun r => t :: r)

/-- A tile that the device sends (R135), whether it had to be dense though OUTSPARSE is set; nonfin keeps it dense. -/
def tileOut (F : Fmt) (els : List Nat) (nonfin : Bool) : List Byte × Bool :=
  let w := F.width / 8
  let groups := (List.range 32).map (fun g => (List.range 8).filter (fun p => els.getD (8 * g + p) 0 ≠ 0))
  let n := (groups.map List.length).sum
  if !nonfin && groups.all (fun g => decide (g.length ≤ 7)) && decide (tileLen F n < denseLen F) then
    let ks := bytesLE 12 ((List.range 32).foldl (fun a g => a + ((groups.getD g []).length) <<< (3 * g)) 0)
    let cs := groups.flatten
    let codes := bytesLE (4 * ((3 * n + 31) / 32)) ((List.range n).foldl (fun a i => a + cs.getD i 0 <<< (3 * i)) 0)
    let vals := ((List.range 32).map (fun g => ((groups.getD g []).map (fun p => bytesLE w (els.getD (8 * g + p) 0))).flatten)).flatten
    (fitBytes (bytesLE 4 n ++ ks ++ codes ++ vals) (tileLen F n), false)
  else (bytesLE 4 (2 ^ 31) ++ ((List.range 256).map (fun i => bytesLE w (els.getD i 0))).flatten, true)

-- Audit (R318 to R320) -----------------------------------------------------------------------------------------------------------

/-- Multiplication in GF(2^128) (R318). -/
def gfmul (x y : BitVec 128) : BitVec 128 :=
  ((List.range 128).foldl (fun (a : BitVec 128 × BitVec 128) i =>
    let z := if y.getLsbD i then a.1 ^^^ a.2 else a.1
    (z, if a.2.getLsbD 127 then (a.2 <<< 1) ^^^ 0x87#128 else a.2 <<< 1)) ((0#128 : BitVec 128), x)).1

/-- h to the n-th power, by squaring; n below 2^64. -/
def gfpow (h : BitVec 128) (n : Nat) : BitVec 128 :=
  ((List.range 64).foldl (fun (a : BitVec 128 × BitVec 128) i =>
    (if bitsOf n i 1 = 1 then gfmul a.1 a.2 else a.1, gfmul a.2 a.2)) ((1#128 : BitVec 128), h)).1

/-- The key H of an instance (R319). -/
def foldKey (d : CDesc) (step seed : Word) : BitVec 128 :=
  let hi := jrand seed step (BitVec.ofNat 32 d.inst) 0xFFFFFFFE
  let lo := jrand seed step (BitVec.ofNat 32 d.inst) 0xFFFFFFFF
  let h : BitVec 128 := (hi ++ lo)
  if h = 0 then 1 else h

/-- N: 16-byte words of BCOUNT blocks in FIN. -/
def foldN (d : CDesc) : Nat := (d.finF.tensorBytes (32 * d.bcount) + 15) / 16

/-- The L term (R319). -/
def foldL (d : CDesc) (h : BitVec 128) : BitVec 128 :=
  gfmul (BitVec.ofNat 128 (d.bcount + d.mcount <<< 32 + d.op <<< 48 + d.fin <<< 52 + d.fout <<< 56)) h

/-- The term of bytes at an offset of member m's contribution string (R319). -/
def foldBytes (d : CDesc) (h : BitVec 128) (m off : Nat) (bs : List Byte) : BitVec 128 :=
  let bs := rep (off % 16) 0 ++ bs
  (List.range ((bs.length + 15) / 16)).foldl (fun f w =>
    f ^^^ gfmul (BitVec.ofNat 128 (leAt bs (16 * w) 16)) (gfpow h (2 + m * foldN d + off / 16 + w))) 0

-- Sampling (R191, R192) ------------------------------------------------------------------------------------------------------------

/-- Candidates as Strainer records. -/
def Cand.srec (c : Cand) : SRec := { id := c.id, key := c.key }

/-- Candidates in descending Strainer order. -/
def candSort (l : List Cand) : List Cand := (strainSort 0 false (l.map Cand.srec)).map (fun r => { key := r.key, id := r.id })

/-- A key that is NaN or infinite. -/
def keyNonfin (k : Nat) : Bool := bitsOf k 23 8 = 255

/-- The record as R177 normalises it: a subnormal or negative zero key is +0 (DEDUCED, log entry 112). -/
def Cand.normal (c : Cand) : Cand := if bitsOf c.key 23 8 = 0 then { c with key := 0 } else c

/-- Records join the kept ones: padding is ignored, a NaN or infinite key is dropped, of two with one ID the first in Strainer order is kept.
Answers the kept records, the dropped for a key, the dropped as duplicates (R191). -/
def candAdd (kept new : List Cand) : List Cand × Nat × Nat :=
  new.foldl (fun (a : List Cand × Nat × Nat) c =>
    if c.id = 0xFFFFFFFF then a
    else if keyNonfin c.key then (a.1, a.2.1 + 1, a.2.2)
    else match a.1.find? (fun x => x.id = c.id) with
      | none => (a.1 ++ [c.normal], a.2.1, a.2.2)
      | some x =>
        let best := if keyBefore 0 false c.key x.key then c.normal else x
        (a.1.map (fun y => if y.id = c.id then best else y), a.2.1, a.2.2 + 1)) (kept, 0, 0)

/-- The records of candidate groups in bytes (Table 6.5). -/
def candsIn (bs : List Byte) (groups : Nat) : List Cand :=
  (List.range (16 * groups)).map (fun i => ⟨leAt bs (8 * i) 4, leAt bs (8 * i + 4) 4⟩)

/-- The result of a sampling instance (Table 6.6). -/
structure SampRes where
  token : Nat
  rank : Nat
  pnum : Nat
  pden : Nat
  nkept : Nat
  ncand : Nat
  /-- Ranked candidates of weight 0. -/
  zerow : Nat
deriving DecidableEq, Repr

/-- The sampling function (R192). -/
def sampleFn (r : List Cand) (d : CDesc) (seed step : Word) : SampRes :=
  let l := (candSort r).take d.ktop
  match l with
  | [] => ⟨0xFFFFFFFF, 0, 0, 0, 0, 0, 0⟩
  | top :: _ =>
    if d.greedy then ⟨top.id, 0, 1, 1, 1, l.length, 0⟩
    else
      let ps := l.map (fun c => exp2q (fp32Mul (fp32Add c.key (top.key ^^^ 0x80000000)) d.iscale))
      let cs := prefixSums 0 ps
      let u := jrand seed step (BitVec.ofNat 32 d.stream) 0
      let (j, m) := spick cs d.topp u.toNat
      ⟨(l.getD j ⟨0, 0⟩).id, j, ps.getD j 0, cs.getD (m - 1) 0, m, l.length, (ps.filter (fun p => p = 0)).length⟩

/-- The result record (Table 6.6, R193). -/
def SampRes.bytes (r : SampRes) (retp : Bool) : List Byte :=
  bytesLE 4 r.token ++ bytesLE 4 r.rank ++ bytesLE 8 (if retp then r.pnum else 0) ++ bytesLE 8 (if retp then r.pden else 0) ++
    bytesLE 4 r.ncand ++ bytesLE 4 r.nkept

end Sys2Proof.Machine
end

