-- ==== Sys2Proof/Machine/Coll.lean ====
section
/-!
DEFINITION. Collective and sampling instances (R102 to R142, R188 to R198, R311, R315 to R320): accepting frames, reducing blocks, the streams of frames
that an instance sends, its end, arrival skew, and the commands of the collective unit.
-/
namespace Sys2Proof.Machine

open Sys2Proof

-- Instances ----------------------------------------------------------------------------------------------------------------

/-- The instance is the one of a descriptor and step. -/
def Inst.isFor (x : Inst) (samp : Bool) (di : Nat) (step : Word) : Bool := x.samp = samp && x.desc = di && x.step = step

/-- The open instance of a descriptor and step. -/
def State.instOf (s : State) (samp : Bool) (di : Nat) (step : Word) : Option Inst := s.coll.insts.find? (fun x => x.isFor samp di step)

/-- The open instance of an INST and step. -/
def State.instNo (s : State) (inst : Nat) (step : Word) : Option Inst := s.coll.insts.find? (fun x => x.inst = inst && x.step = step)

/-- Write an instance back. -/
def State.putInst (s : State) (x : Inst) : State :=
  let l := s.coll.insts
  let l := if l.any (fun y => y.isFor x.samp x.desc x.step) then l.map (fun y => if y.isFor x.samp x.desc x.step then x else y) else l ++ [x]
  { s with coll := { s.coll with insts := l } }

/-- The descriptor of an instance. -/
def State.descOf (s : State) (x : Inst) : CDesc := s.desc x.samp x.desc

/-- A sender's block was accepted in a frame of a CKIND (R110). -/
def Inst.got (x : Inst) (ck src blk : Nat) : Bool := x.seen.contains (ck, src, blk)

/-- How many blocks of a sender were accepted. -/
def Inst.count (x : Inst) (ck src : Nat) : Nat := (x.seen.filter (fun y => y.1 = ck && y.2.1 = src)).length

/-- Note accepted blocks of a sender. -/
def Inst.note (x : Inst) (ck src : Nat) (bs : List Nat) : Inst := { x with seen := x.seen ++ bs.map (fun b => (ck, src, b)) }

/-- The pseudo-block under which a frame without blocks is noted. -/
def emptyBlk : Nat := 2 ^ 32

/-- Contributions are converted when they are accepted: FIXED mode and INT formats, FLOATSUM conversion apart (R114, R120). -/
def CDesc.early (d : CDesc) (x : Inst) : Bool := !x.conv && !x.fsum && (d.fixed || d.finF.isInt)

/-- The instance has an exponent pass (R114, R116). -/
def CDesc.dyn (d : CDesc) (x : Inst) : Bool := d.reduces && !x.fsum && !d.early x

/-- Events of the instance are counted in its record and device-wide (R57, R59). -/
def collTal (t : Tal) (x : Inst) (s : State) : Inst × State :=
  ({ x with tal := ((Tal.ofList x.tal).add t).toList }, addBeadTally t s)

-- Lateness (R131, R132, R142) ---------------------------------------------------------------------------------------------------

/-- Ticks as ns, saturating at 2^32 - 1. -/
def nsSat (t : Nat) : Nat := min (t / 256) (2 ^ 32 - 1)

/-- A report of a late member (R132). -/
def lateReport (g run : Nat) (m : Fnid) (inst : Nat) (s : State) : State :=
  let s := if s.bit F.SCHED_LATE_VALID g then s else
    s.setReg .SCHED_LATE g (mkWord [(1, 63), (run % 256, 40), (m.toNat, 16), (inst % 65536, 0)])
  addRec 0x13 dieAll [mkWord [(g, 56), (run % 256, 48), (m.toNat, 32), (inst % 65536, 0)]] s

/-- A sender has completed: its lateness is measured, its run count follows, and a run that reaches RUNLEN is reported (R131). who is the
member or leaf measured, member the one a report names. Of senders with the same largest lateness the first to complete is kept (DESIGN CHOICE, log
entry 128). -/
def senderDone (key : Nat) (who member : Fnid) (x : Inst) (s : State) : Inst × State :=
  let g := x.grp
  let t0 := (x.times.map Prod.snd).foldl min s.now
  let l := nsSat (s.now - t0)
  let past := decide (s.fld F.SCHED_SKEW_CFG_THRESH 0 < l)
  let rec0 := s.coll.runs.find? (fun r => r.grp = g && r.who = who)
  let old := (rec0.map LateRun.run).getD 0
  let run := if past then old + 1 else 0
  let n := s.fld F.SCHED_SKEW_CFG_RUNLEN 0
  -- the member of a report stands while the run goes on
  let named := if n < run then (rec0.map LateRun.member).getD member else member
  let s := { s with coll := { s.coll with runs := s.coll.runs.filter (fun (r : LateRun) => !(r.grp = g && r.who = who)) ++ [(⟨g, who, run, named⟩ : LateRun)] } }
  let s := s.when (n ≠ 0 && run = n) (lateReport g run member x.inst)
  let late := match x.late with
    | some (m, k) => if m < l then some (l, member) else some (m, k)
    | none => some (l, member)
  ({ x with times := x.times ++ [(key, s.now)], late := late }, s)

/-- LATEM (R132): a member whose run count stands at RUNLEN or above; 0xFFFF when there is none. -/
def State.latem (s : State) (g : Nat) : Nat :=
  let n := s.fld F.SCHED_SKEW_CFG_RUNLEN 0
  match s.coll.runs.find? (fun r => r.grp = g && n ≠ 0 && decide (n ≤ r.run)) with
  | some r => r.member.toNat
  | none => 0xFFFF

-- Frames the unit sends (R109, R112, R113) -----------------------------------------------------------------------------------------

/-- A COLL frame of an instance is formed and sent: to a node, or multicast on MGRP. -/
def collSend (x : Inst) (d : CDesc) (dst : Option Fnid) (down : Bool) (pre : CPre) (first : Nat) (data : List Byte) (susp : Bool) (s : State) : State :=
  let h : Hdr := {
    kind := 3, vc := 6 + x.grp, dst := dst.getD mcastDst, h1 := h1Inst first x.inst, mgrp := if dst = none then d.mgrp else 0,
    step := wbits x.step 0 32, susp := susp, payload := pre.bytes ++ data }
  formSend { line := .part d.cpart, rset := d.rset, down := down, frame := s.form h } s

/-- A plain prefix. -/
def mkPre (ck nblk aux : Nat) : CPre := { ck := ck, nblk := nblk, tiles := false, ecode := 0, aux := aux }

/-- ROOTSW as a node. -/
def CDesc.rootNode (d : CDesc) : Fnid := BitVec.ofNat 16 d.rootsw

/-- Codes of blocks, each its number and code, in frames of contiguous blocks, at most 255 each. -/
def codeRuns (l : List (Nat × Nat)) : List (Nat × List Nat) :=
  (l.foldl (fun (acc : List (Nat × List Nat)) y =>
    match acc with
    | (f, cs) :: t => if y.1 = f + cs.length && decide (cs.length < 255) then (f, cs ++ [y.2]) :: t else (y.1, [y.2]) :: acc
    | [] => [(y.1, [y.2])]) []).reverse

/-- EXPSUM frames to the root (R116). -/
def sendExpsum (x : Inst) (d : CDesc) (l : List (Nat × Nat)) (s : State) : State :=
  eachDo (codeRuns l) (fun r s =>
    collSend x d (some d.rootNode) false (mkPre 2 r.2.length x.lastM) r.1 (r.2.map (BitVec.ofNat 8)) false s) s

/-- GEXP frames to the leaves (R116). -/
def sendGexp (x : Inst) (d : CDesc) (l : List (Nat × Nat)) (s : State) : State :=
  eachDo (codeRuns l) (fun r s => collSend x d none false (mkPre 3 r.2.length 0) r.1 (r.2.map (BitVec.ofNat 8)) false s) s

-- The end of an instance (R122 to R129) -----------------------------------------------------------------------------------------------

/-- All that a sender at this switch owed has been accepted. -/
def State.senderOk (s : State) (d : CDesc) (x : Inst) (m : Nat) : Bool :=
  if d.samp then
    match x.finals.lookup m with
    | some n => (List.range n).all (x.got 1 m)
    | none => false
  else decide (s.owed d m ≤ x.count 1 m)

/-- At the root, a leaf has given all it gives for block b of a reduction. -/
def leafGave (d : CDesc) (x : Inst) (l : Fnid) (b : Nat) : Bool :=
  x.got 4 l.toNat b || x.codes.contains (l.toNat, b, 0xFF) || (d.dyn x && x.gcode.lk 0 b = 0x100)

/-- A leaf's frames at the root are complete: its EXPSUMs where there is an exponent pass, its PARTIALs, and its LTALLY (R123). -/
def State.leafOk (s : State) (d : CDesc) (x : Inst) (l : Fnid) : Bool :=
  if d.samp then
    match x.finals.lookup l.toNat with
    | some n => (List.range n).all (x.got 4 l.toNat)
    | none => false
  else if d.barrier then x.got 2 l.toNat emptyBlk
  else x.ltallied.contains l.toNat && (List.range d.bcount).all (fun b =>
    if d.reduces then leafGave d x l b && (!d.dyn x || x.got 2 l.toNat b) else !s.owesFrom d l b || x.got 4 l.toNat b)

/-- Blocks of source m's contribution that local members of a two-tier ALLTOALL wait for have all arrived. -/
def State.allToAllOk (s : State) (d : CDesc) (x : Inst) (m : Nat) : Bool :=
  if s.locals d |>.contains m then true
  else decide ((s.locals d).length * d.slice ≤ x.count 4 m)

/-- The members that are missing (R123). -/
def State.missing (s : State) (d : CDesc) (x : Inst) : List Nat :=
  match s.role d with
  | .root => (List.range d.mcount).filter (fun m =>
      let l := leafOf (s.memberAt d m)
      match x.ends.find? (fun e => e.leaf = l) with
      | some e => e.marks.contains m
      | none => !s.leafOk d x l)
  | _ =>
    let loc := (s.locals d).filter (fun m => !s.senderOk d x m)
    if !d.samp && d.op = 5 && s.role d = .leaf then
      (List.range d.mcount).filter (fun m => loc.contains m || !s.allToAllOk d x m)
    else loc

/-- The bitmap of members (R125). -/
def bitmap (mcount : Nat) (marks : List Nat) : List Byte :=
  bytesLE ((mcount + 63) / 64 * 8) (marks.foldl (fun n m => n ||| 2 ^ m) 0)

/-- The lowest FNID among the quarantined missing members; 0xFFFF where there is none. -/
def State.qfnid (s : State) (d : CDesc) (x : Inst) (marks : List Nat) : Nat :=
  let own := (marks.filter (fun m => s.fnidQuar (s.memberAt d m))).map (fun m => (s.memberAt d m).toNat)
  (own ++ x.ends.map LeafEnd.qfnid).foldl min 0xFFFF

/-- This switch measures the delivery bound of the instance from its own accepting of contributions to its own STATUS (R130). -/
def State.measuresHere (s : State) (d : CDesc) : Bool := s.role d = .single || (!d.samp && d.op = 5)

/-- The frame is one of the instance's. -/
def Inst.owns (x : Inst) (f : Frame) : Bool := f.kind = 3 && f.inst = x.inst && f.step = wbits x.step 0 32

/-- Frames for this switch that wait here and satisfy p are discarded: the work they are for has ended (R223). Each counts in a field. -/
def endWaiting (p : Frame → Bool) (fld : Fld) (i : Nat) (s : State) : State :=
  let mine (j : Nat) : Bool := match s.buf j with
    | some b => (s.isOwn b.frame.dst || b.mc) && !b.fresh && p b.frame
    | none => false
  let gone := s.net.inbox.filter mine
  eachDo gone (fun j s => discard j (s.bump fld i)) { s with net := { s.net with inbox := s.net.inbox.filter (fun j => !mine j) } }

/-- The blocks of which something has been accepted and that have not closed: their sums may stand in the Bead file (R107). -/
def Inst.openBlks (x : Inst) : List Nat :=
  ((x.seen.filter (fun y => (y.1 = 1 || y.1 = 4) && y.2.2 ≠ emptyBlk && !x.closed.contains y.2.2)).map (fun y => y.2.2)).eraseDups

/-- The source that a PARTIAL of blocks passed through is noted under: the member of an ALLTOALL, else the leaf. -/
def CDesc.passKey (d : CDesc) (src : Nat) (f : Frame) : Nat := if d.op = 5 then src else f.src.toNat

/-- The blocks of a held PARTIAL that have not been accepted yet. -/
def State.heldLater (s : State) (d : CDesc) (x : Inst) (h : Piece) : List Nat :=
  match s.buf h.buf with
  | some b => if b.frame.pre.ck = 4 then h.blks.filter (fun n => !x.got 4 (d.passKey h.src b.frame) n) else []
  | none => []

/-- The instance leaves the unit (R122, R126, R141, R142, R223): buffers are freed, Bead blocks cleared and waiting frames discarded, the end is counted,
SCHED_SKEW is rewritten. A PARTIAL that waited for the window counts among the waiting frames. -/
def endInst (x : Inst) (fld : Fld) (s : State) : State :=
  let d := s.descOf x
  let late := x.held.filter (fun h => if d.reduces then s.role d = .root else d.passes && s.heldLater d x h ≠ [])
  let s := s.bumpN F.SCHED_COLL_DROP_LATE x.grp late.length
  let s := eachDo x.held (fun h s => discard h.buf s) s
  let s := eachDo x.candHeld (fun y s => partFree d.cpart y.2 s) s
  let s := if d.reduces && !x.fsum then eachDo x.openBlks (fun b s => clearBlock (s.blockHome d x.step b) s) s else s
  let s := endWaiting x.owns F.SCHED_COLL_DROP_LATE x.grp s
  let s := { s with coll := { s.coll with
    insts := s.coll.insts.filter (fun y => !y.isFor x.samp x.desc x.step), ended := s.coll.ended ++ [(x.samp, x.desc, x.step)] } }
  let s := s.bump fld x.grp
  match x.late with
  | some (l, m) => s.setReg .SCHED_SKEW x.grp (mkWord [(m.toNat, 48), (l, 0)])
  | none => (s.setReg .SCHED_SKEW x.grp (s.freeVal &&& 0xFFFF0000FFFFFFFF)).freed

/-- An end that leaves blocks unformed: of the instance's frames that wait for cells only a STATUS is still sent (R115, R122; DEDUCED, log entry 116). -/
def dropFrames (x : Inst) (s : State) : State :=
  { s with net := { s.net with formed := s.net.formed.filter (fun y => !x.owns y.frame || y.frame.pre.ck = 7) } }

/-- The field that counts an end with a code (Table 4.16). -/
def endFld (code : Nat) : Fld :=
  match code with
  | 0 => F.SCHED_COLL_END_COMPLETE
  | 1 | 2 => F.SCHED_COLL_END_TIMEOUT
  | _ => F.SCHED_COLL_END_OTHER

/-- The seed that an instance uses (R188, R307, R308): the one in force in its step. What is written between steps is in force from the next release on, and
so for an instance of the step that this release begins. -/
def State.instSeed (s : State) (x : Inst) : Word :=
  let j := (s.descOf x).seedidx
  match x.seed, s.brews.lk none x.slot with
  | some w, _ => w
  | none, some b => if !b.armed && x.step = s.brewStep x.slot then s.seed x.slot j else s.reg .SCHED_SEED (256 * x.slot + j)
  | none, none => s.reg .SCHED_SEED (256 * x.slot + j)

/-- A release of the Brew in slot k begins step n: open instances of earlier steps go on with the seed that was in force for them (R308). -/
def seedPin (k : Nat) (n : Word) (s : State) : State :=
  { s with coll := { s.coll with insts := s.coll.insts.map (fun x => if x.slot = k && x.step ≠ n then { x with seed := some (s.instSeed x) } else x) } }

/-- What the switch has folded of the contributions it accepted, and the leaves' partial folds (R319, R320). -/
def State.foldOf (s : State) (x : Inst) (d : CDesc) : BitVec 128 :=
  let h := foldKey d x.step (s.instSeed x)
  x.folds.foldl (fun f y => f ^^^ foldBytes d h y.1 y.2.1 y.2.2) x.fold

/-- The audit trailer (Table 11.12). -/
def trailer (x : Inst) (d : CDesc) (s : State) : List Byte :=
  let f := s.foldOf x d ^^^ foldL d (foldKey d x.step (s.instSeed x))
  wordsToBytes [s.reg .AUDIT_PWD (2 * x.slot), s.reg .AUDIT_PWD (2 * x.slot + 1)] ++ bytesLE 16 f.toNat

/-- The instance ends with a code: its STATUS frame is formed (R125) and it leaves the unit. Where this switch measures, only an end with COMPLETE or
HWERR is measured: the others have no delivery of what the closing event closed (DESIGN CHOICE, log entry 129). A leaf's STATUS to its members goes to
the ports that face endpoints alone, with no copy to an uplink (DESIGN CHOICE, log entry 140). Where no leaf's last frame has been accepted, LLV and
LASTLEAF are clear (DESIGN CHOICE, log entry 141). -/
def statusEnd (x : Inst) (code : Nat) (marks : List Nat) (s : State) : State :=
  let d := s.descOf x
  let s := if code = 0 || code = 4 then s else dropFrames x s
  let role := s.role d
  let ata := !d.samp && d.op = 5
  let up := role = .leaf && !ata && code ≠ 3
  let down := role = .leaf && !up
  let meas := s.measuresHere d && d.deadline ≠ 0 && (code = 0 || code = 4)
  let late := meas && decide (ns d.deadline < s.bclk - x.lastBit)
  let b (v : Bool) : Nat := if v then 1 else 0
  let llv := role = .root && x.lastLeaf.isSome
  let word := mkWord [(b llv, 43), (x.lastLeaf.getD 0 % 128, 36), (b x.conv, 35), (b x.void, 34), (b late, 33),
    (b (x.susp || s.bit F.GLOBAL_HOLD_INHOLD 0), 32), (s.latem x.grp, 16), (s.qfnid d x marks, 0)]
  let data := bytesLE 8 word.toNat ++ (if d.samp then rep 32 0 else (Tal.ofList x.tal).record) ++
    (if d.audit && code = 0 then trailer x d s else []) ++ (if code = 1 || code = 2 then bitmap d.mcount marks else [])
  let n := data.length
  let (shown, data, s) :=
    if x.undef then (wbits (Config.freeWord (s.free + n)) 0 8, s.freeBytes n, { s with free := s.free + n + 1 }) else (code, data, s)
  let s := collSend x d (if up then some d.rootNode else none) down (mkPre 7 0 shown) 0 data false s
  let s := endInst x (endFld code) s
  let s := { s with coll := { s.coll with
    meas := s.coll.meas.filter (fun m => m.armed || !(m.own = .none && m.inst = x.inst && m.step = x.step)) } }
  if meas then
    measSettle { s with coll := { s.coll with meas := s.coll.meas ++
      [{ inst := x.inst, step := x.step, slot := x.slot, deadline := d.deadline, closing := x.lastBit, tick := x.lastTick, void := x.void, armed := true }] } }
  else s

/-- The instance ends with members missing (R122, R123, R125). At the root a leaf's MEMBER_QUARANTINED stands before another's HWERR (R326). -/
def failEnd (x : Inst) (s : State) : State :=
  let d := s.descOf x
  let marks := s.missing d x
  let hw := x.ends.any (fun e => e.code = 4)
  let q := s.qfnid d x marks
  statusEnd x (if x.ends.any (fun e => e.code = 2) then 2 else if hw then 4 else if q = 0xFFFF then 1 else 2) marks (dropFrames x s)

-- Streams (R112, R118) --------------------------------------------------------------------------------------------------------------------

/-- A sequence of output blocks toward one destination: the CKIND, the source member that keys its blocks, the first block, how many, the number
the first block travels under, AUX, and whether the stream before it must be finished first. -/
structure Strm where
  dst : Option Fnid
  ck : Nat
  src : Nat := 0
  base : Nat
  count : Nat
  num : Nat
  aux : Nat := 0
  after : Bool := false
deriving DecidableEq, Repr

/-- The streams that an instance sends from this switch. -/
def State.streams (s : State) (d : CDesc) : List Strm :=
  let role := s.role d
  let B := d.bcount
  let S := d.slice
  let root : Option Fnid := some (BitVec.ofNat 16 d.root)
  let up (base n : Nat) : Strm := { dst := some d.rootNode, ck := 4, base := base, count := n, num := base }
  if d.samp || d.barrier then []
  else if d.op = 5 then
    let loc := s.locals d
    (List.range d.mcount).flatMap (fun j =>
      if loc.contains j then
        (List.range d.mcount).map (fun i => { dst := some (s.memberAt d j), ck := 6, src := i, base := j * S, count := S, num := i * S, after := i ≠ 0 })
      else loc.map (fun i => { dst := some (leafOf (s.memberAt d j)), ck := 4, src := i, base := j * S, count := S, num := j * S, aux := i }))
  else if role = .leaf then
    if d.op = 3 then (s.locals d).map (fun i => up (i * S) S)
    else if d.op = 4 then (if (s.locals d).any (fun i => decide (0 < s.owed d i)) then [up 0 B] else [])
    else [up 0 B]
  else if d.op = 1 then [{ dst := root, ck := 6, base := 0, count := B, num := 0 }]
  else if d.op = 2 then
    (List.range d.mcount).map (fun i => { dst := some (s.memberAt d i), ck := 6, base := i * S, count := S, num := i * S, after := i ≠ 0 })
  else [{ dst := none, ck := 6, base := 0, count := B, num := 0 }]

/-- The format a stream's blocks are in; none for the sums of a partial. -/
def CDesc.strmFmt (d : CDesc) (k : Strm) : Option Fmt :=
  if d.reduces && k.ck = 4 then none else some (if d.reduces then d.foutF else d.finF)

/-- Tiles are sent: the results of an operation that reduces, with OUTSPARSE (R135). An operation that passes blocks through sends them as they are, whatever
OUTSPARSE says (DESIGN CHOICE, log entry 142). -/
def CDesc.strmTiles (d : CDesc) (k : Strm) : Bool := d.reduces && k.ck = 6 && d.outsparse

/-- Blocks of one unit of a stream: an MX group or a tile takes 8. -/
def CDesc.unitBlks (d : CDesc) (k : Strm) : Nat :=
  if d.strmTiles k then 8
  else match d.strmFmt k with
    | some F => if F.isMx then 8 else 1
    | none => 1

/-- What stands at a unit of a stream: not formed yet, left out, or its bytes, whether suspect, and whether it is a tile sent dense. -/
inductive UnitVal where
  | wait
  | skip
  | val (bs : List Byte) (susp : Bool) (dense : Bool)
deriving DecidableEq, Repr

/-- The unit of stream k from its p-th block on. A result tile holds the 8 blocks from there on, filled with zeros where the stream ends before, also where
the stream's first block is no multiple of 8 (R135; DESIGN CHOICE, log entry 143). -/
def Inst.unit (x : Inst) (d : CDesc) (k : Strm) (p : Nat) : UnitVal :=
  let n := min (d.unitBlks k) (k.count - p)
  let os := (List.range n).map (fun j => x.outs.find? (fun o => o.src = k.src && o.blk = k.base + p + j))
  if os.any Option.isNone then .wait
  else
    let os := os.filterMap id
    let vs := os.filterMap OutBlk.val
    let susp := os.any OutBlk.susp
    if vs.length < os.length then .skip
    else match d.strmFmt k with
      | none => .val ((vs.flatMap (fun v => v.els)).map (bytesLE (if x.fsum then 4 else 12))).flatten susp false
      | some F =>
        if d.strmTiles k then
          let nonf := os.any (fun o => x.nonf.contains o.blk)
          let (bs, dense) := tileOut F (vs.flatMap Block.els) nonf
          .val bs susp dense
        else .val (blocksBytes F vs) susp false

/-- The least bytes that the unit of stream k from its p-th block on can take. -/
def CDesc.unitMin (d : CDesc) (x : Inst) (k : Strm) (p : Nat) : Nat :=
  let n := min (d.unitBlks k) (k.count - p)
  match d.strmFmt k with
  | none => n * (if x.fsum then 128 else 384)
  | some F => if d.strmTiles k then 16 else F.tensorBytes (32 * n)

/-- What a frame being filled holds: bytes, blocks or tiles, units, suspicion, dense tiles. -/
structure FrameAcc where
  bytes : List Byte := []
  blks : Nat := 0
  units : Nat := 0
  susp : Bool := false
  dense : Nat := 0
deriving DecidableEq, Repr

/-- Units from the p-th block on that go into the next frame; whether the frame is full, whatever a unit still to come holds, or the stream or a left-out
unit ends it (R112). n bounds the units. -/
def Inst.fill (x : Inst) (d : CDesc) (k : Strm) (n p : Nat) (a : FrameAcc) : FrameAcc × Bool :=
  match n with
  | 0 => (a, true)
  | n + 1 =>
    let u := d.unitBlks k
    let nb := if d.strmTiles k then 1 else min u (k.count - p)
    if k.count ≤ p then (a, true)
    else match x.unit d k p with
      | .wait => (a, decide (4088 < a.bytes.length + d.unitMin x k p ∨ 255 < a.blks + nb))
      | .skip => (a, true)
      | .val bs susp dense =>
        if 4088 < a.bytes.length + bs.length || 255 < a.blks + nb then (a, true)
        else x.fill d k n (p + u) { bytes := a.bytes ++ bs, blks := a.blks + nb, units := a.units + 1, susp := a.susp || susp,
                                    dense := a.dense + (if dense then 1 else 0) }

/-- Blocks of pieces, of one sender or of all, that have been sent or reduced are let go; a frame none of whose blocks is still needed is freed. -/
def freeBlks (src : Option Nat) (bs : List Nat) (x : Inst) (s : State) : Inst × State :=
  let strip (h : Piece) : Piece :=
    if src = none || src = some h.src then { h with blks := h.blks.filter (fun b => !bs.contains b) } else h
  let hs := x.held.map strip
  ({ x with held := hs.filter (fun h => h.blks ≠ []) }, eachDo (hs.filter (fun h => h.blks = [])) (fun h s => discard h.buf s) s)

/-- Stream number i sends what it can; n bounds the frames. -/
def pumpOne (d : CDesc) (i : Nat) (k : Strm) (n : Nat) (x : Inst) (s : State) : Inst × State :=
  match n with
  | 0 => (x, s)
  | n + 1 =>
    let p := x.sent.lk 0 i
    if k.count ≤ p then (x, s)
    else
      let u := d.unitBlks k
      if x.unit d k p = .skip then
        pumpOne d i k n { x with sent := x.sent.put 0 i (min k.count (p + u)) } s
      else
        let (a, full) := x.fill d k 4096 p {}
        if !full || a.units = 0 then (x, s)
        else
          let q := min k.count (p + a.units * u)
          let bs := (List.range (q - p)).map (· + (k.base + p))
          let pre : CPre := { ck := k.ck, nblk := a.blks, tiles := d.strmTiles k, ecode := 0, aux := k.aux }
          -- a RESULT formed in a HOLD is suspect (R127)
          let susp := a.susp || (k.ck = 6 && s.bit F.GLOBAL_HOLD_INHOLD 0)
          let s := collSend x d k.dst false pre (k.num + p) a.bytes susp s
          let s := s.bumpN F.SCHED_COLL_SPARSE_DENSESW x.grp a.dense
          let x := { x with sent := x.sent.put 0 i q, susp := x.susp || susp, outs := x.outs.filter (fun o => !(o.src = k.src && bs.contains o.blk)) }
          let (x, s) := if d.passes then freeBlks (if d.op = 5 then some k.src else none) bs x s else (x, s)
          pumpOne d i k n x s

/-- A stream has sent all its blocks. -/
def Inst.strmOver (x : Inst) (i : Nat) (k : Strm) : Bool := decide (k.count ≤ x.sent.lk 0 i)

/-- Every stream sends what it can, in order. -/
def pump (d : CDesc) (ks : List Strm) (x : Inst) (s : State) : Inst × State :=
  (List.range ks.length).foldl (fun (a : Inst × State) i =>
    match ks[i]? with
    | none => a
    | some k =>
      let ready : Bool := !k.after || (match ks[i - 1]? with
        | some j => a.1.strmOver (i - 1) j
        | none => true)
      if ready then pumpOne d i k (k.count + 1) a.1 a.2 else a) (x, s)

-- Reducing a block (R114, R116, R120) -----------------------------------------------------------------------------------------------------

/-- Every input of block b is held, so that its mapped core can finish it. -/
def State.blockReady (s : State) (d : CDesc) (x : Inst) (b : Nat) : Bool :=
  d.reduces && decide (b < d.bcount) && !x.closed.contains b &&
  (match s.role d with
    | .single => (s.locals d).all (fun m => x.got 1 m b)
    | .leaf => (s.locals d).all (fun m => x.got 1 m b) && (!d.dyn x || x.gcode.lk 0 b ≠ 0)
    | .root => (s.leaves d).all (fun l => leafGave d x l b))

/-- The contributions of block b that are held, decoded. -/
def Inst.contribs (x : Inst) (d : CDesc) (b : Nat) : List (List Cls) :=
  (x.data.filter (fun y => y.1 = b)).map (fun y => (y.2.2.dec d.finF).map Dec.cls)

/-- The exponent code of block b over the held contributions (R41). -/
def Inst.leafCode (x : Inst) (d : CDesc) (b : Nat) : Nat := blockCode (x.contribs d b).flatten

/-- The FP32 lanes of block b of a FLOATSUM instance: those added already, or zeros. -/
def Inst.lanes (x : Inst) (b : Nat) : List Bead :=
  let l := x.sums.lk [] b
  (List.range 32).map (fun i => l.getD i 0)

/-- The sums of block b: FP32 lanes in FLOATSUM, else what its Bead block holds once something has been entered; a block starts from zero (R49, R108). -/
def State.blkSum (s : State) (x : Inst) (b : Nat) : List Bead :=
  if x.fsum then x.lanes b
  else if x.seen.any (fun y => (y.1 = 1 || y.1 = 4) && y.2.2 = b) then s.beads32 (s.blockHome (s.descOf x) x.step b)
  else rep 32 0

/-- The exponent code block b is finished with; FLOATSUM has none (R56). -/
def State.finalCode (s : State) (d : CDesc) (x : Inst) (b : Nat) : Nat :=
  if x.nonf.contains b then 0xFF
  else if x.fsum then 0
  else if d.dyn x then (if s.role d = .single then x.leafCode d b else x.gcode.lk 0 b - 1)
  else if d.finF.isInt then 0xB6 else d.ecode

/-- FP32 lanes of a FLOATSUM block converted out under R52. -/
def fsumOut (F : Fmt) (nonf : Bool) (l : List Bead) : OutBlock × Tal :=
  if nonf then nonfinBlock F else valuesOut F (l.map (fun b => (decodeElem .fp32 b.toNat 0).cls.val))

/-- The block closes with an output block (R107, R108). -/
def closeBlk (b : Nat) (susp : Bool) (v : Option Block) (x : Inst) : Inst :=
  { x with closed := x.closed ++ [b], outs := x.outs ++ [{ src := 0, blk := b, susp := susp, val := v }], susp := x.susp || susp,
           data := x.data.filter (fun y => y.1 ≠ b), parts := x.parts.filter (fun y => y.1 ≠ b), sums := x.sums.put [] b [] }

/-- As closeBlk, with the block's Bead slots and NONFIN flag cleared (R108). -/
def finishBlk (b : Nat) (susp : Bool) (v : Option Block) (x : Inst) (s : State) : Inst × State :=
  let d := s.descOf x
  (closeBlk b susp v x, if d.reduces && !x.fsum then clearBlock (s.blockHome d x.step b) s else s)

/-- The tiles of an exponent pass whose first block is b8 are offered to their core's adder (R137). Each block is added in the slot its own block map entry
gives it; the adder is that of the first block's core (DESIGN CHOICE, log entry 144). -/
def offerTiles (b8 : Nat) (x : Inst) (s : State) : Inst × State :=
  let c := s.blockCore (s.descOf x) x.step b8
  ({ x with tiles := x.tiles.filter (fun t => t.1 ≠ b8) },
    eachDo (x.tiles.filter (fun t => t.1 = b8)) (fun t s =>
      let (n, s) := offerTile c t.2 s
      s.bumpN F.SCHED_COLL_SPARSE_CQSTALL x.grp n) s)

/-- What the check unit copies of block b's inputs: contributions and partials, with the exponent code that was agreed for it; where the result is
undefined, the result (R353, log entry 123). -/
def Inst.copied (x : Inst) (d : CDesc) (b code : Nat) (own : Bool) (out : List Byte) : ShadowIn :=
  if x.undef || (d.fixed && !x.conv && !d.finF.isInt && x.fcode.any (· ≠ d.ecode)) then .open_ out
  else .reduce d.fin d.fout (if own then none else some code) ((x.data.filter (fun y => y.1 = b)).map (fun y => y.2.2))
    ((x.parts.filter (fun y => y.1 = b)).map Prod.snd)

/-- COLL_BLOCK_REDUCED's effect: the mapped core finishes block b. The values of an instance whose descriptor was written while it ran
are free (R105). -/
def reduceBlk (b : Nat) (x : Inst) (s : State) : Inst × State :=
  let d := s.descOf x
  let c := s.blockCore d x.step b
  let role := s.role d
  let susp := (s.core c).quar || s.bit F.GLOBAL_HOLD_INHOLD 0 || x.suspBlk.contains b
  let (x, s) := freeBlks none [b] x s
  if x.bad.contains b then finishBlk b susp none x s
  else
    let code := s.finalCode d x b
    let x := if code = 0xFF && !x.nonf.contains b then { x with nonf := x.nonf ++ [b] } else x
    -- held contributions are converted with the block's exponent and summed
    let ins := if d.dyn x && code ≠ 0xFF then x.contribs d b else []
    let ev := ins.map (fun l => l.map (fun v => v.enter (codeE code)))
    let (x, s) := collTal (Tal.sum (ev.flatten.map Prod.snd)) x s
    let (x, s) := if ins = [] then (x, s) else offerTiles (b / 8 * 8) x s
    let start := if d.dyn x && role ≠ .root then rep 32 0 else s.blkSum x b
    let sums := ev.foldl (fun l e => (l.zip e).map (fun (y : Bead × (Int × Tal)) => beadAdd y.1 y.2.1)) start
    if role = .leaf then
      if code = 0xFF && !x.fsum then
        -- no partial travels for a NONFINITE block (Table 2.5); without an exponent pass an EXPSUM tells the root
        let s := if d.dyn x then s else sendExpsum x d [(b, 0xFF)] s
        finishBlk b susp none x s
      else
        let sums := if x.fsum && x.nonf.contains b then rep 32 (BitVec.ofNat 96 Fmt.fp32.nanBits) else sums
        let sums := if x.undef then sums.map (fun _ => (s.freeVal.signExtend 96 : Bead)) else sums
        let v : Block := { els := sums.map BitVec.toNat }
        finishBlk b susp (some v) x s.freed
    else
      let (o, t) := if x.fsum then fsumOut d.foutF (x.nonf.contains b) sums else blockOut d.foutF code sums
      let (x, s) := collTal t x s
      let o : Block := if x.undef then { scale := wbits s.freeVal 0 8, els := o.els.map (fun _ => wbits s.freeVal 0 d.foutF.width) } else o
      -- R352: Bead blocks of switches that round are counted and sampled; a FLOATSUM block is none
      let out := bytesLE 1 o.scale ++ (o.els.map (bytesLE 4)).flatten
      let ins := x.copied d b code (d.dyn x && role = .single) out
      finishBlk b susp (some o) x
        (if x.fsum then s.freed else shadowSample 0 c (BitVec.ofNat 64 x.inst) (BitVec.ofNat 64 b) x.step ins out s.freed)

-- Partials at the root (R107, R116, R120) ------------------------------------------------------------------------------------------------

/-- The switch itself takes contributions to block b: at a leaf or a single switch those of the members that attach to it, at a root those of any leaf. -/
def State.takesBlk (s : State) (d : CDesc) (b : Nat) : Bool := s.role d = .root || (s.locals d).any (fun m => s.owes d m b)

/-- A block may open: its predecessor in the window has closed (R107). A predecessor that this switch takes no contribution to has nothing to be formed here,
and holds nothing up (DESIGN CHOICE, log entry 116). -/
def State.opens (s : State) (x : Inst) (d : CDesc) (b : Nat) : Bool :=
  decide (b < d.window) || x.closed.contains (b - d.window) || !s.takesBlk d (b - d.window)

/-- Blocks taken one after another may each open; done says which close as soon as they are taken. -/
def State.windowOk (s : State) (x : Inst) (d : CDesc) (bs : List Nat) (done : Nat → Bool) : Bool :=
  (bs.foldl (fun (a : Bool × Inst) b =>
    (a.1 && s.opens a.2 d b, if done b then { a.2 with closed := a.2.closed ++ [b] } else a.2)) (true, x)).1

/-- A leaf's partial sums join block b: in FLOATSUM its FP32 lanes, else in the Bead file, where a block starts from zero (R49, R108, R120). The root keeps
the bytes for the check unit (R353). -/
def partialAdd (b : Nat) (bs : List Byte) (x : Inst) (s : State) : Inst × State :=
  if x.fsum then
    let vs := (List.range 32).map (fun k => leAt bs (4 * k) 4)
    let x := if vs.any fp32IsNan && !x.nonf.contains b then { x with nonf := x.nonf ++ [b] } else x
    ({ x with sums := x.sums.put [] b ((x.lanes b).zip vs |>.map (fun (y : Bead × Nat) =>
      (BitVec.ofNat 96 (if fp32IsNan y.2 then y.1.toNat else fp32Add y.1.toNat y.2) : Bead))) }, s)
  else
    let home := s.blockHome (s.descOf x) x.step b
    let old := s.blkSum x b
    ({ x with parts := x.parts ++ [(b, bs)] },
      setBeads32 home ((List.range 32).map (fun k => old.getD k 0 + beadAt bs (12 * k))) (x.nonf.contains b) s)

/-- Bytes per block of a PARTIAL in an instance. -/
def partialLen (fsum : Bool) : Nat := if fsum then 128 else 384

/-- Block b of a leaf's PARTIAL is accepted: its partial is added, on a core that the arrival wakes; the block is suspect where the frame or the core is
(R116, R128). For a block that has closed without it, only its coming is noted, which completes the leaf (R123). -/
def partialBlk (f : Frame) (b : Nat) (x : Inst) (s : State) : Inst × State :=
  if x.closed.contains b then (x.note 4 f.src.toNat [b], s)
  else
    let c := s.blockCore (s.descOf x) x.step b
    let n := partialLen x.fsum
    let (x, s) := partialAdd b ((f.data.drop (n * (b - f.index))).take n) x s
    let x := x.note 4 f.src.toNat [b]
    ({ x with suspBlk := if (f.susp || (s.core c).quar) && !x.suspBlk.contains b then x.suspBlk ++ [b] else x.suspBlk }, s.wakeIsland (c / 4))

/-- The blocks of a PARTIAL that the window lets open now, of those given, in order (R107). -/
def State.openNow (s : State) (x : Inst) (d : CDesc) (bs : List Nat) : List Nat := bs.takeWhile (fun b => x.closed.contains b || s.opens x d b)

/-- At the root, blocks of PARTIALs that waited for the window join their sums as they open; the cells of a frame with none left are freed (R107, R116). -/
def absorb (d : CDesc) (x : Inst) (s : State) : Inst × State :=
  x.held.foldl (fun (a : Inst × State) h =>
    match a.2.buf h.buf with
    | none => a
    | some b =>
      let now := a.2.openNow a.1 d h.blks
      let (x, s) := now.foldl (fun (a : Inst × State) n => partialBlk b.frame n a.1 a.2) a
      let rest := h.blks.drop now.length
      let x := { x with held := (x.held.map (fun y => if y.buf = h.buf then { y with blks := rest } else y)).filter (fun y => y.blks ≠ []) }
      (x, if rest = [] then discard h.buf s else s)) (x, s)

-- Blocks that pass through (R118) -----------------------------------------------------------------------------------------------------

/-- The switch is a leaf of a two-tier ALLTOALL, which ends the instance for its own members (R118). -/
def State.ataLeaf (s : State) (d : CDesc) : Bool := !d.samp && d.op = 5 && s.role d = .leaf

/-- A block at the leaf or single switch has every local contribution. -/
def State.blkFull (s : State) (d : CDesc) (x : Inst) (b : Nat) : Bool := (s.locals d).all (fun m => !s.owes d m b || x.got 1 m b)

/-- All that is formed of a block that passes through is formed: at a leaf of a two-tier ALLTOALL, for a block owed to one of its members, from the members
of other leaves too (R107; log entry 116). -/
def State.passFull (s : State) (d : CDesc) (x : Inst) (b : Nat) : Bool :=
  s.role d = .root || (s.blkFull d x b &&
    (!s.ataLeaf d || !(s.locals d).contains (b / d.slice) ||
      (List.range d.mcount).all (fun m => (s.locals d).contains m || x.got 4 m b)))

/-- Block b of a PARTIAL frame is accepted: it is ready to be sent on. -/
def passBlk (src : Nat) (f : Frame) (d : CDesc) (b : Nat) (x : Inst) (s : State) : Inst :=
  let x := x.note 4 (d.passKey src f) [b]
  let x := { x with outs := x.outs ++ [{ src := src, blk := b, susp := f.susp, val := some (blockAt d.finF f.data (b - f.index)) }] }
  if s.passFull d x b && !x.closed.contains b then { x with closed := x.closed ++ [b] } else x

/-- Those of the blocks that the window lets open are accepted, in order; the others stay in the frame's cells (R107). -/
def passBlks (src : Nat) (f : Frame) (d : CDesc) (s : State) (bs : List Nat) (x : Inst) : Inst :=
  (bs.foldl (fun (a : Bool × Inst) b => if a.1 && s.opens a.2 d b then (true, passBlk src f d b a.2 s) else (false, a.2)) (true, x)).2

/-- Held PARTIAL frames of blocks passed through give the blocks that may open by now; n bounds the rounds. -/
def passAbsorb (d : CDesc) (n : Nat) (x : Inst) (s : State) : Inst :=
  match n with
  | 0 => x
  | n + 1 =>
    passAbsorb d n (x.held.foldl (fun x h => match s.buf h.buf with
      | some b => passBlks h.src b.frame d s (s.heldLater d x h) x
      | none => x) x) s

-- Going on, and ending ---------------------------------------------------------------------------------------------------------------------

/-- LASTM of a leaf (Table 4.6): the last local member to complete; where none has anything to send, some local member, a free value (log entry 71). -/
def State.lastLocal (s : State) (d : CDesc) (x : Inst) : Nat :=
  let loc := s.locals d
  if x.seen.any (fun y => y.1 = 1) then x.lastM else loc.getD (s.freeVal.toNat % max 1 loc.length) 0

/-- The instance sends what it can and, where nothing is left to do, ends or tells the root (R116, R117, R118, R129). -/
def advance (x : Inst) (s : State) : State :=
  let d := s.descOf x
  let ks := s.streams d
  let (x, s) := if d.reduces && s.role d = .root then absorb d x s else (x, s)
  let x := if d.passes then passAbsorb d x.held.length x s else x
  let (x, s) := pump d ks x s
  let past := (List.range ks.length).all (fun i => match ks[i]? with
    | some k => x.strmOver i k
    | none => true)
  let hw := x.bad ≠ []
  let ok := fun (x : Inst) (s : State) => statusEnd x (if hw then 4 else 0) [] s
  match s.role d with
  | .leaf =>
    if !past || d.samp || d.barrier then s.putInst x
    else if d.op = 5 then ok x s
    else if x.ltallied.contains s.net.fnid.toNat then s.putInst x
    else if hw then ok x s
    else
      let fold := if d.audit then bytesLE 16 (s.foldOf x d).toNat else []
      let s := (collSend x d (some d.rootNode) false (mkPre 5 0 (s.lastLocal d x)) 0 ((Tal.ofList x.tal).record ++ fold) false s).freed
      s.putInst { x with ltallied := x.ltallied ++ [s.net.fnid.toNat] }
  | .root =>
    if d.samp || d.barrier then s.putInst x
    else if past && (s.leaves d).all (fun l => s.leafOk d x l || x.ends.any (fun e => e.leaf = l && e.code = 4)) then ok x s
    else s.putInst x
  | .single => if past && !d.samp && !d.barrier then ok x s else s.putInst x

/-- At the root: the instance ends where every leaf has sent its complete frames or an upward STATUS, and some has sent one (R123). Where every
such STATUS is a HWERR the other blocks are completed first (R129). -/
def rootEnds (x : Inst) (s : State) : Option State :=
  let d := s.descOf x
  if s.role d = .root && x.ends.any (fun e => d.samp || d.barrier || e.code ≠ 4) && (s.leaves d).all (fun l => s.leafOk d x l || x.ends.any (fun e => e.leaf = l)) then
    some (failEnd x s)
  else none


-- Accepting frames: the conditions of R110 ----------------------------------------------------------------------------------------------------

/-- What R110 says of a frame. -/
inductive CGate where
  | frecv
  | drop (fld : Fld)
  | pass (slot : Nat) (samp : Bool) (di : Nat) (step : Word)
deriving DecidableEq, Repr

/-- The step of a Brew that a frame names: the counter or the value after it (R110). -/
def State.stepFor (s : State) (slot low : Nat) : Option Word :=
  let n := s.brewStep slot
  if low = wbits n 0 32 then some n else if low = wbits (n + 1) 0 32 then some (n + 1) else none

/-- R109 and R110, in the order of R110's list: the descriptor, the form, the source, the blocks owed, the step, the end, the
duplicates. -/
def State.gate (s : State) (f : Frame) (form src owed : CDesc → Bool) (dup : CDesc → Inst → Bool) : CGate :=
  match s.findDesc f.inst with
  | none => .frecv
  | some (slot, samp, di) =>
    let d := s.desc samp di
    if !form d || d.group ≠ f.grp || !src d || !owed d then .drop F.SCHED_COLL_DROP_STRAY
    else match s.stepFor slot f.step with
      | none => .drop F.SCHED_COLL_DROP_LATE
      | some step =>
        if s.coll.ended.contains (samp, di, step) then .drop F.SCHED_COLL_DROP_LATE
        else match s.instOf samp di step with
          | none => .pass slot samp di step
          | some x => if dup d x then .drop F.SCHED_COLL_DROP_DUP else .pass slot samp di step

/-- The instance, opened where this is its first frame (R120, R122, R311). -/
def collOpen (slot : Nat) (samp : Bool) (di : Nat) (step : Word) (s : State) : Inst × State :=
  match s.instOf samp di step with
  | some x => (x, s)
  | none =>
    let d := s.desc samp di
    let fs := d.reduces && d.redmode = 1
    let conv := fs && s.strict
    let wasStrict : Bool := match s.brews.lk none slot with
      | some b => b.strict
      | none => false
    ({ samp := samp, desc := di, slot := slot, inst := d.inst, grp := d.group, step := step, fsum := fs && !s.strict, conv := conv,
       void := conv && !wasStrict, undef := s.coll.tainted.contains (samp, di) }, s.when conv (fun s => s.bump F.GLOBAL_STRICT_TALLY_FLOATCONV 0))

/-- A frame that a unit row handles: discarded and counted, offered to FRECV, or accepted by body, which may have to wait. -/
def collTake (i : Nat) (f : Frame) (g : CGate) (body : Inst → CDesc → State → Option State) (s : State) : Option State :=
  match g with
  | .frecv => some (offerFrecv i s)
  | .drop fld => some (discard i (s.bump fld f.grp))
  | .pass slot samp di step =>
    let (x, s) := collOpen slot samp di step s
    body x (s.desc samp di) (s.when (f.strict ≠ s.strict) (fun s => s.bump F.GLOBAL_STRICT_TALLY_MIXED 0))

/-- A COLL frame starts to wait: for its partition, which counts it, unless it waits for the window (R107, R261). -/
def collWait (i : Nat) (f : Frame) (s : State) : State :=
  match s.findDesc f.inst with
  | none => s
  | some (_, samp, di) =>
    let d := s.desc samp di
    if d.samp || decide (partRoom d.cpart s < cellsOf f.len) then countWait i d.cpart s else s

/-- The row of one CKIND. -/
def collUnit (ck : Nat → Bool) (use : Nat → Frame → State → Option State) : Unit :=
  { takes := fun f _ => f.kind = 3 && ck f.pre.ck, bad := collBad, use := use, wait := collWait }

/-- The arrival of a frame's last bit joins the closing event (R130). -/
def Inst.closing (x : Inst) (s : State) (i : Nat) : Inst :=
  match s.buf i with
  | none => x
  | some b => { x with lastBit := max x.lastBit b.bound, lastTick := max x.lastTick b.since }

-- CONTRIB (R110, R111, R114) -------------------------------------------------------------------------------------------------------------------

/-- The contribution's blocks with their values; none where its length or form is wrong (R109, R133), TILES that differ from the descriptor's SPARSE
among it (DESIGN CHOICE, log entry 139). -/
def contribBlocks (d : CDesc) (f : Frame) : Option (List (Nat × Block) × List Tile) :=
  let p := f.pre
  let F := d.finF
  if p.tiles ≠ d.sparse then none
  else if p.tiles then
    if f.index % 8 ≠ 0 then none
    else (tilesIn F p.nblk f.data).map (fun ts =>
      (((List.range ts.length).zip ts).flatMap (fun (y : Nat × Tile) => (List.range 8).map (fun j =>
        (f.index + 8 * y.1 + j, ({ els := (y.2.els.drop (32 * j)).take 32 } : Block)))), ts))
  else
    match blocksLen F f.index p.nblk with
    | none => none
    | some n => if f.data.length ≠ n then none else
      some ((List.range p.nblk).map (fun j => (f.index + j, blockAt F f.data j)), [])

/-- The form of a candidate frame (R109, R190). One without groups carries none beyond group 63, whatever its index. -/
def candForm (f : Frame) : Bool :=
  let p := f.pre
  f.data.length = 128 * p.nblk && decide (p.nblk ≤ 31) && p.ecode = 0 && !p.tiles && p.aux % 32768 = 0 && (p.nblk = 0 || decide (f.index + p.nblk ≤ 64))

/-- R190: a candidate frame that contradicts the sender's final group. -/
def candStray (x : Inst) (key : Nat) (f : Frame) : Bool :=
  let top := f.index + f.pre.nblk
  match x.finals.lookup key with
  | some n => (f.pre.nblk ≠ 0 && decide (n < top)) || (f.last && (f.pre.nblk = 0 || top ≠ n))
  | none => false

/-- R190: every group the frame carries has been accepted. -/
def candDup (x : Inst) (ck key : Nat) (f : Frame) : Bool := f.groups ≠ [] && f.groups.all (fun g => x.got ck key g)

/-- The groups of a sender up to the last one that a frame with LAST leaves: those through its own last group; where it carries none, those accepted so far
(DESIGN CHOICE, log entry 134). -/
def Inst.lastGroup (x : Inst) (ck key : Nat) (f : Frame) : Nat :=
  if f.pre.nblk = 0 then ((x.seen.filter (fun y => y.1 = ck && y.2.1 = key)).map (fun y => y.2.2 + 1)).foldl max 0 else f.index + f.pre.nblk

/-- The records of a candidate frame join the instance (R191): groups accepted before are passed over. -/
def candTake (ck key : Nat) (f : Frame) (x : Inst) (s : State) : Inst × State :=
  let new := (List.range f.pre.nblk).filter (fun j => !x.got ck key (f.index + j))
  let recs := new.flatMap (fun j => candsIn (f.data.drop (128 * j)) 1)
  let (kept, bad, dup) := candAdd x.cands recs
  let x := x.note ck key (new.map (· + f.index))
  let x := { x with cands := kept, finals := if f.last && x.finals.lookup key = none then x.finals ++ [(key, x.lastGroup ck key f)] else x.finals }
  (x, (s.bumpN F.SCHED_SAMP_EVT_NONFIN x.grp bad).bumpN F.SCHED_SAMP_EVT_DUPTOK x.grp dup)

/-- The result of a sampling instance is computed, sent, and followed by STATUS (R192, R193). -/
def sampleEnd (x : Inst) (s : State) : State :=
  let d := s.descOf x
  let r := sampleFn x.cands d (s.instSeed x) x.step
  let s := s.when (x.cands = []) (fun s => s.bump F.SCHED_SAMP_EVT_EMPTY x.grp)
  let s := s.bumpN F.SCHED_SAMP_EVT_ZEROW x.grp r.zerow
  let bs := if x.undef then s.freeBytes 32 else r.bytes d.retp
  let hold := s.bit F.GLOBAL_HOLD_INHOLD 0
  let x := { x with susp := x.susp || hold || (s.core d.core).quar }
  statusEnd x 0 [] (collSend x d none false (mkPre 6 0 0) 0 bs x.susp s)

/-- A leaf sends its merged candidates (R194): the first KTOP in Strainer order, 31 groups to a frame, padded; a padding record's key is a free value
(log entry 111). The records of an instance whose descriptor was written while it ran are free values (R189). -/
def leafMerge (x : Inst) (s : State) : State :=
  let d := s.descOf x
  let susp := x.susp || s.bit F.GLOBAL_HOLD_INHOLD 0 || (s.core d.core).quar
  let l := (candSort x.cands).take d.ktop
  let groups := (l.length + 15) / 16
  let frames := max 1 ((groups + 30) / 31)
  let bytes (c : Cand) : List Byte := bytesLE 4 c.key ++ bytesLE 4 c.id
  eachDo (List.range frames) (fun k s =>
    let part := (l.drop (496 * k)).take 496
    let g := (part.length + 15) / 16
    let pads := 16 * g - part.length
    let pad := (List.range pads).map (fun i => ({ key := wbits (Config.freeWord (s.free + i)) 0 32, id := 0xFFFFFFFF } : Cand))
    let data := if x.undef then ({ s with free := s.free + pads } : State).freeBytes (128 * g) else (part ++ pad).flatMap bytes
    collSend x d (some d.rootNode) false (mkPre 4 g (if k + 1 = frames then 32768 else 0)) (31 * k) data susp
      { s with free := s.free + pads + if x.undef then 128 * g else 0 }) s

/-- The instance at a leaf or single switch has accepted all that its local members owe: the leaf's measurement begins (R130). -/
def localsDone (x : Inst) (d : CDesc) (s : State) : State :=
  if s.role d = .leaf && !(!d.samp && d.op = 5) && d.deadline ≠ 0 && (s.locals d).all (s.senderOk d x) then
    { s with coll := { s.coll with meas := s.coll.meas ++
      [{ inst := x.inst, step := x.step, slot := x.slot, deadline := d.deadline, closing := x.lastBit, tick := x.lastTick, void := x.void }] } }
  else s

/-- A contribution of member m to block b enters by the instance's form (R44, R45, R56, R114). -/
def enterBlk (d : CDesc) (m b ecode : Nat) (v : Block) (x : Inst) (s : State) : Inst × State :=
  if d.passes then
    ({ x with outs := x.outs ++ [{ src := if d.op = 5 then m else 0, blk := b, val := some v }] }, s)
  else
    let ds := v.dec d.finF
    let (x, s) := collTal (Tal.sum (ds.map Dec.tal)) x s
    let bad := ds.any (fun e => e.cls = .nonfin)
    if d.dyn x then ({ x with data := x.data ++ [(b, m, v)] }, s)
    else
      let old := s.blkSum x b
      let x := if bad && !x.nonf.contains b then { x with nonf := x.nonf ++ [b] } else x
      if x.fsum then
        let l := old.zip ds |>.map (fun (y : Bead × Dec) =>
          (BitVec.ofNat 96 (fp32Add y.1.toNat (if y.2.cls = .nonfin then 0 else convertVal .fp32 y.2.cls)) : Bead))
        ({ x with sums := x.sums.put [] b l }, s)
      else
        let E : Int := if d.finF.isInt then 70 else codeE ecode
        let es := ds.map (fun e => e.cls.enter E)
        let (x, s) := collTal (Tal.sum (es.map Prod.snd)) x s
        -- the check unit's copy of the inputs (R353)
        let x := if s.role d = .single then { x with data := x.data ++ [(b, m, v)] } else x
        (x, setBeads32 (s.blockHome d x.step b) (old.zip es |>.map (fun (y : Bead × (Int × Tal)) => beadAdd y.1 y.2.1)) (x.nonf.contains b) s)

/-- Accepted blocks enter the fold (R319, R320). H is applied when the fold is used, since a seed written between steps holds for the whole of the step
that follows (R308). -/
def foldBlks (d : CDesc) (m : Nat) (f : Frame) (bl : List (Nat × Block)) (x : Inst) : Inst :=
  if !d.audit then x
  else
    let F := d.finF
    let first := f.index - (if d.op = 3 then m * d.slice else 0)
    let off := if F.isMx then first / 8 * F.groupBytes else first * 4 * F.width
    { x with folds := x.folds ++ [(m, off, blocksBytes F (bl.map Prod.snd))] }

/-- A FIXED exponent code that its sender used: one that differs from another's leaves every result of the instance undefined (R43, Table 12.10). -/
def Inst.fixedCode (x : Inst) (code : Nat) : Inst :=
  match x.fcode with
  | none => { x with fcode := some code }
  | some c => if c = code then x else { x with undef := true }

/-- Accepted tiles are offered to their cores' adders: at once where contributions are converted as they are accepted, else when their blocks are (R114,
R137). -/
def tilesTake (d : CDesc) (first : Nat) (ts : List Tile) (x : Inst) (s : State) : Inst × State :=
  let l := ((List.range ts.length).zip ts).map (fun (y : Nat × Tile) => (first + 8 * y.1, y.2.pos))
  let y := { x with tiles := x.tiles ++ l }
  if d.dyn x then (y, s) else l.foldl (fun (a : Inst × State) t => offerTiles t.1 a.1 a.2) (y, s)

/-- What tiles count: those not smaller than dense, and those that break STRUCT, which void the bound (R134, R136). -/
def tilesCount (d : CDesc) (ts : List Tile) (x : Inst) (s : State) : Inst × State :=
  let viol := if d.struct then (ts.filter (fun t => t.comp && decide (4 < t.most))).length else 0
  let s := s.bumpN F.SCHED_COLL_SPARSE_OVERSIZE x.grp (ts.filter (fun t => t.comp && decide (denseLen d.finF ≤ t.size))).length
  ({ x with void := x.void || decide (0 < viol) }, s.bumpN F.SCHED_COLL_SPARSE_STRUCTVIOL x.grp viol)

/-- A member completes once: its lateness is measured, and the leaf's measurement begins with the last of them (R130, R131). A frame without blocks is no
contribution, but for a BARRIER's (log entry 130). -/
def memberDone (m : Nat) (d : CDesc) (x : Inst) (s : State) : Inst × State :=
  if s.senderOk d x m && x.times.lookup m = none then
    let (x, s) := senderDone m (s.memberAt d m) (s.memberAt d m) x s
    (x, localsDone x d s)
  else (x, s)

/-- Blocks on cores in quarantine are suspect (R128). -/
def State.markQuar (s : State) (d : CDesc) (bs : List Nat) (x : Inst) : Inst :=
  if d.reduces then
    { x with suspBlk := x.suspBlk ++ bs.filter (fun b => (s.core (s.blockCore d x.step b)).quar && !x.suspBlk.contains b) }
  else x

/-- What follows an accepted CONTRIB that completed the blocks listed as full: a BARRIER ends or tells the root, exponent summaries leave, and the
instance goes on (R116, R119). -/
def contribGo (full : List Nat) (x : Inst) (d : CDesc) (s : State) : State :=
  if d.barrier then
    if (s.locals d).all (s.senderOk d x) then
      if s.role d = .leaf then (collSend x d (some d.rootNode) false (mkPre 2 0 x.lastM) 0 [] false s).putInst x else statusEnd x 0 [] s
    else s.putInst x
  else
    advance x (if s.role d = .leaf && d.dyn x then sendExpsum x d (full.map (fun b => (b, x.leafCode d b))) s else s)

/-- The effect of an accepted CONTRIB of member m. A frame of which some block may not open yet waits whole (DESIGN CHOICE, log entry 130). A block that
passes through closes as its last contribution is accepted: its result is then formed (log entry 116). The closing event is the last bit of what the
instance requires, at a leaf of an ALLTOALL of what its own members are owed (R130). -/
def contribTake (i m : Nat) (f : Frame) (bl : List (Nat × Block)) (ts : List Tile) (x : Inst) (d : CDesc) (s : State) : Option State :=
  let bs := bl.map Prod.fst
  let ids := if bs = [] && d.barrier then [emptyBlk] else bs
  let hold := (d.dyn x || d.passes) && bs ≠ []
  if !s.windowOk x d bs (fun b => d.passes && s.passFull d (x.note 1 m bs) b) then none
  else match (if hold then partHold d.cpart i s else partPass d.cpart i s) with
    | none => none
    | some t =>
      let x := if ids ≠ [] && (!s.ataLeaf d || bs.any (fun b => (s.locals d).contains (b / d.slice))) then x.closing s i else x
      let x := if hold then { x with held := x.held ++ [⟨i, m, bs⟩] } else x
      let x := if ids ≠ [] then { x with lastM := m } else x
      let x := if d.fixed && bs ≠ [] then x.fixedCode f.pre.ecode else x
      let (x, s) := tilesCount d ts x t
      let (x, s) := bl.foldl (fun (a : Inst × State) y => enterBlk d m y.1 f.pre.ecode y.2 a.1 a.2) (x, s)
      let (x, s) := tilesTake d f.index ts x s
      let x := s.markQuar d bs (foldBlks d m f bl (x.note 1 m ids))
      let s := if d.reduces then eachDo bs (fun b s => s.wakeIsland (s.blockCore d x.step b / 4)) s else s
      let (x, s) := if ids ≠ [] then memberDone m d x s else (x, s)
      let full := bs.filter (s.blkFull d x)
      some (contribGo full (if d.passes then { x with closed := x.closed ++ bs.filter (s.passFull d x) } else x) d s)

/-- The buffer of CPART for the candidates of one member, or at the root of one leaf, requested with its first candidates (R255): of 8,192 bytes, the most
that a sender may send (R190; DESIGN CHOICE, log entry 137). None where CPART cannot grant it now. -/
def candRoom (key : Nat) (f : Frame) (d : CDesc) (x : Inst) (s : State) : Option (Inst × State) :=
  if f.pre.nblk = 0 || x.candHeld.any (fun y => y.1 = key) || x.ltallied.contains s.net.fnid.toNat then some (x, s)
  else (partTake d.cpart (poolFor 8192) 1 s).map (fun y => ({ x with candHeld := x.candHeld ++ [(key, y.1)] }, y.2))

/-- The buffers that hold an instance's candidates are freed. -/
def candFree (x : Inst) (s : State) : State := eachDo x.candHeld (fun y s => partFree (s.descOf x).cpart y.2 s) s

/-- A unit accepts a frame of candidates: its cells are free at once, and its candidates lie in the buffer of their sender (R255, R261). -/
def candAccept (i key : Nat) (f : Frame) (x : Inst) (d : CDesc) (s : State) : Option (Inst × State) :=
  match partPass d.cpart i s with
  | none => none
  | some s => candRoom key f d x s

/-- The effect of an accepted sampling CONTRIB of member m. A leaf that has all merges once: what comes later changes nothing (R190, R194). -/
def sampContrib (i m : Nat) (f : Frame) (x : Inst) (d : CDesc) (s : State) : Option State :=
  match candAccept i m f (x.closing s i) d s with
  | none => none
  | some (x, s) =>
    let x := { x with lastM := m, susp := x.susp || (s.core d.core).quar }
    let (x, s) := candTake 1 m f x s
    let s := s.wakeIsland (d.core / 4)
    let (x, s) := memberDone m d x s
    if (s.locals d).all (s.senderOk d x) then
      if x.hwerr then some (statusEnd x 4 [] s)
      else if s.role d = .leaf then
        let s := if x.ltallied.contains s.net.fnid.toNat then s else leafMerge x s
        some ((candFree x s).putInst { x with candHeld := [], ltallied := x.ltallied ++ [s.net.fnid.toNat] })
      else some (sampleEnd x s)
    else some (s.putInst x)

/-- A CONTRIB is checked and accepted, or handled as R110 gives. -/
def contribUse (i : Nat) (f : Frame) (s : State) : Option State :=
  let pos (d : CDesc) : Option Nat := (s.memberPos d f.src).filter (fun m => (s.locals d).contains m)
  let form (d : CDesc) : Bool := f.pre.ck = 1 && (if d.samp then candForm f else (contribBlocks d f).isSome)
  -- a BROADCAST CONTRIB of another member than ROOT is STRAY whatever it carries
  let owed (d : CDesc) : Bool := d.samp || (f.blks.all (fun b => (pos d).any (fun m => s.owes d m b)) &&
    (d.op ≠ 4 || (pos d).any (fun m => (s.memberAt d m).toNat = d.root)))
  let stray (d : CDesc) : Bool := match s.findDesc f.inst with
    | some (slot, samp, di) =>
      d.samp && ((s.stepFor slot f.step).bind (s.instOf samp di)).any (fun x => candStray x ((pos d).getD 0) f)
    | none => false
  let dup (d : CDesc) (x : Inst) : Bool :=
    let m := (pos d).getD 0
    if d.samp then candDup x 1 m f
    else if d.barrier then x.got 1 m emptyBlk
    else f.blks.any (fun b => x.got 1 m b)
  collTake i f (s.gate f form (fun d => (pos d).isSome) (fun d => owed d && !stray d) dup) (fun x d s =>
    let m := (pos d).getD 0
    if d.samp then sampContrib i m f x d s
    else match contribBlocks d f with
      | none => some s
      | some (bl, ts) => contribTake i m f bl ts x d s) s

/-- COLL_CONTRIB_RX (R110, R114). COLL frames with a reserved CKIND belong here too. -/
def execCollContribRx (f : Src) (s : State) : Host.Outcome State Fault Refusal :=
  consume (collUnit (fun k => k = 1 || k = 0 || decide (8 ≤ k)) contribUse) f s

-- EXPSUM and GEXP (R116, R119) ---------------------------------------------------------------------------------------------------------------------

/-- A leaf that takes part sent the frame to this root. -/
def State.fromLeaf (s : State) (f : Frame) (d : CDesc) : Bool := s.role d = .root && (s.leaves d).contains f.src

/-- ROOTSW sent the frame to this leaf. -/
def State.fromRoot (s : State) (f : Frame) (d : CDesc) : Bool := s.role d = .leaf && f.src = d.rootNode

/-- The frame's blocks lie below BCOUNT. -/
def inRange (f : Frame) (d : CDesc) : Bool := f.blks.all (fun b => decide (b < d.bcount))

/-- A leaf has completed at the root: its lateness is measured, and it may be the deciding one (R130, R131). -/
def leafDone (f : Frame) (d : CDesc) (x : Inst) (s : State) : Inst × State :=
  senderDone f.src.toNat f.src (s.memberAt d f.pre.aux) { x with lastLeaf := some (fnidLeaf f.src) } s

/-- The instance of a frame runs in the FLOATSUM form: as it was opened, or as it would be now (R311). -/
def State.fsumFor (s : State) (f : Frame) (d : CDesc) : Bool :=
  match (s.findDesc f.inst).bind (fun y => (s.stepFor y.1 f.step).bind (s.instOf y.2.1 y.2.2)) with
  | some x => x.fsum
  | none => d.reduces && d.redmode = 1 && !s.strict

/-- Blocks are to be handled on their cores: the islands wake (R386). -/
def wakeBlks (d : CDesc) (x : Inst) (bs : List Nat) (s : State) : State := eachDo bs (fun b s => s.wakeIsland (s.blockCore d x.step b / 4)) s

/-- The root accepts a leaf's EXPSUM. A NONFINITE block may need no further frame to be handled on its core. A BARRIER's EXPSUM is its leaf's last frame,
and is what its time is taken from (R131, R142; DESIGN CHOICE, log entry 146). -/
def expsumUse (i : Nat) (f : Frame) (s : State) : Option State :=
  let form (d : CDesc) : Bool := !d.samp && (d.reduces || d.barrier) && !s.fsumFor f d && !f.pre.tiles &&
    f.data.length = f.pre.nblk && (d.barrier = (f.pre.nblk = 0))
  let dup (_ : CDesc) (x : Inst) : Bool := (if f.pre.nblk = 0 then [emptyBlk] else f.blks).any (fun b => x.got 2 f.src.toNat b)
  collTake i f (s.gate f form (s.fromLeaf f) (inRange f) dup) (fun x d s =>
    match partPass d.cpart i s with
    | none => none
    | some s =>
      let l := f.src.toNat
      if d.barrier then
        let x := x.note 2 l [emptyBlk]
        let (x, s) := leafDone f d x s
        if (s.leaves d).all (s.leafOk d x) then some (statusEnd x 0 [] s)
        else some ((rootEnds x s).getD (s.putInst x))
      else
        let cs := (List.range f.pre.nblk).map (fun j => (f.index + j, leAt f.data j 1))
        let x := x.note 2 l (cs.map Prod.fst)
        let x := { x with codes := x.codes ++ cs.map (fun y => (l, y.1, y.2)) }
        if d.dyn x then
          let full := (cs.map Prod.fst).filter (fun b => (s.leaves d).all (fun y => x.got 2 y.toNat b))
          let g := full.map (fun b => (b, ((x.codes.filter (fun y => y.2.1 = b)).map (fun y => y.2.2)).foldl max 0))
          let x := { x with gcode := g.foldl (fun m y => m.put 0 y.1 (y.2 + 1)) x.gcode }
          let (x, s) := if x.count 2 l = d.bcount then
            (let (y, s) := senderDone l f.src (s.memberAt d f.pre.aux) x s
             (y, s)) else (x, s)
          let s := sendGexp x d g s
          let dead := (g.filter (fun y => y.2 = 0xFF)).map Prod.fst
          let x := { x with nonf := x.nonf ++ dead }
          some ((rootEnds x s).getD ((wakeBlks d x dead s).putInst x))
        else
          let x := if d.fixed && !d.finF.isInt then ((cs.map Prod.snd).filter (· ≠ 0xFF)).foldl Inst.fixedCode (x.fixedCode d.ecode) else x
          let dead := (cs.filter (fun y => y.2 = 0xFF)).map Prod.fst
          let x := { x with nonf := (x.nonf ++ dead).eraseDups }
          some ((rootEnds x s).getD ((wakeBlks d x dead s).putInst x))) s

/-- COLL_EXPSUM_RX (R116). -/
def execCollExpsumRx (f : Src) (s : State) : Host.Outcome State Fault Refusal := consume (collUnit (fun k => k = 2) expsumUse) f s

/-- A leaf accepts GEXP: the global codes of its blocks; a NONFINITE block closes without a partial. -/
def gexpUse (i : Nat) (f : Frame) (s : State) : Option State :=
  let form (d : CDesc) : Bool := d.reduces && !s.fsumFor f d && (d.redmode = 1 || !(d.fixed || d.finF.isInt)) && !f.pre.tiles &&
    f.pre.nblk ≠ 0 && f.data.length = f.pre.nblk
  let dup (_ : CDesc) (x : Inst) : Bool := f.blks.any (fun b => x.got 3 f.src.toNat b)
  collTake i f (s.gate f form (s.fromRoot f) (inRange f) dup) (fun x d s =>
    match partPass d.cpart i s with
    | none => none
    | some s =>
      let cs := (List.range f.pre.nblk).map (fun j => (f.index + j, leAt f.data j 1))
      let x := x.note 3 f.src.toNat (cs.map Prod.fst)
      let x := { x with gcode := cs.foldl (fun m y => m.put 0 y.1 (y.2 + 1)) x.gcode }
      let dead := (cs.filter (fun y => y.2 = 0xFF && s.blkFull d x y.1 && !x.closed.contains y.1)).map Prod.fst
      let (x, s) := dead.foldl (fun (a : Inst × State) b => reduceBlk b a.1 a.2) (x, s)
      some (advance x (wakeBlks d x (cs.map Prod.fst) s))) s

/-- COLL_GEXP_RX (R116). -/
def execCollGexpRx (f : Src) (s : State) : Host.Outcome State Fault Refusal := consume (collUnit (fun k => k = 3) gexpUse) f s

-- PARTIAL (R116, R118, R120, R194) -------------------------------------------------------------------------------------------------------------------------

/-- The form of a PARTIAL (R109). -/
def partialForm (s : State) (f : Frame) (d : CDesc) : Bool :=
  let p := f.pre
  if d.samp then candForm f
  else !p.tiles && p.nblk ≠ 0 && (if d.reduces then f.data.length = p.nblk * partialLen (s.fsumFor f d)
    else d.passes && (match blocksLen d.finF f.index p.nblk with
      | some n => f.data.length = n
      | none => false))

/-- The root takes a leaf's candidates. Sampling leaves are measured by nothing: they send no LTALLY, and a PARTIAL has no LASTM (R131, Table 6.5;
DEDUCED, log entry 128). -/
def sampPartial (i : Nat) (f : Frame) (x : Inst) (d : CDesc) (s : State) : Option State :=
  match candAccept i f.src.toNat f x d s with
  | none => none
  | some (x, s) =>
    let before := s.leafOk d x f.src
    let (x, s) := candTake 4 f.src.toNat f { x with susp := x.susp || f.susp || (s.core d.core).quar } s
    let s := s.wakeIsland (d.core / 4)
    let x := if s.leafOk d x f.src && !before then { x with lastLeaf := some (fnidLeaf f.src) } else x
    if (s.leaves d).all (s.leafOk d x) then some (sampleEnd x s)
    else some ((rootEnds x s).getD (s.putInst x))

/-- Blocks that pass through come from another switch; src keys those of an ALLTOALL. Those that the window lets open are accepted, and the frame keeps its
cells until all have been sent on (R107, log entries 116 and 130). -/
def passPartial (i src : Nat) (f : Frame) (x : Inst) (d : CDesc) (s : State) : Option State :=
  let y := passBlks src f d s f.blks x
  if y = x then none
  else match partHold d.cpart i s with
    | none => none
    | some s =>
      let x := { y with held := y.held ++ [⟨i, src, f.blks⟩] }
      some ((rootEnds x s).getD (advance x s))

/-- The root adds a leaf's partials (R116). Those blocks that the window lets open are accepted; where others do not open yet, the frame keeps its cells
until they have been (R107, log entry 130). -/
def sumPartial (i : Nat) (f : Frame) (x : Inst) (d : CDesc) (s : State) : Option State :=
  let now := s.openNow x d f.blks
  let rest := f.blks.drop now.length
  let go (s : State) : State :=
    let (x, s) := now.foldl (fun (a : Inst × State) b => partialBlk f b a.1 a.2) (x, s)
    let x := if rest = [] then x else { x with held := x.held ++ [⟨i, f.src.toNat, rest⟩] }
    (rootEnds x s).getD (s.putInst x)
  if now = [] then none
  else if rest = [] then (partPass d.cpart i s).map go
  else some (go s)

/-- The root, or a leaf of an ALLTOALL, accepts a PARTIAL. -/
def partialUse (i : Nat) (f : Frame) (s : State) : Option State :=
  let ata (d : CDesc) : Bool := !d.samp && d.op = 5
  let key (d : CDesc) : Nat := if ata d then f.pre.aux else f.src.toNat
  let src (d : CDesc) : Bool := if ata d then s.role d = .leaf && (s.leaves d).contains f.src && f.src ≠ s.net.fnid &&
      decide (f.pre.aux < d.mcount) && leafOf (s.memberAt d f.pre.aux) = f.src else s.fromLeaf f d
  let owed (d : CDesc) : Bool :=
    d.samp || (inRange f d &&
      (if ata d then f.blks.all (fun b => (s.locals d).contains (b / d.slice))
       else if d.passes then f.blks.all (fun b => (List.range d.mcount).any (fun m => leafOf (s.memberAt d m) = f.src && s.owes d m b))
       else true))
  let stray (d : CDesc) : Bool := match s.findDesc f.inst with
    | some (slot, samp, di) => d.samp && ((s.stepFor slot f.step).bind (s.instOf samp di)).any (fun x => candStray x f.src.toNat f)
    | none => false
  let dup (d : CDesc) (x : Inst) : Bool :=
    if d.samp then candDup x 4 f.src.toNat f else f.blks.any (fun b => x.got 4 (key d) b)
  collTake i f (s.gate f (partialForm s f) src (fun d => owed d && !stray d) dup) (fun x d s =>
    if d.samp then sampPartial i f x d s
    else if d.passes then passPartial i (if ata d then key d else 0) f (if ata d then x.closing s i else x) d s
    else sumPartial i f x d s) s

/-- COLL_PARTIAL_RX (R116). -/
def execCollPartialRx (f : Src) (s : State) : Host.Outcome State Fault Refusal := consume (collUnit (fun k => k = 4) partialUse) f s

-- LTALLY (R117, R320) -----------------------------------------------------------------------------------------------------------------------------------------

/-- The root accepts a leaf's LTALLY: the counts of what the leaf decoded join the instance's record, its fold the input fold. -/
def ltallyUse (i : Nat) (f : Frame) (s : State) : Option State :=
  let form (d : CDesc) : Bool := !d.samp && !d.barrier && d.op ≠ 5 && f.pre.nblk = 0 && !f.pre.tiles && f.data.length = (if d.audit then 48 else 32)
  let dup (_ : CDesc) (x : Inst) : Bool := x.ltallied.contains f.src.toNat
  collTake i f (s.gate f form (s.fromLeaf f) (fun _ => true) dup) (fun x d s =>
    match partPass d.cpart i s with
    | none => none
    | some s =>
      let t := Tal.ofRecord (f.data.take 32)
      let add : Tal := { satIn := t.satIn, flushIn := t.flushIn, shed := t.shed, nonfin := t.nonfin }
      let x := { x with tal := ((Tal.ofList x.tal).add add).toList, ltallied := x.ltallied ++ [f.src.toNat],
                        fold := if d.audit then x.fold ^^^ BitVec.ofNat 128 (leAt f.data 32 16) else x.fold }
      let (x, s) :=
        if d.dyn x then ({ x with lastLeaf := some (fnidLeaf f.src) }, s)
        else leafDone f d x s
      match rootEnds x s with
      | some s => some s
      | none => some (advance x s)) s

/-- COLL_LTALLY_RX (R117). -/
def execCollLtallyRx (f : Src) (s : State) : Host.Outcome State Fault Refusal := consume (collUnit (fun k => k = 5) ltallyUse) f s

-- RESULT and STATUS at a leaf and at the root --------------------------------------------------------------------------------------------------------------------

/-- The form of a RESULT (R109). -/
def resultForm (f : Frame) (d : CDesc) : Bool :=
  let p := f.pre
  if d.samp then p.nblk = 0 && f.data.length = 32
  else
    let F := if d.reduces then d.foutF else d.finF
    !d.barrier && p.tiles = (d.reduces && d.outsparse) &&
    (if p.tiles then (tilesIn F p.nblk f.data).isSome
     else match blocksLen F f.index p.nblk with
      | some n => f.data.length = n
      | none => false)

/-- A leaf accepts a RESULT of the root; its members get their copies from the tree. A leaf none of whose members owes anything has its LTALLY to send now
(R117). -/
def resultUse (i : Nat) (f : Frame) (s : State) : Option State :=
  let bs : List Nat := if f.pre.nblk = 0 then [emptyBlk] else f.blks
  let dup (_ : CDesc) (x : Inst) : Bool := bs.any (fun b => x.got 6 f.src.toNat b)
  collTake i f (s.gate f (resultForm f) (s.fromRoot f) (fun d => d.samp || f.pre.tiles || inRange f d) dup) (fun x d s =>
    match partPass d.cpart i s with
    | none => none
    | some s => some (advance (x.note 6 f.src.toNat bs) s)) s

/-- COLL_RESULT_RX (R116). -/
def execCollResultRx (f : Src) (s : State) : Host.Outcome State Fault Refusal := consume (collUnit (fun k => k = 6) resultUse) f s

/-- The form of a STATUS: its length follows from the code (R125). -/
def statusForm (s : State) (f : Frame) (d : CDesc) : Bool :=
  let code := f.pre.aux
  f.pre.nblk = 0 && !f.pre.tiles && decide (code ≤ 4) &&
  f.data.length = 40 + (if d.audit && code = 0 && s.role d ≠ .root then 32 else 0) + (if code = 1 || code = 2 then (d.mcount + 63) / 64 * 8 else 0)

/-- A leaf learns from the root's STATUS whether it is the deciding leaf, and so measures the bound (R130). -/
def leafMeas (x : Inst) (word : Nat) (s : State) : State :=
  let mine := bitsOf word 43 1 = 1 && bitsOf word 36 7 = fnidLeaf s.net.fnid
  let isX (m : Meas) : Bool := m.own = .none && m.inst = x.inst && m.step = x.step
  let void := bitsOf word 34 1 = 1
  measSettle { s with coll := { s.coll with meas :=
    (s.coll.meas.filter (fun m => mine || !isX m)).map (fun m => if isX m then { m with armed := true, void := m.void || x.void || void } else m) } }

/-- A leaf that ended with HWERR gives nothing more: the blocks it has not given are left out (R129). -/
def leafLost (d : CDesc) (l : Fnid) (x : Inst) (s : State) : Inst × State :=
  if d.samp || d.barrier then (x, s)
  else
    let lost := (List.range d.bcount).filter (fun b => s.owesFrom d l b && !x.closed.contains b &&
      !(if d.reduces then leafGave d x l b else x.got 4 l.toNat b))
    lost.foldl (fun (a : Inst × State) b => finishBlk b false none { a.1 with bad := a.1.bad ++ [b] } a.2) (x, s)

/-- The root takes a leaf's upward STATUS; a leaf takes the root's and ends the instance (R123). -/
def statusUse (i : Nat) (f : Frame) (s : State) : Option State :=
  let dup (d : CDesc) (x : Inst) : Bool := s.role d = .root && x.ends.any (fun e => e.leaf = f.src)
  collTake i f (s.gate f (statusForm s f) (fun d => s.fromLeaf f d || s.fromRoot f d) (fun _ => true) dup) (fun x d s =>
    match partPass d.cpart i s with
    | none => none
    | some s =>
      let code := f.pre.aux
      let word := leAt f.data 0 8
      if s.role d = .root then
        let bits := natLE (f.data.drop 40)
        let marks := if code = 1 || code = 2 then (List.range d.mcount).filter (fun m => bitsOf bits m 1 = 1) else []
        let x := { x with ends := x.ends ++ [⟨f.src, code, marks, bitsOf word 0 16⟩], susp := x.susp || bitsOf word 32 1 = 1 }
        let (x, s) := if code = 4 then leafLost d f.src x s else (x, s)
        some ((rootEnds x s).getD (advance x s))
      else some (leafMeas x word (endInst x (endFld code) (if code = 0 then s else dropFrames x s)))) s

/-- COLL_STATUS_RX (R123). -/
def execCollStatusRx (f : Src) (s : State) : Host.Outcome State Fault Refusal := consume (collUnit (fun k => k = 7) statusUse) f s

-- Events ---------------------------------------------------------------------------------------------------------------------------------------------------------------

/-- What COLL_BLOCK_REDUCED changes. -/
def collBlockReducedEffect (b : Nat) (x : Inst) (s : State) : State :=
  let (x, s) := reduceBlk b x s
  advance x s

/-- COLL_BLOCK_REDUCED (R114): the mapped core, awake, finishes a block whose inputs are all held. -/
def execCollBlockReduced (inst : BitVec 32) (step : Word) (b : Nat) (s : State) : Host.Outcome State Fault Refusal :=
  match s.instNo inst.toNat step with
  | none => .next s
  | some x =>
    let d := s.descOf x
    actIf (s.blockReady d x b && !s.bit F.ROD_ISLAND_ASLEEP (s.blockCore d x.step b / 4)) (collBlockReducedEffect b x) s

/-- COLL_TIMEOUT (R122): the timer of an open instance reaches TIMEOUT; it stands still during a HOLD. -/
def execCollTimeout (inst : BitVec 32) (step : Word) (s : State) : Host.Outcome State Fault Refusal :=
  match s.instNo inst.toNat step with
  | none => .next s
  | some x => actIf (!s.bit F.GLOBAL_HOLD_INHOLD 0) (failEnd x) s

/-- What COLL_UNMATCHED_EXPIRY changes. -/
def collUnmatchedExpiryEffect (k : Nat) (s : State) : State :=
  let s := { s with net := { s.net with unmatched := s.net.unmatched.erase k } }
  match s.buf k with
  | none => s
  | some b =>
    discard k (if b.frame.kind = 3 then s.bump F.SCHED_COLL_DROP_STRAY b.frame.grp else s.bump F.SCHED_EXP_DROP_STRAY 0)

/-- COLL_UNMATCHED_EXPIRY (R110, R146): the i-th frame that names no descriptor has waited 2,000 µs for an FRECV. Frames offered to an overflow
core wait without limit (R163). -/
def execCollUnmatchedExpiry (i : Nat) (s : State) : Host.Outcome State Fault Refusal :=
  match s.net.unmatched[i]? with
  | none => .next s
  | some k =>
    actIf ((s.buf k).all (fun b => b.only = none)) (collUnmatchedExpiryEffect k) s

/-- R126: every open instance of a Brew whose step is S or later ends without STATUS. -/
def collRewind (slot : Nat) (from_ : Word) (s : State) : State :=
  let gone := s.coll.insts.filter (fun x => x.slot = slot && decide (from_.toNat ≤ x.step.toNat))
  let s := eachDo gone (fun x s => endInst x F.SCHED_COLL_END_OTHER s) s
  { s with coll := { s.coll with
    ended := s.coll.ended.filter (fun e => !(decide (from_.toNat ≤ e.2.2.toNat) && (match s.brews.lk none slot with
      | some b => b.claims (if e.1 then 2 else 0) e.2.1
      | none => false))),
    meas := s.coll.meas.filter (fun m => !(m.slot = slot && decide (from_.toNat ≤ m.step.toNat))) } }

/-- A step of a Brew is released: no frame can name its earlier steps any more (R110), so that their ends need not be kept. -/
def collReleased (slot : Nat) (step : Word) (s : State) : State :=
  let mine (samp : Bool) (di : Nat) : Bool := match s.brews.lk none slot with
    | some b => b.claims (if samp then 2 else 0) di
    | none => false
  { s with coll := { s.coll with ended := s.coll.ended.filter (fun e => !mine e.1 e.2.1 || decide (step.toNat ≤ e.2.2.toNat)) } }

/-- R124: the accepted epoch advances; every open instance ends with EPOCH. -/
def collEpoch (s : State) : State := eachDo s.coll.insts (fun x s => statusEnd x 3 [] s) s

/-- R128: core c enters quarantine: blocks that are open on it, and sampling instances that it serves, are suspect. -/
def collQuar (c : Nat) (s : State) : State :=
  { s with coll := { s.coll with insts := s.coll.insts.map (fun x =>
    let d := s.descOf x
    if x.samp then (if d.core = c then { x with susp := true } else x)
    else if d.reduces then { x with suspBlk := (x.suspBlk ++ x.openBlks.filter (fun b => s.blockCore d x.step b = c)).eraseDups }
    else x) } }

/-- Block b of member m is in a contribution that the instance holds (R129); a sampling instance holds a member's candidates in one buffer. -/
def Inst.holds (x : Inst) (m b : Nat) : Bool :=
  if x.samp then x.candHeld.any (fun y => y.1 = m) else x.held.any (fun h => h.src = m && h.blks.contains b)

/-- R129: an uncorrectable error strikes member m's held contribution to block b of an open instance, or, for no member, its Bead. No result is
formed for the block. -/
def collEcc (inst : Nat) (step : Word) (m : Option Nat) (b : Nat) (s : State) : State :=
  match s.instNo inst step with
  | none => s
  | some x =>
    let d := s.descOf x
    if d.passes then
      let src := if d.op = 5 then m.getD 0 else 0
      let hit (o : OutBlk) : Bool := o.src = src && o.blk = b
      s.putInst { x with bad := x.bad ++ [b], hwerr := true, outs := x.outs.map (fun o => if hit o then { o with val := none } else o) }
    else if x.closed.contains b || x.bad.contains b then s
    else s.putInst { x with bad := x.bad ++ [b], hwerr := true }

end Sys2Proof.Machine
end

