-- ==== Sys2Proof/Machine/ExpData.lean ====
section
/-!
DEFINITION. The data of expert layers (R144, R147 to R154, R164): layer descriptors, prefixes, the router's logits, selection and gates, placement
entries and replicas, and the combined block.
-/
namespace Sys2Proof

open Sys2Proof.Machine

/-- The dispatch prefix. -/
structure DPre where
  owner : Fnid
  expert : Nat
  fblk : Nat
  nblk : Nat
  dkind : Nat
deriving DecidableEq, Repr

/-- The prefix of a DISP frame. -/
def Frame.dpre (f : Frame) : DPre :=
  let w := leAt f.payload 0 8
  { owner := BitVec.ofNat 16 (bitsOf w 48 16), expert := bitsOf w 32 16, fblk := bitsOf w 16 9, nblk := bitsOf w 8 8, dkind := bitsOf w 0 8 }

/-- The bytes of a prefix. -/
def DPre.bytes (p : DPre) : List Byte :=
  bytesLE 8 (p.owner.toNat <<< 48 + (p.expert % 65536) <<< 32 + (p.fblk % 512) <<< 16 + (p.nblk % 256) <<< 8 + p.dkind % 256)

end Sys2Proof

namespace Sys2Proof.Machine

open Sys2Proof

/-- The owners of a layer (R144). -/
def State.owners (s : State) (d : XDesc) : List Fnid := (List.range d.otcount).map (fun i => s.memberEntry (d.otbase + i))

/-- The cores that route a layer's tokens (R147). -/
def State.routerCores (s : State) (d : XDesc) : List Nat := (List.range ((d.nexp + 31) / 32)).map (fun g => s.mapCore (d.rmbase + g))

-- Frames (Tables 5.2 and 5.3) ------------------------------------------------------------------------------------------

/-- H1[63:32] of count frames. -/
def countIndex : Nat := 0xFFFFFFFF

/-- Blocks cut into frames as R112 gives, limit bytes each: the first block, how many, and their bytes. -/
def dispParts (F : Fmt) (limit : Nat) (bl : List Block) : List (Nat × Nat × List Byte) :=
  let u := if F.isMx then 8 else 1
  let n := max 1 (limit / F.tensorBytes (32 * u)) * u
  (List.range ((bl.length + n - 1) / n)).map (fun i =>
    let part := (bl.drop (n * i)).take n
    (n * i, part.length, blocksBytes F part))

-- Router (R147 to R150) ---------------------------------------------------------------------------------------------------

/-- Row e of the router weights, decoded. -/
def State.routerRow (s : State) (d : XDesc) (e : Nat) : List Dec :=
  let k := 32 * d.hblk
  let n := d.rF.tensorBytes k
  decodeElems d.rF (s.memRd (d.rwbase + (e / 32 * 32 + e % 32) * n) n) 0 k

/-- The selection bias of expert e (R148). -/
def State.routerBias (s : State) (d : XDesc) (e : Nat) : Nat :=
  let n := d.rF.tensorBytes (32 * d.hblk)
  natLE (s.memRd (d.rwbase + (d.nexp + 31) / 32 * 32 * n + 4 * e) 4)

/-- The switch offsets that hold the router weights and biases: the first, and how many. -/
def XDesc.routerSpan (d : XDesc) : Nat × Nat :=
  (d.rwbase, (d.nexp + 31) / 32 * 32 * d.rF.tensorBytes (32 * d.hblk) + (if d.bias then 4 * d.nexp else 0))

/-- The exact ratio n / m rounded to FP32 (R149); m is not zero. -/
def fp32Ratio (n m : Nat) : Nat :=
  if n = 0 then 0
  else
    -- the exponent of n / m, then 24 significant bits to nearest, ties to even
    let e0 : Int := (n.log2 : Int) - m.log2
    let below : Bool := if 0 ≤ e0 then decide (n < m * 2 ^ e0.toNat) else decide (n * 2 ^ (-e0).toNat < m)
    let e : Int := if below then e0 - 1 else e0
    let k : Int := 23 - e
    let a := if 0 ≤ k then n * 2 ^ k.toNat else n
    let b := if 0 ≤ k then m else m * 2 ^ (-k).toNat
    let q := a / b
    let r := a % b
    let q := if b < 2 * r || (2 * r = b && q % 2 = 1) then q + 1 else q
    fp32Round ⟨q, e - 23⟩

/-- An FP32 gate as an integer in units of 2^-200. -/
def gateUnits (b : Nat) : Nat := ((fp32Dec b).val.scale 200).rne.toNat

/-- LOG2E of R149. -/
def log2e : Nat := 0x3FB8AA3B

/-- The gates of the selected experts (R149, R150), and whether they are all +0 for want of a finite logit or a sum. -/
def gatesOf (ls : List Nat) (sel : List Nat) (allrenorm : Bool) : List Nat × Bool :=
  let S := if allrenorm then List.range ls.length else sel
  let l (e : Nat) : Nat := ls.getD e 0
  let F := S.filter (fun e => !fp32IsNan (l e))
  match F with
  | [] => (sel.map (fun _ => 0), true)
  | e0 :: t =>
    let m := t.foldl (fun m e => if fp32Lt m (l e) then l e else m) (l e0)
    let p (e : Nat) : Nat := if F.contains e then exp2q (fp32Mul (fp32Add (l e) (m ^^^ 0x80000000)) log2e) else 0
    let P := (S.map p).sum
    let q := sel.map (fun e => fp32Ratio (p e) P)
    if !allrenorm then (q, false)
    else
      let Q := (q.map gateUnits).sum
      if Q = 0 then (sel.map (fun _ => 0), true)
      else (q.map (fun x => fp32Ratio (gateUnits x) Q), false)

/-- What routing gives a token: its experts by rank with their gates, whether a logit is NaN, whether the gates are all +0, the numeric events. -/
structure Routed where
  sel : List (Nat × Nat)
  nan : Bool
  zero : Bool
  tal : Tal
deriving DecidableEq, Repr

/-- The activation of a token in block order, decoded. -/
def Tok.decoded (t : Tok) (d : XDesc) : List Dec :=
  (List.range d.hblk).flatMap (fun b => match t.act.find? (fun x => x.1 = b) with
    | some x => x.2.dec d.rF
    | none => [])

/-- A token's blocks in order. -/
def Tok.blocks (t : Tok) (d : XDesc) : List Block :=
  (List.range d.hblk).filterMap (fun b => (t.act.find? (fun x => x.1 = b)).map Prod.snd)

/-- Routing a token (R147 to R150): rows are the decoded router weights of experts 0 to NEXP - 1, bs the selection biases. The activation is decoded
once for each column group. -/
def routeTok (d : XDesc) (rows : List (List Cls)) (bs : List Nat) (t : Tok) : Routed :=
  let a := t.decoded d
  let ac := a.map Dec.cls
  let outs := rows.map (fun r => tmmFp .fp32 ac r .zero d.hblk)
  let ls := outs.map Prod.fst
  let key (e : Nat) : Nat := let l := ls.getD e 0; if d.bias then fp32Add l (bs.getD e 0) else l
  let order := strainSort 0 false ((List.range d.nexp).map (fun e => (⟨e, key e⟩ : SRec)))
  let sel := (order.take d.topk).map SRec.id
  let (gs, zero) := gatesOf ls sel d.gmode
  { sel := sel.zip gs, nan := ls.any fp32IsNan, zero := zero || gs.all (fun g => g = 0),
    tal := (Tal.sum (rep ((d.nexp + 31) / 32) (Tal.sum (a.map Dec.tal)))).add (Tal.sum (outs.map Prod.snd)) }

-- Placement (R151 to R154) --------------------------------------------------------------------------------------------------

/-- A placement entry (Table 5.4). -/
structure PEntry where
  cap : Nat
  ovcore : Nat
  ovf : Bool
  dests : List Fnid
deriving DecidableEq, Repr

/-- Entry i of bank b. -/
def State.placeEntry (s : State) (b i : Nat) : PEntry :=
  let w (k : Nat) : Word := s.reg .SCHED_PLACE (65536 * b + 4 * i + k)
  { cap := wbits (w 2) 48 16, ovcore := wbits (w 2) 40 8, ovf := wbits (w 2) 39 1 = 1,
    dests := (List.range (wbits (w 2) 35 4)).map (fun k => BitVec.ofNat 16 (wbits (w (k / 4)) (16 * (k % 4)) 16)) }

/-- EFFSTEP of bank b. -/
def State.effStep (s : State) (b : Nat) : Nat := (s.reg .SCHED_PLACE_EFF b).toNat

/-- A bank is valid (R151). -/
def State.bankValid (s : State) (b : Nat) : Bool := s.effStep b ≠ 2 ^ 64 - 1

/-- The bank in force for a step (R151); of two with one EFFSTEP, bank 0 (log entry 28). -/
def State.placeBank (s : State) (step : Word) : Option Nat :=
  let ok (b : Nat) : Bool := s.bankValid b && decide (s.effStep b ≤ step.toNat)
  match ok 0, ok 1 with
  | true, true => if s.effStep 0 < s.effStep 1 then some 1 else some 0
  | true, false => some 0
  | false, true => some 1
  | false, false => none

/-- The replica of an in-capacity token (R154). -/
def replica (step : Word) (token n : Nat) : Nat :=
  let x : BitVec 32 := BitVec.ofNat 32 (wbits step 0 32 * 0x9E3779B1 + token * 0x85EBCA77)
  let x := x ^^^ (x >>> 15)
  let x := x * 0xC2B2AE3D#32
  let x := x ^^^ (x >>> 13)
  x.toNat % max 1 n

/-- The destination D(h) of expert e for a token. -/
def PEntry.dest (p : PEntry) (step : Word) (token : Nat) : Fnid := p.dests.getD (replica step token p.dests.length) 0

/-- The experts predicted after a previous top expert, once each (Table 5.6, R159). -/
def State.predicted (s : State) (d : XDesc) (prev : Nat) : List Nat :=
  let w := s.reg .SCHED_AFFIN (d.affbase + prev)
  ((List.range 4).filterMap (fun i => if wbits w (16 * i + 15) 1 = 1 then some (wbits w (16 * i) 9) else none)).eraseDups.filter (fun e => decide (e < d.nexp))

-- Combine (R164) -------------------------------------------------------------------------------------------------------------

/-- The combined block of expert outputs with their gates, and the numeric events (R50, R164). -/
def combinedOf (oF cF : Fmt) (outs : List (Block × Nat)) : OutBlock × Tal :=
  let ds := outs.map (fun o => (o.1.dec oF, fp32Dec o.2))
  let ps := ds.map (fun x => x.1.map (fun e => e.cls.mul x.2))
  let code := blockCode ps.flatten
  let evs := if code = 0xFF then [] else ps.map (fun l => l.map (fun v => v.enter (codeE code)))
  let sums := evs.foldl (fun l e => (l.zip e).map (fun (y : Bead × (Int × Tal)) => beadAdd y.1 y.2.1)) (rep 32 (0 : Bead))
  let (o, t) := blockOut cF code sums
  (o, ((Tal.sum ((ds.map Prod.fst).flatten.map Dec.tal)).add (Tal.sum (evs.flatten.map Prod.snd))).add t)

/-- As combinedOf, in the formats of a layer descriptor. -/
def combined (d : XDesc) (outs : List (Block × Nat)) : OutBlock × Tal := combinedOf d.oF d.cF outs

end Sys2Proof.Machine
end

