-- ==== Sys2Proof/Machine/Exp.lean ====
section
/-!
DEFINITION. Layer steps (R143 to R176): accepting activations, counts and expert outputs, routing, commitment and dispatch, staged copies, the
combine, and the end of a layer step.
-/
namespace Sys2Proof.Machine

open Sys2Proof

-- Layer steps -----------------------------------------------------------------------------------------------------------

/-- The layer step is the one of a descriptor and step. -/
def Layer.isFor (l : Layer) (di : Nat) (step : Word) : Bool := l.desc = di && l.step = step

/-- The open layer step of a descriptor and step. -/
def State.layerOf (s : State) (di : Nat) (step : Word) : Option Layer := s.exp.layers.find? (fun l => l.isFor di step)

/-- The open layer step of a LAYER and step. -/
def State.layerNo (s : State) (layer : Nat) (step : Word) : Option Layer := s.exp.layers.find? (fun l => l.layer = layer && l.step = step)

/-- Write a layer step back. -/
def State.putLayer (s : State) (l : Layer) : State :=
  let ls := s.exp.layers
  let ls := if ls.any (fun y => y.isFor l.desc l.step) then ls.map (fun y => if y.isFor l.desc l.step then l else y) else ls ++ [l]
  { s with exp := { s.exp with layers := ls } }

/-- A token of a layer step. -/
def Layer.tok (l : Layer) (owner : Fnid) (no : Nat) : Option Tok := l.toks.find? (fun t => t.owner = owner && t.no = no)

/-- Write a token back. -/
def Layer.putTok (l : Layer) (t : Tok) : Layer :=
  if l.toks.any (fun y => y.owner = t.owner && y.no = t.no) then
    { l with toks := l.toks.map (fun y => if y.owner = t.owner && y.no = t.no then t else y) }
  else { l with toks := l.toks ++ [t] }

/-- Change the load of an expert. -/
def Layer.modLoad (l : Layer) (e : Nat) (f : ExpLoad → ExpLoad) : Layer := { l with load := l.load.put {} e (f (l.load.lk {} e)) }

/-- Numeric events of the layer step are counted in its record and device-wide (R57, R59, R166). -/
def layTal (t : Tal) (l : Layer) (s : State) : Layer × State :=
  ({ l with tal := ((Tal.ofList l.tal).add t).toList }, addBeadTally t s)

/-- The owner of a frame of the layer step, for its delivery bound. -/
def Layer.leg (l : Layer) (owner : Fnid) (no k : Nat) : Owner := .leg l.layer l.step owner no k

/-- Everything that a leg's owner mark says of the layer step. -/
def Layer.owns (l : Layer) (o : Owner) : Bool :=
  match o with
  | .leg layer step _ _ _ => layer = l.layer && step = l.step
  | .none => false

/-- A DISP frame of the layer step to a node. -/
def Layer.hdr (l : Layer) (dst : Fnid) (index : Nat) (susp : Bool) (pre : DPre) (data : List Byte) : Hdr :=
  { kind := 4, vc := 4, dst := dst, h1 := h1Inst index l.layer, step := wbits l.step 0 32, susp := susp, payload := pre.bytes ++ data }

/-- A leg's measurement begins (R173). -/
def legMeas (l : Layer) (d : XDesc) (owner : Fnid) (no k closing tick : Nat) (s : State) : State :=
  if d.deadline = 0 then s
  else { s with coll := { s.coll with meas := s.coll.meas ++
    [{ inst := l.layer, step := l.step, slot := l.slot, own := l.leg owner no k, deadline := d.deadline, closing := closing,
       tick := tick, void := l.void, armed := true }] } }

/-- The bound of the layer step becomes void (R155). -/
def makeVoid (l : Layer) (s : State) : Layer × State :=
  if l.void then (l, s)
  else
    let s := { s with coll := { s.coll with meas := s.coll.meas.map (fun (m : Meas) => if l.owns m.own then { m with void := true } else m) } }
    ({ l with void := true }, s.bump F.SCHED_EXP_EVT_VOIDSTEP 0)

-- Staged copies (R159, R160) -----------------------------------------------------------------------------------------------

/-- A staged copy is squashed: its queue entries are removed, its cells and references released. -/
def squash (c : Staged) (l : Layer) (s : State) : Layer × State :=
  let s := eachDo c.bufs (fun i s => unref i 1 (s.setQueue c.port 21 (((s.port c.port).queue 21).drop i))) s
  ({ l with squash := l.squash + 1 }, s.bump F.SCHED_EXP_SQ_SQUASH 0)

/-- Every staged copy of a token that satisfies p is squashed. -/
def squashTok (p : Staged → Bool) (t : Tok) (l : Layer) (s : State) : Layer × State :=
  let (l, s) := (t.staged.filter p).foldl (fun (a : Layer × State) c => squash c a.1 a.2) (l, s)
  (l.putTok { t with staged := t.staged.filter (fun c => !p c) }, s)

/-- Every staged copy of the layer step that satisfies p is squashed. -/
def squashAll (p : Staged → Bool) (l : Layer) (s : State) : Layer × State :=
  l.toks.foldl (fun (a : Layer × State) t => squashTok p t a.1 a.2) (l, s)

/-- A staged copy is released in place: its frames lose SPEC and become eligible. To a fenced destination they are discarded and counted (R332). -/
def release (c : Staged) (l : Layer) (s : State) : Layer × State :=
  let x := (s.port c.port).queue 21
  let shut := s.fencing (fun n => n = c.dst)
  let s := s.bump F.SCHED_EXP_SPEC_HIT 0
  let l := { l with hit := l.hit + 1 }
  if shut ≠ [] then (l, eachDo c.bufs (fun i s => unref i 1 (fenceCount shut (s.setQueue c.port 21 (((s.port c.port).queue 21).drop i)))) s)
  else
    let x := if x.live = [] then s.wakeQueue c.port 21 x else x
    let s := s.setQueue c.port 21 { x with ents := x.ents.map (fun e => if c.bufs.contains e.buf then { e with staged := false } else e) }
    let s := eachDo c.bufs (fun i s => match s.buf i with
      | some b => s.setBuf i (some { b with frame := b.frame.setSpec false })
      | none => s) s
    (l, kaLeave c.port s)

/-- The parts of a token's activation as EXPIN frames carry them (R112). -/
def expinParts (d : XDesc) (t : Tok) : List (Nat × Nat × List Byte) := dispParts d.rF 4088 (t.blocks d)

/-- An EXPIN frame. -/
def expinHdr (l : Layer) (t : Tok) (e : Nat) (dst : Fnid) (x : Nat × Nat × List Byte) : Hdr :=
  l.hdr dst t.no false ⟨t.owner, e, x.1, x.2.1, 3⟩ x.2.2

/-- A token's EXPIN frames for a predicted expert are staged on a port's queue, in cells of SPART; none where SPART cannot hold them. -/
def stageFrames (l : Layer) (d : XDesc) (t : Tok) (e p : Nat) (dst : Fnid) (xs : List (Nat × Nat × List Byte)) (s : State) :
    Option (List Nat × State) :=
  match xs with
  | [] => some ([], s)
  | x :: rest =>
    let f := (s.form (expinHdr l t e dst x)).setSpec true
    match partTake d.spart 0 (cellsOf f.len) s with
    | none => none
    | some (held, s) =>
      match actRef t.actBuf s with
      | none => none
      | some (a, s) =>
        let (i, s) := store { frame := f, charge := .part d.spart held, die := p / 32, rset := d.rset, own := l.leg t.owner t.no 0, act := a } s
        match stageFrames l d t e p dst rest (enqueueAt p i true s) with
        | none => none
        | some (is, s) => some (i :: is, s)

/-- Speculative copies of a token whose activation is complete (R159). -/
def stageTok (t : Tok) (l : Layer) (s : State) : Layer × State :=
  let d := s.xdesc l.desc
  match (if d.spec then s.exp.kept.find? (fun k => k.desc = d.prevdesc && k.step = l.step && k.owner = t.owner && k.no = t.no) else none),
      s.placeBank l.step with
  | some k, some b =>
    (s.predicted d k.expert).foldl (fun (a : Layer × State) e =>
      let (l, s) := a
      let dst := (s.placeEntry b (d.plbase + e)).dest l.step t.no
      match s.portOf dst with
      | none => a
      | some p =>
        match stageFrames l d t e p dst (expinParts d t) s with
        | none => ({ l with nostage := l.nostage + 1 }, s.bump F.SCHED_EXP_SQ_NOSTAGE 0)
        | some (is, s) =>
          let c : Staged := { expert := e, dst := dst, port := p, bufs := is }
          if s.portQuar p then squash c l s
          else
            let t := (l.tok t.owner t.no).getD t
            (l.putTok { t with staged := t.staged ++ [c] }, s)) (l, s)
  | _, _ => (l, s)

-- Router weights and biases (R145) --------------------------------------------------------------------------------------

/-- The core and the span of its Rod memory that a watched span of switch offsets names. -/
def watchOf (w : Nat × Nat) : Option (Nat × (Nat × Nat)) :=
  match placeOf w.1 with
  | .rod c a => some (c, (a, w.2))
  | _ => none

/-- A watched span of Rod memory has been written. -/
def State.spoilt (s : State) (w : Nat × Nat) : Bool :=
  match watchOf w with
  | some (c, x) => (s.core c).share.spoilt.contains x
  | none => false

/-- Once the router weights or biases have been written while the layer step is open, its results and those of every later layer step of its descriptor are
open (R145, log entry 45). -/
def weighed (l : Layer) (s : State) : Layer × State :=
  if l.undef || !l.weights.any s.spoilt then (l, s)
  else ({ l with undef := true }, { s with exp := { s.exp with tainted := s.exp.tainted ++ [l.desc] } })

/-- Writes to the spans that an opened layer step reads are noted from now on (R145). -/
def watchLayer (l : Layer) (s : State) : State :=
  eachDo (l.weights.filterMap watchOf) (fun x s => s.modCore x.1 (fun k =>
    { k with share := { k.share with watch := if k.share.watch.contains x.2 then k.share.watch else k.share.watch ++ [x.2] } })) s

/-- Writes to the spans of a closed layer step are noted no more, but for those that another open layer step reads. -/
def unwatchLayer (l : Layer) (s : State) : State :=
  let others := (s.exp.layers.filter (fun y => !y.isFor l.desc l.step)).flatMap Layer.weights
  eachDo ((l.weights.filter (fun w => !others.contains w)).filterMap watchOf) (fun x s => s.modCore x.1 (fun k =>
    { k with share := { k.share with watch := k.share.watch.filter (· ≠ x.2), spoilt := k.share.spoilt.filter (· ≠ x.2) } })) s

-- The combine map (R165) ----------------------------------------------------------------------------------------------------

/-- Another open layer step than l holds entry e of the combine map: layer steps of one descriptor share its entries (R165). -/
def State.entryBusy (s : State) (l : Layer) (e : Nat) : Bool :=
  s.exp.layers.any (fun y => !y.isFor l.desc l.step && y.busy.any (fun b => (s.xdesc y.desc).cmbase + b.entry = e))

/-- Ready blocks take the lowest-numbered free entries of the combine map (R165). -/
def takeEntries (n : Nat) (l : Layer) (s : State) : Layer × State :=
  match n with
  | 0 => (l, s)
  | n + 1 =>
    let d := s.xdesc l.desc
    match l.ready, (List.range d.cmcount).find? (fun k => !l.busy.any (fun y => y.entry = k) && !s.entryBusy l (d.cmbase + k)) with
    | r :: t, some k =>
      let c := s.mapCore (d.cmbase + k)
      takeEntries n { l with ready := t, busy := l.busy ++ [{ entry := k, owner := r.1, no := r.2.1, blk := r.2.2, susp := (s.core c).quar }] }
        (s.wakeIsland (c / 4))
    | _, _ => (l, s)

/-- Entries came free: the ready blocks of every open layer step take them, those of the layer step that opened first before the others (DESIGN CHOICE, log
entry 148). -/
def shareEntries (s : State) : State :=
  eachDo s.exp.layers (fun l s =>
    let (l, s) := takeEntries l.ready.length l s
    s.putLayer l) s

-- The end of a layer step (R167 to R171, R175) -----------------------------------------------------------------------------------

/-- Destinations that owe output of a layer step. -/
def Layer.owing (l : Layer) (d : XDesc) (own : Fnid) : List Fnid :=
  (l.toks.filter (fun t => t.committed && !t.sent && !t.bad)).flatMap (fun t =>
    t.paths.filterMap (fun x =>
      if (t.outs.filter (fun o => o.1 = x.1)).length < d.hblk then some (x.2.getD own) else none))

/-- Quarantined parties of a layer step: owners without LSTATUS, and chosen destinations that owe output (R169). A layer step awaits an owner until it has
been told its LSTATUS (DESIGN CHOICE, log entry 147). -/
def State.quarParties (s : State) (l : Layer) (d : XDesc) : List Fnid :=
  ((s.owners d).filter (fun o => !l.told.contains o) ++ l.owing d s.net.fnid).filter s.fnidQuar

/-- MISSFNID of Table 5.9. -/
def State.missFnid (s : State) (l : Layer) (d : XDesc) (code : Nat) : Nat :=
  if code = 0 then 0xFFFF
  else
    let q := (s.quarParties l d).map BitVec.toNat
    let w := ((l.owing d s.net.fnid).filter (fun n => n ≠ s.net.fnid)).map BitVec.toNat
    (if q ≠ [] then q else w).foldl min 0xFFFF

/-- Tokens of an owner whose COMBINED frames were sent. -/
def Layer.nsent (l : Layer) (o : Fnid) : Nat := (l.toks.filter (fun t => t.owner = o && t.sent)).length

/-- The LSTATUS status word for an owner (Table 5.9); for a CANCEL, of no owner. -/
def State.lstatusWord (s : State) (l : Layer) (d : XDesc) (code : Nat) (o : Option Fnid) : Word :=
  let b (v : Bool) : Nat := if v then 1 else 0
  let ntok := match o with
    | some o => l.nsent o
    | none => 0
  let hit (p : Fnid → Bool) : Bool := match o with
    | some o => p o
    | none => false
  mkWord [(ntok, 32), (s.missFnid l d code, 16), (code, 8), (b l.void, 2),
    (b (hit (fun o => s.exp.breached.contains (l.layer, l.step, o))), 1),
    (b (hit (fun o => l.suspOwners.contains o) || s.bit F.GLOBAL_HOLD_INHOLD 0), 0)]

/-- An owner's LSTATUS (R167). -/
def sendLstatus (code : Nat) (o : Fnid) (l : Layer) (s : State) : Layer × State :=
  let d := s.xdesc l.desc
  let (l, s) := weighed l s
  let data := bytesLE 8 (s.lstatusWord l d code (some o)).toNat ++ (Tal.ofList l.tal).record
  let n := data.length
  let (data, s) := if l.undef then (s.freeBytes n, { s with free := s.free + n }) else (data, s)
  -- the leg runs from the owner's last COMBINED to leave; one that is still to leave sets it anew (R173)
  let (bit, tick) := (l.combOut.lookup o).getD (s.bclk, s.now)
  let s := if 0 < l.nsent o then legMeas l d o 0 2 bit tick s else s
  let h := l.hdr o countIndex false ⟨o, 0, 0, 0, 7⟩ data
  ({ l with told := l.told ++ [o] }, formSend { line := .part d.cpart, rset := d.rset, frame := s.form h, own := l.leg o 0 2 } s)

/-- Experts that no token reached by any path (R157). -/
def Layer.unused (l : Layer) (d : XDesc) : Nat :=
  ((List.range d.nexp).filter (fun e => let x := l.load.lk {} e; x.disp = 0 && x.ovLocal = 0 && x.ovHome = 0)).length

/-- The load record (Table 5.11): every expert entry first, the header last. -/
def loadRecord (l : Layer) (d : XDesc) (code : Nat) (s : State) : State :=
  let a := d.loadaddr + l.step.toNat % 2 * 0x4000
  let ent (e : Nat) : List Word :=
    let x := l.load.lk {} e
    [mkWord [(min x.disp (2 ^ 32 - 1), 32), (min x.routed (2 ^ 32 - 1), 0)], mkWord [(min x.ovHome (2 ^ 32 - 1), 32), (min x.ovLocal (2 ^ 32 - 1), 0)]]
  let routed := (l.toks.filter (fun t => t.routed)).length
  let s := windowWr (a + 64) (wordsToBytes ((List.range d.nexp).flatMap ent)) s
  windowWr a (wordsToBytes [mkWord [(l.layer, 32)], l.step, mkWord [(routed, 32), (l.unused d, 16), (code, 0)], mkWord [(l.hit, 32), (l.miss, 0)],
    mkWord [(l.squash, 32), (l.nostage, 0)], 0, 0, 0]) s

/-- The owner's ACT frames up to a token's have all arrived: no predecessor of it is missing (R155, log entry 131). -/
def Layer.arrived (l : Layer) (d : XDesc) (t : Tok) : Bool :=
  (List.range t.no).all (fun i => (l.tok t.owner i).any (fun y => y.routed || y.bad || y.act.length = d.hblk))

/-- Credits that were withheld while a predecessor was missing return (R155). -/
def payOwes (l : Layer) (s : State) : Layer × State :=
  let d := s.xdesc l.desc
  let due (t : Tok) : Bool := t.owes ≠ [] && l.arrived d t
  ({ l with toks := l.toks.map (fun t => if due t then { t with owes := [] } else t) },
    eachDo (l.toks.filter due) (fun t s => eachDo t.owes repay s) s)

/-- The buffers of a token are freed (R165, R170, R262), and credits still withheld return. -/
def freeTok (d : XDesc) (t : Tok) (s : State) : State :=
  let s := eachDo t.owes repay s
  let s := match t.actBuf with
    | some j => unref j 1 s
    | none => s
  eachDo t.outHeld (fun x s => partFree d.cpart x.2 s) s

/-- The frame is one of the layer step's. -/
def Layer.has (l : Layer) (f : Frame) : Bool := f.inst = l.layer && f.step = wbits l.step 0 32

/-- The layer step leaves the unit: its copies are squashed, its buffers freed, its combine Beads cleared, frames for it that wait here discarded as LATE
(R165, R170, R223). Where it did not complete, no further EXPIN of it leaves and nothing further is offered to an overflow core; COMBINED frames that are
formed still leave, since no token is delivered in part (R170). -/
def closeLayer (failed : Bool) (l : Layer) (s : State) : Layer × State :=
  let d := s.xdesc l.desc
  let (l, s) := weighed l s
  let (l, s) := squashAll (fun _ => true) l s
  let s := eachDo l.busy (fun y s => clearBlock (s.beadBlock (d.cmbase + y.entry)) s) s
  let s := endWaiting (fun f => f.kind = 4 && l.has f) F.SCHED_EXP_DROP_LATE 0 s
  let mine (x : Formed) : Bool := failed && ((x.only.isSome && l.has x.frame) || (l.owns x.own && (match x.own with
    | .leg _ _ _ _ k => k = 0
    | .none => false)))
  let s := { s with net := { s.net with formed := s.net.formed.filter (fun x => !mine x) } }
  let s := unwatchLayer l (eachDo l.toks (freeTok d) s)
  (l, shareEntries { s with exp := { s.exp with
    layers := s.exp.layers.filter (fun y => !y.isFor l.desc l.step), ended := s.exp.ended ++ [(l.desc, l.step)],
    breached := s.exp.breached.filter (fun x => !(x.1 = l.layer && x.2.1 = l.step)) } })

/-- Frames offered to an overflow core and not taken are dropped (R170). -/
def dropOffers (l : Layer) (s : State) : State :=
  let mine (i : Nat) : Bool := match s.buf i with
    | some b => b.only ≠ none && l.has b.frame
    | none => false
  let gone := s.net.unmatched.filter mine
  eachDo gone discard { s with net := { s.net with unmatched := s.net.unmatched.filter (fun i => !mine i) } }

/-- Measurements of the layer step that wait for no frame any more end without result. -/
def dropMeas (l : Layer) (s : State) : State :=
  measSettle { s with coll := { s.coll with meas := s.coll.meas.filter (fun m => !l.owns m.own || s.measOpen m) } }

/-- The layer step ends COMPLETE (R167). -/
def layerOk (l : Layer) (s : State) : State :=
  let d := s.xdesc l.desc
  let (l, s) := closeLayer false l s
  (loadRecord l d 0 s).bump F.SCHED_EXP_END_COMPLETE 0

/-- The layer step ends with a code other than COMPLETE (R170). -/
def layerFail (code : Nat) (l : Layer) (s : State) : State :=
  let d := s.xdesc l.desc
  let (l, s) := ((s.owners d).filter (fun o => !l.told.contains o)).foldl (fun (a : Layer × State) o => sendLstatus code o a.1 a.2) (l, s)
  let w := s.lstatusWord l d code none
  let s := eachDo l.dests (fun n s =>
    let h : Hdr := { kind := 6, vc := 4, dst := n, h1 := h1Inst countIndex l.layer, step := wbits l.step 0 32, payload := bytesLE 8 w.toNat }
    formSend { line := .part d.cpart, rset := d.rset, frame := s.form h } s) s
  let (l, s) := closeLayer true l s
  let s := loadRecord l d code (dropMeas l (dropOffers l s))
  s.bump (if code = 1 || code = 2 then F.SCHED_EXP_END_FAIL else F.SCHED_EXP_END_OTHER) 0

/-- A token that an owner announced is over: its COMBINED frames have been formed, or an ECC error struck it. -/
def Layer.tokOver (l : Layer) (o : Fnid) (no : Nat) : Bool :=
  match l.tok o no with
  | some t => t.sent || t.bad
  | none => false

/-- The tokens an owner announced. -/
def Layer.announced (l : Layer) (o : Fnid) : Option Nat := (l.tends.find? (fun x => x.1 = o)).map Prod.snd

/-- Owners whose tokens have all been delivered get their LSTATUS; the layer step ends where nothing is left to do (R167, R169). -/
def layerCheck (l : Layer) (s : State) : State :=
  let d := s.xdesc l.desc
  let all (p : Fnid → Nat → Bool) (o : Fnid) : Bool := match l.announced o with
    | some n => (List.range n).all (p o)
    | none => false
  let sent (o : Fnid) (no : Nat) : Bool := match l.tok o no with
    | some t => t.sent
    | none => false
  let due := (s.owners d).filter (fun o => !l.told.contains o && all sent o)
  let (l, s) := due.foldl (fun (a : Layer × State) o => sendLstatus 0 o a.1 a.2) (l, s)
  if l.dcounts && (s.owners d).all (fun o => l.told.contains o) then layerOk l s
  else if l.hwerr && l.dcounts && (s.owners d).all (fun o => l.told.contains o || all l.tokOver o) then layerFail 4 l s
  else s.putLayer l

-- Commit and dispatch (R154 to R157, R161, R163) --------------------------------------------------------------------------------

/-- A token's EXPIN frames for expert e go to a destination. -/
def sendExpin (t : Tok) (e : Nat) (dst : Fnid) (l : Layer) (s : State) : State :=
  let d := s.xdesc l.desc
  eachDo (expinParts d t) (fun x s =>
    formSend { line := .part d.cpart, rset := d.rset, frame := s.form (expinHdr l t e dst x), own := l.leg t.owner t.no 0, act := t.actBuf } s) s

/-- A frame is offered to an overflow core alone (R163), in cells of CPART (R261). -/
def offerCore (d : XDesc) (c : Nat) (h : Hdr) (act : Option Nat) (s : State) : State :=
  formSend { line := .part d.cpart, rset := d.rset, frame := s.form h, act := act, only := some c } s

/-- H1's index of the n-th local overflow for expert e, part j; n = 0x7FFFF stands for the DCOUNT's j = 15. -/
def localIndex (e n j : Nat) : Nat := e * 2 ^ 23 + 16 * n + j

/-- A token's LOCIN frames for expert e are offered (R163). -/
def sendLocin (t : Tok) (e n core : Nat) (l : Layer) (s : State) : State :=
  let d := s.xdesc l.desc
  let xs := dispParts d.rF 4080 (t.blocks d)
  eachDo (List.range xs.length) (fun j s =>
    match xs[j]? with
    | none => s
    | some x =>
      let word := bytesLE 8 ((t.no % 2 ^ 32) <<< 32 + n)
      offerCore d core (l.hdr s.net.fnid (localIndex e n j) false ⟨t.owner, e, x.1, x.2.1, 8⟩ (word ++ x.2.2)) t.actBuf s) s

/-- Tokens sent for an expert to a destination, one more. -/
def Layer.sentOne (l : Layer) (e : Nat) (n : Fnid) : Layer :=
  let same (x : Nat × Fnid × Nat) : Bool := x.1 = e && x.2.1 = n
  { l with
    sentTo := if l.sentTo.any same then l.sentTo.map (fun x => if same x then (x.1, x.2.1, x.2.2 + 1) else x) else l.sentTo ++ [(e, n, 1)],
    dests := if l.dests.contains n then l.dests else l.dests ++ [n] }

/-- How expert e of a token is served (R155, R163). -/
inductive Route where
  | cap (n : Fnid)
  | loc (core : Nat)
  | home (n : Fnid)
deriving DecidableEq, Repr

/-- The owner's tokens already committed to e. -/
def Layer.ownerCount (l : Layer) (o : Fnid) (e : Nat) : Nat :=
  (l.toks.filter (fun t => t.owner = o && t.committed && t.paths.any (fun x => x.1 = e))).length

/-- R155: in capacity, local overflow, or overflow to D0. -/
def State.routeFor (s : State) (l : Layer) (d : XDesc) (b : Nat) (t : Tok) (e : Nat) : Route :=
  let p := s.placeEntry b (d.plbase + e)
  if p.cap = 0xFFFF || l.ownerCount t.owner e < p.cap then .cap (p.dest l.step t.no)
  else if p.ovf && decide ((l.load.lk {} e).ovLocal ≤ 524286) then .loc p.ovcore
  else .home (p.dests.getD 0 0)

/-- One selected expert of a token is dispatched; a staged copy of it is released or squashed (R155, R160, R161, R163). -/
def dispatch (no : Nat) (o : Fnid) (e : Nat) (r : Route) (l : Layer) (s : State) : Layer × State :=
  match l.tok o no with
  | none => (l, s)
  | some t =>
    let staged := t.staged.find? (fun c => c.expert = e)
    match r with
    | .cap n =>
      let l := (l.modLoad e (fun x => { x with disp := x.disp + 1 })).sentOne e n
      match s.portOf n, staged with
      | some p, some c =>
        if c.dst = n && c.port = p then
          let l := l.putTok { t with staged := t.staged.filter (fun c => c.expert ≠ e) }
          release c l s
        else (l, sendExpin t e n { l with miss := l.miss + 1 } (s.bump F.SCHED_EXP_SPEC_MISS 0))
      | some _, none => ({ l with miss := l.miss + 1 }, sendExpin t e n l (s.bump F.SCHED_EXP_SPEC_MISS 0))
      | none, _ => (l, sendExpin t e n l s)
    | .loc core =>
      let n := (l.load.lk {} e).ovLocal
      let s := s.bumpN F.SCHED_EXP_SQ_SQCAP 0 (if staged.isSome then 1 else 0)
      let (l, s) := squashTok (fun c => c.expert = e) t l s
      let l := l.modLoad e (fun x => { x with ovLocal := x.ovLocal + 1 })
      (l, sendLocin t e n core l (s.bump F.SCHED_EXP_TOK_OVLOCAL 0))
    | .home n =>
      let s := s.bumpN F.SCHED_EXP_SQ_SQCAP 0 (if staged.isSome then 1 else 0)
      let (l, s) := squashTok (fun c => c.expert = e) t l s
      let l := (l.modLoad e (fun x => { x with ovHome := x.ovHome + 1 })).sentOne e n
      let (l, s) := makeVoid l s
      (l, sendExpin t e n l (s.bump F.SCHED_EXP_TOK_OVHOME 0))

/-- The next token of an owner is committed (R155). Answers whether the layer step must end because a destination is quarantined. -/
def commitTok (b : Nat) (t : Tok) (l : Layer) (s : State) : Bool × Layer × State :=
  let d := s.xdesc l.desc
  let rs := t.sel.map (fun x => (x.1, s.routeFor l d b t x.1))
  let node (r : Route) : Option Fnid := match r with
    | .cap n => some n
    | .home n => some n
    | .loc _ => none
  let t := { t with committed := true, paths := rs.map (fun x => (x.1, node x.2)) }
  let l := l.putTok t
  if rs.any (fun x => (node x.2).any s.fnidQuar) then (true, l, s)
  else
    let (l, s) := squashTok (fun c => !rs.any (fun x => x.1 = c.expert)) t l s
    let (l, s) := rs.foldl (fun (a : Layer × State) x => dispatch t.no t.owner x.1 x.2 a.1 a.2) (l, s)
    let s := if rs.any (fun x => (node x.2).isSome) then legMeas l d t.owner t.no 0 t.actBit t.actTick s else s
    (false, l, s)

/-- An owner's tokens are committed in index order as far as they are routed; n bounds them (R155). -/
def commitOwner (b : Nat) (o : Fnid) (no n : Nat) (l : Layer) (s : State) : Bool × Layer × State :=
  match n with
  | 0 => (false, l, s)
  | n + 1 =>
    match l.tok o no with
    | none => (false, l, s)
    | some t =>
      if t.committed || t.bad then commitOwner b o (no + 1) n l s
      else if !t.routed then (false, l, s)
      else
        let (bad, l, s) := commitTok b t l s
        if bad then (true, l, s) else commitOwner b o (no + 1) n l s

/-- R157: every TEND accepted and every announced token committed. -/
def Layer.counted (l : Layer) (owners : List Fnid) : Bool :=
  owners.all (fun o => match l.announced o with
    | some n => (List.range n).all (fun i => (l.tok o i).any (fun t => t.committed || t.bad))
    | none => false)

/-- The DCOUNT frames of a layer step (R157, R163). A node that stands more than once among the destinations of an entry gets one (DESIGN CHOICE, log
entry 132). -/
def sendDcounts (b : Nat) (l : Layer) (s : State) : Layer × State :=
  let d := s.xdesc l.desc
  let one (a : Layer × State) (e : Nat) : Layer × State :=
    let (l, s) := a
    let p := s.placeEntry b (d.plbase + e)
    let (l, s) := p.dests.eraseDups.foldl (fun (a : Layer × State) n =>
      let (l, s) := a
      let c := ((l.sentTo.find? (fun x => x.1 = e && x.2.1 = n)).map (fun x => x.2.2)).getD 0
      let h := l.hdr n countIndex false ⟨0, e, 0, 0, 4⟩ (bytesLE 8 c)
      ({ l with dests := if l.dests.contains n then l.dests else l.dests ++ [n] },
        formSend { line := .part d.cpart, rset := d.rset, frame := s.form h } s)) (l, s)
    if p.ovf then
      (l, offerCore d p.ovcore (l.hdr s.net.fnid (localIndex e 0x7FFFF 15) false ⟨0, e, 0, 0, 4⟩ (bytesLE 8 (l.load.lk {} e).ovLocal)) none s)
    else (l, s)
  let (l, s) := (List.range d.nexp).foldl one (l, s)
  ({ l with dcounts := true }, s.bumpN F.SCHED_EXP_EVT_ZEROEXP 0 (l.unused d))

/-- Whatever may be committed, counted, told or ended now happens. In a HOLD nothing is committed (R172). -/
def layerAdvance (l : Layer) (s : State) : State :=
  let d := s.xdesc l.desc
  match s.placeBank l.step with
  | none => layerCheck l s
  | some b =>
    let (bad, l, s) := if s.bit F.GLOBAL_HOLD_INHOLD 0 then (false, l, s) else (s.owners d).foldl (fun (a : Bool × Layer × State) o =>
      if a.1 then a else commitOwner b o 0 (a.2.1.toks.length + 1) a.2.1 a.2.2) (false, l, s)
    if bad then layerFail 2 l s
    else
      let (l, s) := if !l.dcounts && l.counted (s.owners d) then sendDcounts b l s else (l, s)
      layerCheck l s

-- Acceptance (R146) ---------------------------------------------------------------------------------------------------------------

/-- What R146 says of a DISP frame. -/
inductive XGate where
  | frecv
  | drop (fld : Fld)
  | pass (slot di : Nat) (step : Word)
deriving DecidableEq, Repr

/-- DKIND is one the switch accepts, and the length agrees with NBLK and the format. Blocks beyond HBLK disagree with the form (DESIGN CHOICE, log
entry 132). An ACT or EXPOUT frame with NBLK 0 is accepted; an EXPOUT one takes an output buffer (DESIGN CHOICE, log entry 44). -/
def dispForm (d : XDesc) (f : Frame) : Bool :=
  let p := f.dpre
  let blocks (F : Fmt) : Bool := p.fblk + p.nblk ≤ d.hblk && (match blocksLen F p.fblk p.nblk with
    | some n => f.data.length = n
    | none => false)
  match p.dkind with
  | 1 => blocks d.rF
  | 2 => p.nblk = 0 && f.data.length = 8
  | 5 => blocks d.oF
  | _ => false

/-- The blocks a frame carries. -/
def dispBlks (f : Frame) : List Nat := (List.range f.dpre.nblk).map (· + f.dpre.fblk)

/-- The token chose EXPERT and was dispatched to SRC, or overflowed to the local replica (R146). -/
def State.expoutOk (s : State) (l : Layer) (f : Frame) : Bool :=
  match l.tok f.dpre.owner f.index with
  | none => false
  | some t => t.paths.any (fun x => x.1 = f.dpre.expert && (match x.2 with
    | some n => n = f.src
    | none => s.isOwn f.src))

/-- The frame repeats what was accepted. -/
def Layer.dup (l : Layer) (f : Frame) : Bool :=
  let p := f.dpre
  match p.dkind with
  | 2 => (l.announced p.owner).isSome
  | k => match l.tok p.owner f.index with
    | none => false
    | some t =>
      if k = 1 then (dispBlks f).any (fun b => t.routed || t.act.any (fun x => x.1 = b))
      else (dispBlks f).any (fun b => t.sent || t.outs.any (fun x => x.1 = p.expert && x.2.1 = b))

/-- R146 in the order of its list (log entry 29 on outputs of ended layer steps). -/
def State.xgate (s : State) (f : Frame) : XGate :=
  match s.findLayer f.inst with
  | none => .frecv
  | some (slot, di) =>
    let d := s.xdesc di
    let p := f.dpre
    let step := s.stepFor slot f.step
    let late : Bool := match step with
      | none => true
      | some st => s.exp.ended.contains (di, st)
    let lay := step.bind (s.layerOf di)
    let stray : XGate := .drop F.SCHED_EXP_DROP_STRAY
    if !dispForm d f then stray
    else if p.dkind ≠ 5 && !((s.owners d).contains f.src && p.owner = f.src) then stray
    else if p.dkind = 5 && late then .drop F.SCHED_EXP_DROP_LATE
    else if p.dkind = 5 && !lay.any (fun l => s.expoutOk l f) then stray
    else if p.dkind ≠ 2 && lay.any (fun l => (l.announced p.owner).any (fun n => decide (n ≤ f.index))) then stray
    else if late then .drop F.SCHED_EXP_DROP_LATE
    else if lay.any (fun l => l.dup f) then .drop F.SCHED_EXP_DROP_DUP
    else match step with
      | some st => .pass slot di st
      | none => stray

/-- The layer step, opened where this is its first frame. -/
def State.openLayer (s : State) (slot di : Nat) (step : Word) : Layer :=
  match s.layerOf di step with
  | some l => l
  | none => { desc := di, slot := slot, layer := (s.xdesc di).layer, step := step, undef := s.exp.tainted.contains di,
              weights := [(s.xdesc di).routerSpan] }

/-- The step has been released: it lies before the counter, or the counter stands at it and its release has come (R151, R306). -/
def State.released (s : State) (slot : Nat) (step : Word) : Bool :=
  let n := s.brewStep slot
  decide (step.toNat < n.toNat) || (step = n && (match s.brews.lk none slot with
    | some b => !b.armed
    | none => true))

/-- No bank is in force for a step that has been released (R151). -/
def State.noBank (s : State) (slot : Nat) (step : Word) : Bool := s.placeBank step = none && s.released slot step

/-- A frame of a layer step is discarded and counted, offered to FRECV, or accepted by body, which may have to wait. -/
def xTake (i : Nat) (f : Frame) (body : Layer → XDesc → State → Option State) (s : State) : Option State :=
  match s.xgate f with
  | .frecv => some (offerFrecv i s)
  | .drop fld => some (discard i (s.bump fld 0))
  | .pass slot di step =>
    let l := s.openLayer slot di step
    if s.noBank slot step then
      match partPass (s.xdesc di).cpart i s with
      | none => none
      | some s => some (layerFail 5 l s)
    else body l (s.xdesc di) (if (s.layerOf di step).isSome then s else watchLayer l s)

/-- A DISP frame starts to wait for its partition (R261). -/
def expWait (i : Nat) (f : Frame) (s : State) : State :=
  match s.findLayer f.inst with
  | none => s
  | some (_, di) => countWait i (s.xdesc di).cpart s

/-- The row of some DKINDs. -/
def expUnit (dk : Nat → Bool) (use : Nat → Frame → State → Option State) : Unit :=
  { takes := fun f _ => f.kind = 4 && dk f.dpre.dkind, bad := fun _ s => s.bump F.SCHED_EXP_DROP_CRCDROP 0, use := use, wait := expWait }

/-- When the last bit of stored frame i arrived: on the delivery-bound clock, and in ticks. A local frame arrives at its acceptance. -/
def State.lastBitOf (s : State) (i : Nat) : Nat × Nat :=
  match s.buf i with
  | some b => if b.inPort = none then (s.bclk, s.now) else (b.bound, b.since)
  | none => (s.bclk, s.now)

/-- A stored frame's credits are kept back; they are answered. -/
def keepOwe (i : Nat) (s : State) : List Owe × State :=
  match s.buf i with
  | none => ([], s)
  | some b => (b.owe.toList, s.setBuf i (some { b with owe := none }))

/-- Activation blocks of a token are accepted (R156). While a predecessor of the token is missing, the frame's credits are withheld (R155). -/
def actUse (i : Nat) (f : Frame) (s : State) : Option State :=
  xTake i f (fun l d s =>
    let p := f.dpre
    let t := (l.tok p.owner f.index).getD { owner := p.owner, no := f.index }
    let (bit, tick) := s.lastBitOf i
    let took : Option (Tok × State) := match t.actBuf with
      | some _ => some (t, s)
      | none =>
        match partTake d.cpart (poolFor (d.rF.tensorBytes (32 * d.hblk))) 1 s with
        | none => none
        | some (held, s) =>
          let (j, s) := store { frame := default, charge := .part d.cpart held, die := s.partDie d.cpart } s
          some ({ t with actBuf := some j }, s)
    match took with
    | none => none
    | some (t, s) =>
      let (owes, s) := if l.arrived d t then ([], s) else keepOwe i s
      match partPass d.cpart i s with
      | none => none
      | some s =>
        let t := { t with
          owes := t.owes ++ owes,
          act := t.act ++ (List.range p.nblk).map (fun j => (p.fblk + j, blockAt d.rF f.data j)),
          actBit := max t.actBit bit, actTick := max t.actTick tick }
        let (l, s) := payOwes (l.putTok t) s
        if p.nblk ≠ 0 && t.act.length = d.hblk then
          let s := eachDo (s.routerCores d) (fun c s => s.wakeIsland (c / 4)) s
          let (l, s) := stageTok ((l.tok t.owner t.no).getD t) l s
          some (s.putLayer l)
        else some (s.putLayer l)) s

/-- ACT_RX (R146). DISP frames with another DKIND that the switch does not accept belong here too. -/
def execActRx (f : Src) (s : State) : Host.Outcome State Fault Refusal :=
  consume (expUnit (fun k => k ≠ 2 && k ≠ 5) actUse) f s

/-- An owner's token count is accepted. -/
def tendUse (i : Nat) (f : Frame) (s : State) : Option State :=
  xTake i f (fun l d s =>
    match partPass d.cpart i s with
    | none => none
    | some s => some (layerAdvance { l with tends := l.tends ++ [(f.dpre.owner, leAt f.data 0 4)] } s)) s

/-- TEND_RX (R146). -/
def execTendRx (f : Src) (s : State) : Host.Outcome State Fault Refusal := consume (expUnit (fun k => k = 2) tendUse) f s

-- Routing ----------------------------------------------------------------------------------------------------------------------------

/-- A token waits to be routed. -/
def tokReady (d : XDesc) (t : Tok) : Bool := !t.routed && !t.bad && t.act.length = d.hblk

/-- Some layer of the Brew predicts from this one (R159). -/
def State.feeds (s : State) (l : Layer) : Bool :=
  match s.brews.lk none l.slot with
  | none => false
  | some b => (List.range (b.claim 1).2).any (fun i => let d := s.xdesc ((b.claim 1).1 + i); d.spec && d.prevdesc = l.desc)

/-- A batch of tokens has been routed (R147 to R150). -/
def routeBatch (ts : List Tok) (l : Layer) (s : State) : Layer × State :=
  let d := s.xdesc l.desc
  let (l, s) := weighed l s
  let rowsD := (List.range d.nexp).map (s.routerRow d)
  let rows := rowsD.map (fun r => r.map Dec.cls)
  let bs := if d.bias then (List.range d.nexp).map (s.routerBias d) else []
  let (l, s) := layTal (Tal.sum (rowsD.flatten.map Dec.tal)) l s
  ts.foldl (fun (a : Layer × State) t =>
    let (l, s) := a
    let r := routeTok d rows bs t
    let (l, s) := layTal r.tal l s
    let s := (s.bump F.SCHED_EXP_TOK_ROUTED 0).when r.nan (fun s => s.bump F.SCHED_EXP_EVT_ROUTENAN 0)
    let s := s.when r.zero (fun s => s.bump F.SCHED_EXP_EVT_GATEZERO 0)
    let l := r.sel.foldl (fun (l : Layer) x => l.modLoad x.1 (fun y => { y with routed := y.routed + 1 })) l
    let l := l.putTok { t with routed := true, sel := r.sel }
    let s := s.when (s.feeds l) (fun s => { s with exp := { s.exp with kept := s.exp.kept ++
      [{ desc := l.desc, step := l.step, owner := t.owner, no := t.no, expert := ((r.sel.head?).map Prod.fst).getD 0 }] } })
    (l, s)) (l, s)

/-- What TOKEN_ROUTED changes. -/
def tokenRoutedEffect (ts : List (Option Tok)) (l : Layer) (s : State) : State :=
  let (l, s) := routeBatch (ts.filterMap id) l s
  layerAdvance l s

/-- TOKEN_ROUTED (R147, R148): a batch of up to 32 tokens whose activations are complete has its experts and gates; tokens are committed in
order. -/
def execTokenRouted (layer : BitVec 32) (step : Word) (toks : List (Fnid × BitVec 32)) (s : State) : Host.Outcome State Fault Refusal :=
  match s.layerNo layer.toNat step with
  | none => .next s
  | some l =>
    let d := s.xdesc l.desc
    let ts := toks.map (fun x => l.tok x.1 x.2.toNat)
    actIf (toks ≠ [] && decide (toks.length ≤ 32) && toks.eraseDups = toks && ts.all (fun t => t.any (tokReady d)) &&
        !s.bit F.GLOBAL_HOLD_INHOLD 0 && (s.routerCores d).all (fun c => !s.bit F.ROD_ISLAND_ASLEEP (c / 4))) (tokenRoutedEffect ts l) s

-- Combine (R164, R165) -----------------------------------------------------------------------------------------------------------------

/-- Block b of a token has all its expert outputs. -/
def Tok.ready (t : Tok) (b : Nat) : Bool :=
  !t.bad && t.committed && t.paths.all (fun x => t.outs.any (fun o => o.1 = x.1 && o.2.1 = b))

/-- An expert's output blocks are accepted and held. -/
def expoutUse (i : Nat) (f : Frame) (s : State) : Option State :=
  xTake i f (fun l d s =>
    let p := f.dpre
    match l.tok p.owner f.index with
    | none => some (discard i s)
    | some t =>
      let (bit, tick) := s.lastBitOf i
      let took : Option (Tok × State) :=
        if t.outHeld.any (fun x => x.1 = p.expert) then some (t, s)
        else match partTake d.cpart (poolFor (d.oF.tensorBytes (32 * d.hblk))) 1 s with
          | none => none
          | some (held, s) => some ({ t with outHeld := t.outHeld ++ [(p.expert, held)] }, s)
      match took with
      | none => none
      | some (t, s) =>
        match partPass d.cpart i s with
        | none => none
        | some s =>
          let t := { t with
            outs := t.outs ++ (List.range p.nblk).map (fun j => (p.expert, p.fblk + j, blockAt d.oF f.data j)),
            outBit := max t.outBit bit, outTick := max t.outTick tick }
          let new := (dispBlks f).filter t.ready
          let l := { l.putTok t with ready := l.ready ++ new.map (fun b => (t.owner, t.no, b)) }
          let (l, s) := takeEntries l.ready.length l s
          some (layerCheck l s)) s

/-- EXPOUT_RX (R146). -/
def execExpoutRx (f : Src) (s : State) : Host.Outcome State Fault Refusal := consume (expUnit (fun k => k = 5) expoutUse) f s

/-- A token's COMBINED frames are formed and what it held is freed (R165). -/
def sendCombined (t : Tok) (l : Layer) (s : State) : Layer × State :=
  let d := s.xdesc l.desc
  let bl := (List.range d.hblk).filterMap (fun b => t.comb.find? (fun x => x.1 = b))
  let hold := s.bit F.GLOBAL_HOLD_INHOLD 0
  let s := legMeas l d t.owner t.no 1 t.outBit t.outTick s
  let s := eachDo (dispParts d.cF 4088 (bl.map (fun x => x.2.2))) (fun x s =>
    let susp := hold || ((bl.drop x.1).take x.2.1).any (fun y => y.2.1)
    formSend { line := .part d.cpart, rset := d.rset, frame := s.form (l.hdr t.owner t.no susp ⟨t.owner, 0, x.1, x.2.1, 6⟩ x.2.2),
               own := l.leg t.owner t.no 1 } s) s
  let s := freeTok d t s
  let susp := hold || bl.any (fun y => y.2.1)
  let l := l.putTok { t with sent := true, actBuf := none, act := [], outs := [], outHeld := [], comb := [] }
  ({ l with suspOwners := if susp && !l.suspOwners.contains t.owner then l.suspOwners ++ [t.owner] else l.suspOwners }, s)

/-- What COMBINE_BLOCK_DONE changes. -/
def combineBlockDoneEffect (l : Layer) (x : Busy) (t : Tok) (b : Nat) (s : State) : State :=
  let d := s.xdesc l.desc
  let c := s.mapCore (d.cmbase + x.entry)
  let (l, s) := weighed l s
  let l := { l with busy := l.busy.filter (fun y => y.entry ≠ x.entry) }
  let s := clearBlock (s.beadBlock (d.cmbase + x.entry)) s
  if t.bad then shareEntries (s.putLayer l)
  else
    let ins := t.sel.filterMap (fun g => (t.outs.find? (fun o => o.1 = g.1 && o.2.1 = b)).map (fun o => (o.2.2, g.2)))
    let (o, tal) := combined d ins
    let o : Block := if l.undef then { scale := wbits s.freeVal 0 8, els := o.els.map (fun _ => wbits s.freeVal 0 d.cF.width) } else o
    let s := s.freed
    let (l, s) := layTal tal l s
    let out := bytesLE 1 o.scale ++ (o.els.map (bytesLE 4)).flatten
    let s := shadowSample 1 c (BitVec.ofNat 64 l.layer) (BitVec.ofNat 64 b) l.step (if l.undef then .open_ out else .combine d.ofmt d.cfmt ins) out s
    let t := { t with comb := t.comb ++ [(b, x.susp || (s.core c).quar, o)] }
    let s := shareEntries (s.putLayer (l.putTok t))
    let l := (s.layerOf l.desc l.step).getD l
    let (l, s) := if t.comb.length = d.hblk then sendCombined t l s else (l, s)
    layerCheck l s

/-- COMBINE_BLOCK_DONE (R164, R165): the combine core of an entry finishes a block; the values are free where the layer's descriptor was written
while it ran (R145). -/
def execCombineBlockDone (layer : BitVec 32) (step : Word) (owner : Fnid) (token : BitVec 32) (b : Nat) (s : State) :
    Host.Outcome State Fault Refusal :=
  match s.layerNo layer.toNat step with
  | none => .next s
  | some l =>
    match l.busy.find? (fun x => x.owner = owner && x.no = token.toNat && x.blk = b), l.tok owner token.toNat with
    | some x, some t =>
      let d := s.xdesc l.desc
      let c := s.mapCore (d.cmbase + x.entry)
      actIf (!s.bit F.GLOBAL_HOLD_INHOLD 0 && !s.bit F.ROD_ISLAND_ASLEEP (c / 4)) (combineBlockDoneEffect l x t b) s
    | _, _ => .next s

-- Other events ------------------------------------------------------------------------------------------------------------------------

/-- The expert unit, for CANCEL frames: each is discarded and counted in STRAY (R146). -/
def cancelUnit : Unit where
  takes f _ := f.kind = 6
  bad _ s := s.bump F.SCHED_EXP_DROP_CRCDROP 0
  use i _ s := some (discard i (s.bump F.SCHED_EXP_DROP_STRAY 0))

/-- CANCEL_RX (R146): a CANCEL frame addressed to the switch counts in STRAY. -/
def execCancelRx (f : Src) (s : State) : Host.Outcome State Fault Refusal := consume cancelUnit f s

/-- LAYER_TIMEOUT (R168): the timer of an open layer step reaches TIMEOUT; it stands still during a HOLD. -/
def execLayerTimeout (layer : BitVec 32) (step : Word) (s : State) : Host.Outcome State Fault Refusal :=
  match s.layerNo layer.toNat step with
  | none => .next s
  | some l => actIf (!s.bit F.GLOBAL_HOLD_INHOLD 0) (layerFail 1 l) s

/-- R171: every open layer step of a Brew whose step is S or later ends without a frame. -/
def expRewind (slot : Nat) (from_ : Word) (s : State) : State :=
  let claims (di : Nat) : Bool := match s.brews.lk none slot with
    | some b => b.claims 1 di
    | none => false
  let gone := s.exp.layers.filter (fun l => l.slot = slot && decide (from_.toNat ≤ l.step.toNat))
  let s := eachDo gone (fun l s => (dropMeas l (dropOffers l (closeLayer true l s).2)).bump F.SCHED_EXP_END_OTHER 0) s
  { s with exp := { s.exp with
    ended := s.exp.ended.filter (fun e => !(claims e.1 && decide (from_.toNat ≤ e.2.toNat))),
    kept := s.exp.kept.filter (fun k => !(claims k.desc && decide (from_.toNat ≤ k.step.toNat))) } }

/-- R169: the accepted epoch advances. -/
def expEpoch (s : State) : State := eachDo s.exp.layers (layerFail 3) s

/-- R160, R169: port p went down or its endpoints became quarantined. -/
def expPort (p : Nat) (s : State) : State :=
  eachDo s.exp.layers (fun l s =>
    let (l, s) := squashAll (fun c => c.port = p) l s
    if (s.quarParties l (s.xdesc l.desc)).any (fun n => s.portOf n = some p) then layerFail 2 l s else s.putLayer l) s

/-- R151: step S of a Brew is released; kept choices of earlier steps are of no use any more. -/
def expReleased (slot : Nat) (step : Word) (s : State) : State :=
  let mine (di : Nat) : Bool := match s.brews.lk none slot with
    | some b => b.claims 1 di
    | none => false
  let s := { s with exp := { s.exp with
    kept := s.exp.kept.filter (fun k => !mine k.desc || decide (step.toNat ≤ k.step.toNat)),
    ended := s.exp.ended.filter (fun e => !mine e.1 || decide (step.toNat ≤ e.2.toNat)) } }
  eachDo (s.exp.layers.filter (fun l => l.slot = slot && l.step = step)) (fun l s =>
    if s.noBank slot step then layerFail 5 l s else layerAdvance l s) s

/-- A placement bank took effect, or a HOLD ended: tokens that waited are committed. -/
def expKick (s : State) : State := eachDo s.exp.layers layerAdvance s

/-- R172: a core entered quarantine; combine blocks open on it become suspect. -/
def expCoreQuar (c : Nat) (s : State) : State :=
  eachDo s.exp.layers (fun l s =>
    let d := s.xdesc l.desc
    s.putLayer { l with busy := l.busy.map (fun y => if s.mapCore (d.cmbase + y.entry) = c then { y with susp := true } else y) }) s

/-- R169: an uncorrectable error strikes a held activation, output or combine Bead of a token. -/
def expEcc (layer : Nat) (step : Word) (o : Fnid) (no : Nat) (s : State) : State :=
  match s.layerNo layer step with
  | none => s
  | some l =>
    match l.tok o no with
    | none => s
    | some t =>
      if t.sent || t.bad then s
      else
        let (l, s) := squashTok (fun _ => true) t l s
        let t := (l.tok o no).getD t
        layerAdvance ({ l.putTok { t with bad := true } with hwerr := true, ready := l.ready.filter (fun r => !(r.1 = o && r.2.1 = no)) }) s

/-- R145: a layer's descriptor or the tables it uses were written while a step of it was open. -/
def expUndef (p : Layer → Bool) (s : State) : State :=
  { s with exp := { s.exp with layers := s.exp.layers.map (fun l => if p l then { l with undef := true } else l) } }

end Sys2Proof.Machine
end

