-- ==== Sys2Proof/Machine/Admit.lean ====
section
/-!
DEFINITION. Commit records (R381), the program and weight digest (R317), and admission (R103, R144, R188, R257, R271 to R274): what each of its steps checks, the
bounds it computes, and what a Brew that is admitted changes.
-/
namespace Sys2Proof.Machine

open Sys2Proof

-- Commit records (Tables 14.11 and 14.12) -----------------------------------------------------------------------------

/-- n bytes of HBM; a word with an uncorrectable error, or on a stack out of service, gives free values. -/
def State.hbmFetch (s : State) (off n : Nat) : List Byte :=
  (List.range n).map (fun i =>
    if s.hbmBad (off + i) || s.hbmGone (off + i) then (Config.freeWord (s.free + i)).truncate 8 else s.hbm.lk 0 (off + i))

/-- The HBM range of Caddy's pools (R254). -/
def State.caddyLo (s : State) : Nat := s.fld F.CADDY_HBM_BASEMB 0 * 2 ^ 20
/-- Its end. -/
def State.caddyHi (s : State) : Nat := s.caddyLo + s.fld F.CADDY_HBM_SIZEMB 0 * 2 ^ 20

/-- Two ranges of HBM overlap; an empty range overlaps none. -/
def rangesMeet (a m b n : Nat) : Bool := decide (0 < m) && decide (0 < n) && decide (a < b + n) && decide (b < a + m)

/-- n bytes lie wholly in HBM outside the range of Caddy's pools (R382). -/
def State.hbmFree (s : State) (off n : Nat) : Bool :=
  decide (off + n ≤ hbmSize) && !rangesMeet off n s.caddyLo (s.caddyHi - s.caddyLo)

/-- Bytes of the parts of a record. -/
def recParts (nseed nwr nreg : Nat) : Nat := 256 + 8 * nseed + 16 * nwr + 2 * nreg

/-- The header of a record, as the Brew it describes; slots, partitions and steps are filled in later. -/
def recBrew (off : Nat) (who : Fnid) (bs : List Byte) : Brew :=
  let w (i : Nat) : Nat := leAt bs (8 * i) 8
  let nseed := bitsOf (w 1) 0 9
  let nwr := bitsOf (w 4) 0 16
  let nreg := bitsOf (w 4) 16 16
  let cores := (List.range 256).filter (fun c => bitsOf (w (5 + c / 64)) (c % 64) 1 = 1)
  let ranges := (List.range 13).map (fun r => (bitsOf (w (10 + r)) 0 32, bitsOf (w (10 + r)) 32 32))
  let eps := ((List.range 12).map (fun i => BitVec.ofNat 16 (leAt bs (8 * 23 + 2 * i) 2))).filter (fun (n : Fnid) => n ≠ 0)
  let a := 256 + 8 * nseed
  let wr := (List.range nwr).map (fun i => (leAt bs (a + 16 * i) 8, leAt bs (a + 16 * i + 8) 8))
  let regs := (List.range nreg).map (fun i => leAt bs (a + 16 * nwr + 2 * i) 2)
  { recOff := off, recLen := bitsOf (w 2) 32 32, fnid := who, cores := cores, beadFirst := bitsOf (w 9) 0 13, beadLast := bitsOf (w 9) 16 13,
    ranges := ranges, authep := eps, regions := regs, weights := wr, firstStep := BitVec.ofNat 64 (w 3),
    barHome := BitVec.ofNat 16 (bitsOf (w 4) 48 16), barObj := bitsOf (w 4) 32 16, nseed := nseed }

/-- The seeds of a record. -/
def recSeeds (bs : List Byte) (n : Nat) : List Word := (List.range n).map (fun i => BitVec.ofNat 64 (leAt bs (256 + 8 * i) 8))

/-- BADREC does not apply: alignment, place, MAGIC, VERSION, RECLEN, counts and RCRC (R382). -/
def State.recSound (s : State) (off : Nat) : Bool :=
  let h := s.hbmFetch off 256
  let w (i : Nat) : Nat := leAt h (8 * i) 8
  let len := bitsOf (w 2) 32 32
  let bs := s.hbmFetch off len
  off % 64 = 0 && s.hbmFree off 256 && s.hbmFree off len && w 0 = 0x57455242 <<< 32 + 1 && decide (len ≤ 65536) &&
    decide (bitsOf (w 1) 0 9 ≤ 256) && decide (bitsOf (w 4) 0 16 ≤ 64) && decide (bitsOf (w 4) 16 16 ≤ 4096) &&
    decide (recParts (bitsOf (w 1) 0 9) (bitsOf (w 4) 0 16) (bitsOf (w 4) 16 16) ≤ len) &&
    (crc32 (bs.take 16 ++ rep 4 0 ++ bs.drop 20)).toNat = bitsOf (w 2) 0 32

/-- Entries of the table that range r claims in (Table 14.12). -/
def tableSize : Nat → Nat
  | 0 => 16384 | 1 => 1024 | 2 => 1024 | 3 => 65536 | 4 => 65536 | 5 => 16384 | 6 => 65536 | 7 => 4096 | 8 => 4096 | 9 => 4096 | 10 => 16384
  | 11 => 4096 | _ => 0

/-- RANGE does not apply: what the record names is in range (R382). -/
def State.recInRange (s : State) (b : Brew) : Bool :=
  b.weights.all (fun w => s.hbmFree w.1 w.2) &&
    (List.range 13).all (fun r =>
      let c := b.claim r
      c.2 = 0 || (decide (c.1 + c.2 ≤ tableSize r) && (r ≠ 9 || decide (1 ≤ c.1)))) &&
    b.regions.all (fun i => decide (i < 4096) && s.bit F.MEMREG_RANGE_VALID i)

/-- Two Brews claim a common entry, core or region. -/
def Brew.clashes (a b : Brew) : Bool :=
  (List.range 12).any (fun r =>
    let x := a.claim r
    let y := b.claim r
    decide (0 < x.2) && decide (0 < y.2) && decide (x.1 < y.1 + y.2) && decide (y.1 < x.1 + x.2)) ||
    a.cores.any (fun c => b.cores.contains c) || a.regions.any (fun i => b.regions.contains i)

-- The digest (R317) -----------------------------------------------------------------------------------------------------

/-- The words of a descriptor. -/
def State.descWords (s : State) (r : Reg) (i : Nat) : List Word := (List.range 8).map (fun w => s.reg r (8 * i + w))

/-- Table entries of members or owners, 2 bytes each. -/
def State.memberBytes (s : State) (base n : Nat) : List Byte := ((List.range n).map (fun i => bytesLE 2 (s.memberEntry (base + i)).toNat)).flatten

/-- The message M of R317 over the present contents, with NSEED and the seeds given. -/
def State.pwdMsg (s : State) (b : Brew) (seeds : List Word) : List Byte :=
  let cores := (b.cores.map (fun c => bytesLE 8 c ++ Mem.rd (s.core c).imem 0 0 65536)).flatten
  let coll := ((b.entries 0).map (fun i =>
    bytesLE 8 i ++ wordsToBytes (s.descWords .SCHED_COLL i) ++ s.memberBytes (s.desc false i).mtbase (s.desc false i).mcount)).flatten
  let layer := ((b.entries 1).map (fun i =>
    bytesLE 8 i ++ wordsToBytes (s.descWords .SCHED_XLAYER i) ++ s.memberBytes (s.xdesc i).otbase (s.xdesc i).otcount)).flatten
  let samp := ((b.entries 2).map (fun i =>
    bytesLE 8 i ++ wordsToBytes (s.descWords .SCHED_SAMPLE i) ++ s.memberBytes (s.desc true i).mtbase (s.desc true i).mcount)).flatten
  let wts := (b.weights.map (fun w => bytesLE 8 w.1 ++ bytesLE 8 w.2 ++ s.hbmFetch w.1 w.2)).flatten
  cores ++ coll ++ layer ++ samp ++ bytesLE 8 seeds.length ++ wordsToBytes seeds ++ wts

/-- PWD: the first 16 bytes of SHA-256 over M, as two words. -/
def State.pwd (s : State) (b : Brew) (seeds : List Word) : Word × Word :=
  let h := sha256 (s.pwdMsg b seeds)
  (BitVec.ofNat 64 (leAt h 0 8), BitVec.ofNat 64 (leAt h 8 8))

-- Descriptors (R103, R106 to R108, R144, R188, R315) ------------------------------------------------------------------------

/-- DCRC is correct. -/
def dcrcOk (ws : List Word) : Bool := (crc32 (wordsToBytes (ws.take 7))).toNat = wbits (ws.getD 7 0) 0 32

/-- The Brews of the switch together with the one that asks for admission. -/
def State.brewsWith (s : State) (b : Brew) : List Brew := s.brewList.map Prod.snd ++ [b]

/-- How many collective and sampling descriptors have an INST. -/
def State.instCount (s : State) (b : Brew) (inst : Nat) : Nat :=
  ((s.brewsWith b).map (fun x =>
    ((x.entries 0).filter (fun i => (s.desc false i).inst = inst)).length + ((x.entries 2).filter (fun i => (s.desc true i).inst = inst)).length)).sum

/-- The members or owners of a table are 1 to 8,192 distinct endpoints within the table. -/
def State.tableOk (s : State) (base n : Nat) : Bool :=
  let l := (List.range n).map (fun i => s.memberEntry (base + i))
  decide (1 ≤ n) && decide (n ≤ 8192) && decide (base + n ≤ 65536) && l.all fnidEndpoint && l.eraseDups.length = l.length

/-- RSET, CALREF, CPART: objects that the same Brew loads. -/
def Brew.rsetOk (b : Brew) (i : Nat) : Bool := i = 0 || b.claims 9 i
/-- CALREF. -/
def Brew.calOk (b : Brew) (c : Nat) : Bool := decide (c < 4096) && b.claims 8 c

/-- Member and root conditions that collective and sampling descriptors share (R103, R106, R188). -/
def State.commonOk (s : State) (b : Brew) (d : CDesc) : Bool :=
  s.tableOk d.mtbase d.mcount && (d.rootsw ≠ 0xFFFF || (List.range d.mcount).all (fun i => (s.portOf (s.memberAt d i)).isSome)) &&
    decide (d.timeout ≤ 1000000) && (d.rootsw = 0xFFFF || (fnidSpine (BitVec.ofNat 16 d.rootsw) && fnidValid (BitVec.ofNat 16 d.rootsw))) &&
    b.claims 10 d.mgrp && b.claims 7 d.cpart && b.calOk d.calref && b.rsetOk d.rset && s.instCount b d.inst = 1 && decide (d.group ≤ 9)

/-- R108: an entry names a block of a core of the Brew within the Bead grant, and no other entry of the Brew names the same. -/
def State.beadOk (s : State) (b : Brew) (all : List Nat) (e : Nat) : Bool :=
  let x := s.beadBlock e
  b.cores.contains x.1 && decide (b.beadFirst ≤ 32 * x.2) && decide (32 * x.2 + 31 ≤ b.beadLast) &&
    all.all (fun e' => e' = e || s.beadBlock e' ≠ x)

/-- A format code of 0 to 9. -/
def plainFmt (c : Nat) : Bool := decide (c ≤ 9)
/-- An MX format code. -/
def mxFmt (c : Nat) : Bool := decide (7 ≤ c) && decide (c ≤ 9)

/-- R103, R315: collective descriptor i. -/
def State.collOk (s : State) (b : Brew) (all : List Nat) (i : Nat) : Bool :=
  let d := s.desc false i
  dcrcOk (s.descWords .SCHED_COLL i) && decide (d.op ≤ 6) && plainFmt d.fin && plainFmt d.fout && decide (d.redmode ≤ 1) &&
    (!d.passes || d.fin = d.fout) && (d.redmode ≠ 1 || (decide (d.fin ≤ 2) && decide (d.fout ≤ 2))) &&
    (!d.sparse || (d.reduces && d.redmode = 0 && !mxFmt d.fin)) && (!d.outsparse || !mxFmt d.fout) &&
    (!(mxFmt d.fin || mxFmt d.fout) || d.bcount % 8 = 0) && (!d.fixed || (decide (1 ≤ d.ecode) && decide (d.ecode ≤ 0xFE))) &&
    (decide (d.bcount = 0) == decide (d.op = 6)) && (!(d.op = 2 || d.op = 3 || d.op = 5) || d.bcount % max 1 d.mcount = 0) &&
    decide (1 ≤ d.window) && decide (d.bmbase + 2 * d.window ≤ 65536) &&
    (!d.reduces || (List.range (2 * d.window)).all (fun k => s.beadOk b all (d.bmbase + k))) &&
    (!d.audit || ((d.rootsw = 0xFFFF || decide (d.op ≤ 2)) && decide (d.seedidx < b.nseed))) && s.commonOk b d

/-- R188: sampling descriptor i. -/
def State.sampOk (s : State) (b : Brew) (i : Nat) : Bool :=
  let d := s.desc true i
  dcrcOk (s.descWords .SCHED_SAMPLE i) && decide (1 ≤ d.ktop) && decide (d.ktop ≤ 1024) &&
    (d.greedy || (d.iscale < 2 ^ 31 && decide (1 ≤ bitsOf d.iscale 23 8) && decide (bitsOf d.iscale 23 8 ≤ 254))) &&
    decide (d.seedidx < b.nseed) && b.cores.contains d.core && s.commonOk b d

/-- R152: placement entry i of a bank is well formed. -/
def State.placeOk (s : State) (b : Brew) (bank i : Nat) : Bool :=
  let w (k : Nat) : Word := s.reg .SCHED_PLACE (65536 * bank + 4 * i + k)
  let n := wbits (w 2) 35 4
  let dk (k : Nat) : Fnid := BitVec.ofNat 16 (wbits (w (k / 4)) (16 * (k % 4)) 16)
  decide (1 ≤ n) && decide (n ≤ 8) && (List.range n).all (fun k => fnidEndpoint (dk k)) &&
    (List.range 8).all (fun k => decide (k < n) || dk k = 0) && (wbits (w 2) 39 1 = 0 || b.cores.contains (wbits (w 2) 40 8))

/-- n bytes at a switch offset lie in a region or a Rod memory window granted to the Brew. -/
def State.brewReaches (s : State) (b : Brew) (off n : Nat) : Bool :=
  match placeOf off with
  | .hbm o => b.regions.any (fun i => regionCovers (s.reg .MEMREG_RANGE i) o n)
  | .rod c a => b.cores.contains c && decide (a + n ≤ 0x80000)
  | _ => false

/-- R144: layer descriptor i. -/
def State.layerOk (s : State) (b : Brew) (all : List Nat) (i : Nat) : Bool :=
  let d := s.xdesc i
  let fmt (c : Nat) : Bool := decide (c ≤ 4) || mxFmt c
  let owners := s.owners d
  dcrcOk (s.descWords .SCHED_XLAYER i) && (fmt d.rfmt && d.rfmt ≠ 2) && fmt d.ofmt && fmt d.cfmt &&
    decide (1 ≤ d.nexp) && decide (d.nexp ≤ 512) && decide (1 ≤ d.topk) && decide (d.topk ≤ 16) && decide (d.topk ≤ d.nexp) &&
    decide (1 ≤ d.hblk) && decide (d.hblk ≤ 512) && (!(mxFmt d.rfmt || mxFmt d.ofmt || mxFmt d.cfmt) || d.hblk % 8 = 0) &&
    decide (d.rmbase + (d.nexp + 31) / 32 ≤ 65536) && decide (1 ≤ d.cmcount) && decide (d.cmbase + d.cmcount ≤ 65536) &&
    (s.routerCores d).all (fun c => b.cores.contains c) && (List.range d.cmcount).all (fun k => s.beadOk b all (d.cmbase + k)) &&
    s.tableOk d.otbase d.otcount && owners.all (fun n => (s.portOf n).isSome) && decide (d.plbase + d.nexp ≤ 16384) &&
    [0, 1].all (fun bank => !s.bankValid bank || (List.range d.nexp).all (fun e => s.placeOk b bank (d.plbase + e))) &&
    (d.prevdesc = 0xFFFF || (b.claims 1 d.prevdesc && d.prevdesc ≠ i)) && (!d.spec || decide (d.affbase + 511 ≤ 65535)) &&
    d.rwbase % 64 = 0 && d.loadaddr % 64 = 0 && s.brewReaches b d.rwbase 1 && s.brewReaches b d.loadaddr 32768 && decide (d.timeout ≤ 1000000) &&
    ((s.brewsWith b).map (fun x => ((x.entries 1).filter (fun j => (s.xdesc j).layer = d.layer)).length)).sum = 1 &&
    b.claims 7 d.cpart && b.claims 7 d.spart && b.calOk d.calref && b.rsetOk d.rset

-- Calendars (R271, R272) --------------------------------------------------------------------------------------------------

/-- RATE, BURST and QUEUE of reservation i (Table 9.18). -/
def State.calRate (s : State) (i : Nat) : Nat := wbits (s.reg .SCHED_CAL (4 * i)) 0 32
/-- BURST. -/
def State.calBurst (s : State) (i : Nat) : Nat := wbits (s.reg .SCHED_CAL (4 * i)) 32 32
/-- QUEUE. -/
def State.calQueue (s : State) (i : Nat) : Nat := wbits (s.reg .SCHED_CAL (4 * i + 3)) 0 5
/-- Reservation i names port p. -/
def State.calNames (s : State) (i p : Nat) : Bool := (s.reg .SCHED_CAL (4 * i + 1 + p / 64)).getLsbD (p % 64)

/-- ρ(p, q) in Mb/s over the reservations of some Brews (R272). -/
def State.rho (s : State) (bs : List Brew) (p q : Nat) : Nat :=
  (bs.map (fun b => (((b.entries 8).filter (fun i => s.calNames i p && s.calQueue i = q)).map s.calRate).sum)).sum

/-- σ(p, q) in bytes. -/
def State.sigma (s : State) (bs : List Brew) (p q : Nat) : Nat :=
  (bs.map (fun b => (((b.entries 8).filter (fun i => s.calNames i p && s.calQueue i = q)).map s.calBurst).sum)).sum

/-- The queues that descriptors of the Brew expect of reservation i (R271). -/
def State.calWants (s : State) (b : Brew) (i : Nat) : List Nat :=
  ((b.entries 0).filter (fun k => (s.desc false k).calref = i)).map (fun k => 22 + (s.desc false k).group) ++
  ((b.entries 2).filter (fun k => (s.desc true k).calref = i)).map (fun k => 22 + (s.desc true k).group) ++
  ((b.entries 1).filter (fun k => (s.xdesc k).calref = i)).map (fun _ => 21)

/-- R271: reservation i is valid. -/
def State.calValid (s : State) (b : Brew) (i : Nat) : Bool :=
  decide (10 ≤ s.calRate i) && (List.range 128).all (fun p => !s.calNames i p || (s.port p).present) && decide (20 ≤ s.calQueue i) &&
    (s.calWants b i).all (fun q => q = s.calQueue i)

/-- Port p is overcommitted: its reserved rates exceed 15/16 of its rate (R273, step 4). -/
def State.overcommitted (s : State) (bs : List Brew) (p : Nat) : Bool :=
  decide (15 * (s.port p).rate < 16 * ((List.range 12).map (fun k => s.rho bs p (20 + k))).sum)

/-- The reservation at which step 4 fails. -/
def State.calFail (s : State) (b : Brew) : Option Nat :=
  (b.entries 8).find? (fun i =>
    !s.calValid b i || (List.range 128).any (fun p => s.calNames i p && s.overcommitted (s.brewsWith b) p))

/-- RATE of the reserved queues follows ρ (R272). -/
def setRho (s : State) : State :=
  let bs := s.brewList.map Prod.snd
  eachDo s.portList (fun p s => eachDo (List.range 12) (fun k s => s.setFld F.PORT_QSHAPE_RATE (32 * p + 20 + k) (s.rho bs p (20 + k))) s) s

-- Partitions (R257, R260, R273 step 5) --------------------------------------------------------------------------------------

/-- RES0 to RES5 of partition i (Table 9.8). -/
def State.partRes (s : State) (i : Nat) : List Nat :=
  (List.range 6).map (fun k => wbits (s.reg .CADDY_PART (4 * i + k / 2)) (32 * (k % 2)) 32)

/-- DIE of partition i. -/
def State.partDieOf (s : State) (i : Nat) : Nat := wbits (s.reg .CADDY_PART (4 * i + 3)) 0 2

/-- The admission capacity of pool Pk of die d: COUNT less the FLOORs and the reservations (R257). -/
def State.admitRoom (s : State) (d k : Nat) : Nat :=
  let floors := if k = 0 then ((dieSlots d).map (fun r => s.fld F.CADDY_QUOTA_FLOOR r)).sum else 0
  let res := ((s.partList.filter (fun (x : Nat × Part) => sameDie k d x.2.die)).map (fun (x : Nat × Part) => cnt x.2.res k)).sum
  s.fld F.CADDY_POOL_COUNT (poolIdx d k) - floors - res

/-- Partition i fits beside what is reserved; no HBM buffer while a stack is out of service (R341). -/
def State.partFits (s : State) (i : Nat) : Bool :=
  let r := s.partRes i
  let d := s.partDieOf i
  (s.part i).isNone && (List.range 6).all (fun k => decide (cnt r k ≤ s.admitRoom d k)) && (s.hbmOut = [] || (cnt r 4 = 0 && cnt r 5 = 0))

/-- Reserve the partitions in order; the first that does not fit is answered. -/
def reserveParts : List Nat → State → Option Nat × State
  | [], s => (none, s)
  | i :: t, s =>
    if s.partFits i then
      let p : Part := { die := s.partDieOf i, res := s.partRes i }
      reserveParts t ((s.setPart i (some p)).setFld F.CADDY_PSTAT_PEAK i 0)
    else (some i, s)

-- Bounds (R274) -----------------------------------------------------------------------------------------------------------------

/-- Quotient rounded up. -/
def ceilDiv (a b : Nat) : Nat := (a + b - 1) / b

/-- hop(p, q) in ns (R274). -/
def State.hopNs (s : State) (bs : List Brew) (p q : Nat) : Rat :=
  ((s.sigma bs p q * 8000 : Nat) : Rat) / (max 1 (s.rho bs p q) : Nat) +
    (((5216 + 2 * s.fld F.PORT_EGCFG_OVH p) * 8000 : Nat) : Rat) / (max 1 (s.port p).rate : Nat)

/-- The ports of one kind that reservation i names: those that face endpoints, or the others. -/
def State.calPorts (s : State) (i : Nat) (edge : Bool) : List Nat :=
  (List.range 128).filter (fun p => s.calNames i p && (s.port p).edge = edge)

/-- The largest element. -/
def maxOf (l : List Nat) : Nat := l.foldl max 0

/-- The longest time. -/
def longest (l : List Rat) : Rat := l.foldl (fun a b => if a < b then b else a) 0

/-- The longest egress of reservation i on ports of one kind, with the cable where the port faces a switch. -/
def State.egressNs (s : State) (bs : List Brew) (i : Nat) (edge : Bool) : Rat :=
  150 + longest ((s.calPorts i edge).map (fun p => s.hopNs bs p (s.calQueue i) + ((if edge then 0 else s.fld F.PORT_EGCFG_CABLE p : Nat) : Rat)))

/-- A PREWAKE entry wakes its island before a stage of descriptor k of a table: one that is due at the release itself does; of another the spec does not say how
admission tells (R274, log entry 33). -/
def State.wakesInTime (s : State) (table k i : Nat) : Bool :=
  s.fld F.SCHED_PREWAKE_DELAY i = 0 || Config.wakesBefore table k (s.fld F.SCHED_PREWAKE_DELAY i)

/-- A cold start for each island of the cores that no PREWAKE entry of the Brew wakes before the stage (R274). -/
def State.coldNs (s : State) (b : Brew) (table k : Nat) (cores : List Nat) : Nat :=
  2000 * (((cores.map (· / 4)).eraseDups).filter (fun n => !(b.entries 11).any (fun i =>
    s.fld F.SCHED_PREWAKE_ISLAND i = n && s.wakesInTime table k i))).length

/-- The boundary between a die and any of some others that the path crosses (Table 4.13): the dies form a full mesh. -/
def crossed (ds : List Nat) (d : Nat) : Nat := if ds.all (fun e => e = d) then 0 else 60

/-- Between the ports of one kind that a reservation names and the die of a partition. -/
def State.portCross (s : State) (cal part : Nat) (edge : Bool) : Nat := crossed ((s.calPorts cal edge).map (· / 32)) (s.partDieOf part)

/-- From the die of a partition to the cores, and back. -/
def State.coreCross (s : State) (part : Nat) (cores : List Nat) : Nat := 2 * crossed (cores.map coreDie) (s.partDieOf part)

/-- From the ports that face switches to those that face endpoints, for a frame that a leaf forwards. -/
def State.passCross (s : State) (cal : Nat) : Nat :=
  if (s.calPorts cal false).all (fun u => (s.calPorts cal true).all (fun p => u / 32 = p / 32)) then 0 else 60

/-- Cycles of 2.0 GHz in ns. -/
def cyclesNs (n : Rat) : Rat := n / 2

/-- The cores of a reduction's block map. -/
def State.bmapCores (s : State) (d : CDesc) : List Nat :=
  if d.reduces then (((List.range (2 * d.window)).map (fun k => s.mapCore (d.bmbase + k))).eraseDups) else if d.samp then [d.core] else []

/-- The bound of the sampling stages (R196): a leaf's merge, and the draw. The last frame holds at most 31 groups of 16 records. -/
def mergeNs (ktop : Nat) : Rat := 20 + cyclesNs (ceilDiv (496 + ktop) 16 : Nat)
/-- The draw. -/
def drawNs (ktop : Nat) : Rat := 40 + cyclesNs (ceilDiv (496 + 2 * ktop) 16 : Nat)

/-- The reduce stage: the most additions the block map gives one core in one step, 64 in a cycle; a tile of a SPARSE instance without STRUCT has 8 cycles
where 4 would do (R139), at a root too, whose inputs are partials and no tiles (DESIGN CHOICE, log entry 145). -/
def State.reduceNs (s : State) (d : CDesc) : Rat :=
  if d.reduces then
    let n := match s.role d with
      | .root => (s.leaves d).length
      | _ => (s.locals d).length
    let per (half c : Nat) : Nat :=
      ((List.range d.bcount).filter (fun b => s.mapCore (d.bmbase + half * d.window + b % max 1 d.window) = c)).length
    let a := maxOf ((s.bmapCores d).map (fun c => max (per 0 c) (per 1 c))) * 32 * n
    20 + cyclesNs (((if d.sparse && !d.struct then 2 * a else a : Nat) : Rat) / 64)
  else if d.samp then (if s.role d = .leaf then mergeNs d.ktop else drawNs d.ktop)
  else 20

/-- An instance of the descriptor would have an exponent pass (R116); a FLOATSUM one in the BEAD form that strict mode runs it in (R313). -/
def State.passOf (s : State) (d : CDesc) : Bool := d.reduces && (if d.redmode = 1 then s.strict else !d.fixed && !d.finF.isInt)

/-- The bound of a collective or sampling descriptor in ns: the stages at this switch; for a two-tier instance also those at the other switches, with the times
that Table 4.13 and R196 give them, and a free value for what depends on registers this switch does not have: their hops, cables, block maps, islands and
dies (log entry 32). -/
def State.collBound (s : State) (b : Brew) (k : Nat) (d : CDesc) (remote : Nat) : Rat :=
  let bs := s.brewsWith b
  let cores := s.bmapCores d
  let xe : Rat := s.portCross d.calref d.cpart true
  let xu : Rat := s.portCross d.calref d.cpart false
  let red : Rat := s.coldNs b (if d.samp then 2 else 0) k cores + s.coreCross d.cpart cores + s.reduceNs d
  let down := s.egressNs bs d.calref true
  let up := s.egressNs bs d.calref false + xu
  let passExp : Rat := if s.passOf d then 1 else 0
  -- an ingress and an egress at another switch, and its reduce stage
  let there : Rat := 145 + 150
  let other : Rat := if d.samp then (if s.role d = .leaf then drawNs d.ktop else mergeNs d.ktop) else 20
  match s.role d, !d.samp && d.op = 5 with
  | .single, _ => 145 + xe + red + down + xe
  -- a two-tier ALLTOALL: the interval of each leaf lies within it, and the root has none (R130)
  | .leaf, true => 145 + longest [xe, xu] + 20 + down + xe
  | .root, true => 0
  | .leaf, false =>
    145 + xe + passExp * (20 + up + (there + 20) + 145 + xu) + red + up + (there + other) + 145 + s.passCross d.calref + down + remote
  | .root, false => (145 + passExp * (20 + 150 + (145 + xu + 20 + up) + 145) + other + 150) + 145 + xu + red + up + there + remote

/-- The largest of the three legs of a layer in ns (R173, R274). -/
def State.layerBound (s : State) (b : Brew) (k : Nat) (d : XDesc) : Rat :=
  let bs := s.brewsWith b
  let rc := s.routerCores d
  let cc := ((List.range d.cmcount).map (fun k => s.mapCore (d.cmbase + k))).eraseDups
  let down := s.egressNs bs d.calref true
  let any := longest [down, s.egressNs bs d.calref false]
  let n := d.hblk * 32
  let kc := match d.rF with
    | .e4m3 | .e5m2 | .mxfp8e4 | .mxfp8e5 => n / 2
    | .mxfp4 => n / 4
    | _ => n
  let sortC := 32 + ceilDiv (d.nexp * Nat.log2 (max d.nexp 2 * 2 - 1)) 8
  let router : Rat := 2 * (cyclesNs ((48 + kc) * rc.length : Nat) + cyclesNs sortC + 40)
  let per (c : Nat) : Nat := ceilDiv (((List.range d.cmcount).filter (fun j => s.mapCore (d.cmbase + j) = c)).length * d.hblk) (max 1 d.cmcount)
  let red : Rat := 20 + cyclesNs (((maxOf (cc.map per) * 32 * d.topk : Nat) : Rat) / 64)
  let xe : Rat := s.portCross d.calref d.cpart true
  let x : Rat := longest [xe, (s.portCross d.calref d.cpart false : Nat)]
  longest [145 + x + s.coreCross d.cpart rc + s.coldNs b 1 k rc + router + any + x,
    145 + x + s.coreCross d.cpart cc + s.coldNs b 1 k cc + red + down + xe, down + xe]

/-- The first descriptor whose bound exceeds its DEADLINE: table, index and bound, which DETAIL gives rounded up to whole ns (R273, step 6; log entry 32). -/
def State.boundFail (s : State) (b : Brew) : Option (Nat × Nat × Nat) :=
  let coll (samp : Bool) (i : Nat) : Option (Nat × Nat × Nat) :=
    let d := s.desc samp i
    let remote := wbits (Config.freeWord (s.free + i + if samp then 16384 else 0)) 0 32
    let v := s.collBound b i d remote
    if d.deadline ≠ 0 && decide ((d.deadline : Rat) < v) then some (if samp then 2 else 0, i, v.ceil.toNat) else none
  let layer (i : Nat) : Option (Nat × Nat × Nat) :=
    let d := s.xdesc i
    let v := s.layerBound b i d
    if d.deadline ≠ 0 && decide ((d.deadline : Rat) < v) then some (1, i, v.ceil.toNat) else none
  ((b.entries 0).findSome? (coll false)).or (((b.entries 1).findSome? layer).or ((b.entries 2).findSome? (coll true)))

-- Admission (R273) ------------------------------------------------------------------------------------------------------------------

/-- The lowest free Brew slot. -/
def State.freeSlot (s : State) : Option Nat := (List.range 8).find? (fun k => s.brews.lk none k = none)

/-- The word of SCHED_ADMIT (Table 9.20). -/
def admitWord (code table index slot detail : Nat) : Word :=
  mkWord [(min detail (2 ^ 32 - 1), 32), (index % 65536, 16), (table % 16, 12), (slot % 8, 8), (code, 0)]

/-- The first descriptor that fails its checks: table and index. -/
def State.descFail (s : State) (b : Brew) : Option (Nat × Nat) :=
  let all := s.beadEntries b
  (((b.entries 0).find? (fun i => !s.collOk b all i)).map (fun i => (0, i))).or
    ((((b.entries 1).find? (fun i => !s.layerOk b all i)).map (fun i => (1, i))).or
      (((b.entries 2).find? (fun i => !s.sampOk b i)).map (fun i => (2, i))))

/-- R273 for a Brew without its partitions reserved: the word of SCHED_ADMIT and, where it is admitted, its slot and the state with the partitions reserved. -/
def State.admission (s : State) (b : Brew) (kaFail : Option Nat) : Word × Option (Nat × State) :=
  match s.freeSlot with
  | none => (admitWord 1 0 0 0 0, none)
  | some k =>
    match b.cores.find? (fun c => (s.core c).stateCode ≠ 0) with
    | some c => (admitWord 2 5 c 0 0, none)
    | none =>
      match s.descFail b with
      | some (t, i) => (admitWord 3 t i 0 0, none)
      | none =>
        match (s.calFail b).or kaFail with
        | some i => (admitWord 4 4 i 0 0, none)
        | none =>
          match reserveParts (b.entries 7) s with
          | (some i, _) => (admitWord 5 3 i 0 0, none)
          | (none, t) =>
            match s.boundFail b with
            | some (tb, i, v) => (admitWord 6 tb i 0 v, none)
            | none => (admitWord 0 0 0 k 0, some (k, t))

/-- An admitted Brew takes slot k: its seeds, step and grants are loaded, its digest kept, its cores placed in LOADED (R382, R65). -/
def takeSlot (k : Nat) (b : Brew) (seeds : List Word) (pwd : Word × Word) (s : State) : State :=
  let b := { b with strict := s.strict, armed := true }
  let s := setRho { s with brews := s.brews.put none k (some b) }
  let s := eachDo ((List.range seeds.length).zip seeds) (fun x s => s.setReg .SCHED_SEED (256 * k + x.1) x.2) s
  let s := (s.setFld F.SCHED_SEEDN_NSEED k seeds.length).setReg .SCHED_STEP k b.firstStep
  let s := (s.setReg .AUDIT_PWD (2 * k) pwd.1).setReg .AUDIT_PWD (2 * k + 1) pwd.2
  let s := eachDo b.regions (fun i s => s.setFld F.MEMREG_RANGE_GRANT i (s.fld F.MEMREG_RANGE_GRANT i ||| 2 ^ k)) s
  eachDo b.cores (fun c s => enterCoreSt c .loaded (s.modCore c (fun x => { x with held := false, heldQuiz := false, stall := none }))) s

end Sys2Proof.Machine
end

