-- ==== Sys2Proof/Machine/Access.lean ====
section
/-!
DEFINITION. Who may reach what over the fabric (R278, R298, R330, R380, R382 to R384, R421 to R423): authority, Brew-authorised and Brew endpoints, Rod windows, system
objects, control space; and tests 1 to 5 of R278, which every request meets in order.
-/
namespace Sys2Proof

open Machine

/-- OP[14:0] (R280). -/
def Frame.opc (f : Frame) : Nat := f.op % 2 ^ 15

/-- RLEN of a LOAD (Table 10.2). -/
def Frame.rlen (f : Frame) : Nat := bitsOf (leAt f.payload 0 8) 0 13

/-- Bytes that a LOAD or STORE covers. -/
def Frame.extent (f : Frame) : Nat := if f.opc = 1 then f.rlen else f.len

/-- The request names control space. -/
def Frame.control (f : Frame) : Bool := decide (0x00FF00000000 ≤ f.offset) && decide (f.offset < 0x010000000000)

/-- The object that a SYNC request names, where tests 1 to 5 pass. -/
def Frame.object (f : Frame) : Nat := (objectOf f.offset).getD 0

end Sys2Proof

namespace Sys2Proof.Machine

open Sys2Proof

/-- Who a request comes from: its SRC, and for a request that a core of this switch issued, the core (R259). -/
structure Who where
  fnid : Fnid
  core : Option Nat := none
deriving DecidableEq, Repr

/-- Who sent stored frame i. -/
def State.sender (s : State) (i : Nat) (f : Frame) : Who :=
  match s.buf i with
  | some b => match b.charge with
    | .slot r _ => if 128 ≤ r then ⟨f.src, some (r - 128)⟩ else ⟨f.src, none⟩
    | _ => ⟨f.src, none⟩
  | none => ⟨f.src, none⟩

/-- An FNID of the authority set (R333). -/
def State.isAuth (s : State) (n : Fnid) : Bool :=
  (List.range 8).any (fun i => s.bit F.GLOBAL_AUTH_VALID i && s.fld F.GLOBAL_AUTH_FNID i = n.toNat)

/-- A Brew-authorised FNID (R369). -/
def State.isBrewAuth (s : State) (n : Fnid) : Bool := s.brewAuth.contains n

/-- The source speaks for the Brew: one of its AUTHEP list, or FMEM of one of its own cores (R380). -/
def Brew.speaks (b : Brew) (w : Who) : Bool := b.authep.contains w.fnid || w.core.any b.cores.contains

/-- A source that may command slot k: the authority set, or the slot's authorised endpoints (Table 12.3, R383). -/
def State.mayCommand (s : State) (k : Nat) (n : Fnid) : Bool :=
  s.isAuth n || (match s.brews.lk none k with
    | some b => b.authep.contains n
    | none => false)

/-- R380: the Rod and instruction memory windows of core c are open to the source. -/
def State.windowOpen (s : State) (c : Nat) (w : Who) : Bool :=
  match s.brewOf c with
  | some k => match s.brews.lk none k with
    | some b => b.speaks w
    | none => false
  | none => (s.core c).stateCode = 0 && s.isBrewAuth w.fnid

/-- R422: a control-space request of the source is applied. -/
def State.controlOpen (s : State) (w : Who) (load : Bool) : Bool :=
  s.isAuth w.fnid || s.isBrewAuth w.fnid || s.brewList.any (fun (x : Nat × Brew) => x.2.authep.contains w.fnid) || s.isOwn w.fnid ||
    (load && s.bit F.GLOBAL_MODE_RDOPEN 0 && fnidEndpoint w.fnid)

/-- The table of Table 14.12 and its entry that bit b of register r(i) belongs to. -/
def entryOf (r : Reg) (i b : Nat) : Option (Nat × Nat) :=
  match r with
  | .SCHED_COLL => some (0, i / 8)
  | .SCHED_XLAYER => some (1, i / 8)
  | .SCHED_SAMPLE => some (2, i / 8)
  | .SCHED_MEMBER => some (3, 4 * i + b / 16)
  | .SCHED_BMAP => some (4, 2 * i + b / 32)
  | .SCHED_PLACE => some (5, i % 65536 / 4)
  | .SCHED_AFFIN => some (6, i)
  | .CADDY_PART => some (7, i / 4)
  | .SCHED_CAL => some (8, i / 4)
  | .ROUTE_RSET => some (9, i)
  | .MCAST_GRP => some (10, i / 2)
  | .MCAST_LOCAL => some (10, 64 * i + b)
  | .SCHED_PREWAKE => some (11, i)
  | _ => none

/-- The admitted Brew that owns bit b of register r(i). -/
def State.ownerOf (s : State) (r : Reg) (i b : Nat) : Option Brew :=
  match r with
  | .ROD_ENTRY => (s.brewOf i).bind (fun k => s.brews.lk none k)
  | .SCHED_SEED => s.brews.lk none (i / 256)
  | _ => (entryOf r i b).bind (fun e => (s.brewList.find? (fun (x : Nat × Brew) => x.2.claims e.1 e.2)).map Prod.snd)

/-- R380: r(i) is a BREW-class register of table entries that no admitted Brew owns; a register that holds entries of several owners is one only while none of
them is owned (DESIGN CHOICE, log entry 68). -/
def State.staging (s : State) (r : Reg) (i : Nat) : Bool :=
  r ≠ .SCHED_PLACE_EFF && (r.fields i).any (fun f => f.acc = .brew) && (List.range 64).all (fun b => (s.ownerOf r i b).isNone)

/-- R380: a LOAD of what no Brew owns of the staging window is applied only for a Brew-authorised source. -/
def State.stagingShut (s : State) (off : Nat) (w : Who) : Bool :=
  !s.isBrewAuth w.fnid && (match Reg.at? off with
    | some (r, i) => s.staging r i
    | none => false)

/-- The source is one that the rules of system object n name (R298, R330, R382, R383); a reserved object names none. -/
def State.sysOpen (s : State) (n : Nat) (src : Fnid) : Bool :=
  if n = 0xFFD0 then s.isBrewAuth src
  else if 0xFFD8 ≤ n && n ≤ 0xFFDF then s.mayCommand (n - 0xFFD8) src
  else if 0xFFE0 ≤ n && n ≤ 0xFFE7 then s.mayCommand (n - 0xFFE0) src
  else if (0xFFF0 ≤ n && n ≤ 0xFFF7) || n = 0xFFFF then s.isAuth src
  else false

/-- The SYNC codes that a system object accepts (R330, R384). -/
def sysAccepts (n op : Nat) : Bool := op = 0x30 || op = 0x34 || (op = 0x31 && decide (n ≤ 0xFFDF))

/-- The memory status codes of Table 10.5 that a refusal carries. -/
inductive Refuse where
  | range | align | badop | denied | strictrej | unavail | ue
deriving DecidableEq, Repr

/-- The encoding of a status (Table 10.5). -/
def Refuse.code : Refuse → Nat
  | .range => 2 | .align => 3 | .badop => 4 | .denied => 5 | .ue => 6 | .strictrej => 7 | .unavail => 8

/-- An atomic's code (Table 10.2). -/
def isAtomicOp (op : Nat) : Bool := decide (0x10 ≤ op) && decide (op ≤ 0x1D)

/-- Bytes of an atomic's operand (Table 10.3). -/
def atomicLen (op : Nat) : Nat :=
  match op with
  | 0x1B => 16 | 0x1C => 32 | n => atomicWidth n

/-- Test 1: a reserved offset of Table 10.1, or HBM within Caddy's range (R254). -/
def State.offReserved (s : State) (off : Nat) : Bool :=
  match placeOf off with
  | .reserved => true
  | .hbm o => decide (s.caddyLo ≤ o) && decide (o < s.caddyHi)
  | _ => false

/-- Test 2: the source may not reach that part of the map. -/
def State.offDenied (s : State) (f : Frame) (w : Who) : Bool :=
  match placeOf f.offset with
  | .rod c _ => !s.windowOpen c w
  | .imem c _ => !s.windowOpen c w
  | .board n _ => decide (0xFE00 ≤ n) && !s.sysOpen n w.fnid
  | .control o =>
    let load : Bool := f.kind = 1 && f.opc = 1
    !s.controlOpen w load || (load && s.stagingShut (o / 8 * 8) w)
  | _ => false

/-- A CAS64 may write this control word of a region (R293): no reserved MODE, no reserved bit. -/
def ctlWordOk (w : Nat) : Bool := decide (bitsOf w 0 4 ≤ 3) && bitsOf w 4 4 = 0

/-- Test 3: KIND, OP, LEN and RLEN are accepted at the offset (Table 10.1, R280, R284, R293). -/
def opAccepted (f : Frame) : Bool :=
  let op := f.opc
  if f.kind = 5 then
    (match placeOf f.offset with
      | .board n _ => decide (n < 0xFE00) || sysAccepts n op
      | _ => false) &&
    (match op with
      | 0x30 => f.len = 8 | 0x31 => f.len = 8 | 0x32 => f.len = 8 | 0x33 => f.len = 16 | 0x34 => f.len = 0 | _ => false)
  else
    match placeOf f.offset with
    | .hbm _ => (op = 1 && f.len = 8 && decide (1 ≤ f.rlen) && decide (f.rlen ≤ 4088)) || (op = 2 && decide (1 ≤ f.len) && decide (f.len ≤ 4096)) ||
        (isAtomicOp op && f.len = atomicLen op)
    | .board n _ => decide (n < 0xFE00) && op = 1 && f.len = 8 && decide (8 ≤ f.rlen) && decide (f.rlen ≤ 64) && f.rlen % 8 = 0
    | .region _ _ => (op = 1 && f.len = 8 && f.rlen = 8) || (op = 0x1B && f.len = 16 && ctlWordOk (leAt f.payload 8 8))
    | .control _ => (op = 1 && f.len = 8 && f.rlen = 8) || (op = 2 && f.len = 8)
    | .reserved => false
    | _ => (op = 1 && f.len = 8 && decide (1 ≤ f.rlen) && decide (f.rlen ≤ 4088)) || (op = 2 && decide (1 ≤ f.len) && decide (f.len ≤ 4096))

/-- Test 4: the OFFSET is aligned as its offset and operation require. -/
def alignOk (f : Frame) : Bool :=
  if f.kind = 5 then true
  else match placeOf f.offset with
    | .hbm o => !isAtomicOp f.opc || o % atomicWidth f.opc = 0
    | .board _ o => o % 8 = 0
    | .region _ o => o = 0
    | .control o => o % 8 = 0
    | _ => true

/-- Test 5: the extent stays within its 4 KiB of HBM, window, object or control word; a SYNC request names an object's base; a control offset is an assigned
one (R421; DEDUCED, log entry 118). -/
def extentOk (f : Frame) : Bool :=
  match placeOf f.offset with
  | .board _ o => if f.kind = 5 then o = 0 else decide (o + f.extent ≤ 64)
  | .hbm o => isAtomicOp f.opc || decide (o % 4096 + f.extent ≤ 4096)
  | .rod _ a => decide (a + f.extent ≤ 0x80000)
  | .imem _ a => decide (a + f.extent ≤ 0x10000)
  | .control o => (Reg.at? o).isSome
  | _ => true

/-- Tests 1 to 5 of R278 in their order: the first that fails. -/
def State.refusal (s : State) (f : Frame) (w : Who) : Option Refuse :=
  if s.offReserved f.offset then some .range
  else if s.offDenied f w then some .denied
  else if !opAccepted f then some .badop
  else if !alignOk f then some .align
  else if !extentOk f then some .range
  else none

/-- A refusal is counted (R278): a refused request to a system object for its source in CBOARD_TALLY.DENIED and nowhere else (R298), any other in
MEMREG_ERR, and a control-space access that R421, R422 or R423 refuses in GLOBAL_REJ.FORM too (R426); R423 gives BADOP to the widths of a LOAD or STORE
and to atomics, not to a SYNC request or to a reserved code, which R280 and Table 10.1 refuse. -/
def countRefusal (f : Frame) (r : Refuse) (s : State) : State :=
  let sys : Bool := match placeOf f.offset with
    | .board n _ => decide (0xFE00 ≤ n)
    | _ => false
  if sys && r = .denied then s.bump F.CBOARD_TALLY_DENIED 0
  else
    let form : Bool := r ≠ .badop || (f.kind = 1 && (f.opc = 1 || f.opc = 2 || isAtomicOp f.opc))
    (countErr r.code s).when (f.control && form) (fun s => s.bump F.GLOBAL_REJ_FORM 0)

/-- A request that is refused is answered with the status and no data; a STORE is named in an ACK (R281, R282). -/
def refuse (i : Nat) (f : Frame) (r : Refuse) (s : State) : Option State :=
  let s := countRefusal f r s
  if f.kind = 1 && f.opc = 2 then some (ackStore i r.code s) else reply i r.code [] s

/-- A SYNC request with an op code, to objects that satisfy p: refused, or handled. -/
def syncUnit (op : Nat → Bool) (p : Nat → Bool) (body : Nat → Frame → State → Option State) (wait : Nat → Frame → State → State) : Unit where
  takes f _ := f.kind = 5 && op f.opc && p ((objectOf f.offset).getD 0x10000)
  use i f s :=
    -- this switch executes what names it as DST; a copy of a multicast group is not for it (R277, log entry 67)
    if f.dst = mcastDst then some (discard i s)
    else match s.refusal f (s.sender i f) with
      | some r => refuse i f r s
      | none => (goHome i f s).bind (body i f)
  wait := wait

end Sys2Proof.Machine
end

