-- ==== Sys2Proof/Machine/Recovery.lean ====
section
/-!
DEFINITION. Step releases (R301, R306), membership (R331 to R333), REWIND (R336, R337), commits and unloads (R382, R383), rechecks of the digest (R322), and
the answers that reach the fabric engines (R290).
-/
namespace Sys2Proof

open Machine

/-- The 64-bit operand of a SYNC request. -/
def Frame.k (f : Frame) : Nat := leAt f.operand 0 8

end Sys2Proof

namespace Sys2Proof.Machine

open Sys2Proof

-- Step releases (R301, R306, R65) ---------------------------------------------------------------------------------------

/-- Brew slot k is being unloaded, and its work has been stopped. -/
def State.unloading (s : State) (k : Nat) : Bool :=
  match s.board.unload with
  | some u => u.begun && u.slot = k
  | none => false

/-- A step release arms the PREWAKE entries of its Brew: each falls due DELAY ns later (R387). -/
def prewakeArm (b : Brew) (s : State) : State :=
  eachDo (b.entries 11) (fun i s => { s with kettle := { s.kettle with
    preDue := s.kettle.preDue.put [] i (s.kettle.preDue.lk [] i ++ [s.now + ns (s.fld F.SCHED_PREWAKE_DELAY i)]) } }) s

/-- A step release of the Brew in slot k reaches the switch: open work of earlier steps keeps its seeds, then the step counter, the cores and the units
(R306, R308, R65, R337, R387). -/
def stepRelease (k : Nat) (s : State) : State :=
  match s.brews.lk none k with
  | none => s
  | some b =>
    if s.bit F.SCHED_REWIND_BUSY k then s.bump F.SCHED_REWIND_RELDROP k
    else if s.unloading k then s
    else
      let step := if b.armed then s.brewStep k else s.brewStep k + 1
      let s := prewakeArm b (seedPin k step s)
      let s := s.setReg .SCHED_STEP k step
      let s := { s with brews := s.brews.put none k (some { b with armed := false, seedOld := [] }) }
      let s := eachDo b.cores (fun c s => (releaseCore k c s).wakeIsland (c / 4)) s
      expReleased k step (collReleased k step s)

/-- The Brews whose step barrier is object n of home switch h (R301). -/
def State.barrierOf (s : State) (h : Fnid) (n : Nat) : List Nat :=
  (s.brewList.filter (fun (x : Nat × Brew) => x.2.barHome = h && x.2.barObj = n)).map Prod.fst

/-- What a RELEASE does: one from an endpoint is discarded and counted in BADOP; one from a switch releases the steps of the Brews whose barrier it names. -/
def releaseUse (i : Nat) (f : Frame) (s : State) : Option State :=
  if fnidEndpoint f.src then some (discard i (s.bump F.MEMREG_ERR_BADOP 0))
  else some (discard i (match objectOf f.offset with
    | some n => eachDo (s.barrierOf f.src n) stepRelease s
    | none => s))

/-- The Counting board unit, for RELEASE frames. -/
def releaseUnit : Unit where
  takes f _ := f.kind = 5 && f.opc = opRelease
  use := releaseUse

/-- RELEASE_RX (R300, R301). -/
def execReleaseRx (f : Src) (s : State) : Host.Outcome State Fault Refusal := consume releaseUnit f s

-- Answers to the fabric engines (R290) ------------------------------------------------------------------------------------

/-- An answer that no request waits for: a late one counts in RANGE, one that names no request of a core counts nowhere (R290). -/
def lateAnswer (dst : Fnid) (seq : Nat) (s : State) : State :=
  if s.board.late.contains (dst, seq) then
    s.bump F.MEMREG_ERR_RANGE 0
  else s

/-- The request that a reply names takes it; a late reply is discarded and counted in RANGE. -/
def mrspUse (i : Nat) (f : Frame) (s : State) : Option State :=
  match s.reqOf f.src f.seq with
  | some (c, q) => some (discard i (answerReq c q (leAt f.payload 0 8) ((f.payload.take f.len).drop 8) s))
  | none => some (discard i (lateAnswer f.src f.seq s))

/-- The fabric engines, for replies. -/
def mrspUnit : Unit where
  takes f _ := f.kind = 2
  use := mrspUse

/-- MRSP_RX. -/
def execMrspRx (f : Src) (s : State) : Host.Outcome State Fault Refusal := consume mrspUnit f s

/-- Requests that an ACK frame names are answered with a status: PDST, FIRST and the map of Table 8.11. -/
def ackTake (status : Frame → Nat) (i : Nat) (f : Frame) (s : State) : Option State :=
  let w0 := leAt f.payload 0 8
  let map := leAt f.payload 8 8
  let dst : Fnid := BitVec.ofNat 16 (bitsOf w0 32 16)
  let s := eachDo ((List.range 64).filter (fun j => bitsOf map j 1 = 1)) (fun j s =>
    match s.reqOf dst ((bitsOf w0 0 24 + j) % 2 ^ 24) with
    | some (c, q) => answerReq c q (status f) [] s
    | none => lateAnswer dst ((bitsOf w0 0 24 + j) % 2 ^ 24) s) s
  some (discard i s)

/-- The fabric engines, for ACK frames that name stores: those get its status word alone. -/
def doneUnit : Unit where
  takes f _ := f.kind = 7 && f.opc ≠ 0x41
  use := ackTake (fun f => bitsOf (leAt f.payload 0 8) 24 8)

/-- ACK_DONE_RX. -/
def execAckDoneRx (f : Src) (s : State) : Host.Outcome State Fault Refusal := consume doneUnit f s

/-- The fabric engines, for NACK(LOST) frames: the requests they name get STATUS LOST. -/
def nackUnit : Unit where
  takes f _ := f.kind = 7 && f.opc = 0x41
  use := ackTake (fun _ => 10)

/-- NACK_LOST_RX. -/
def execNackLostRx (f : Src) (s : State) : Host.Outcome State Fault Refusal := consume nackUnit f s

-- Membership (R331 to R333) -----------------------------------------------------------------------------------------------

/-- Reply data of an ARRIVE to a system object. -/
def sysData (count gen : Nat) : List Byte := bytesLE 8 count ++ bytesLE 8 gen

/-- The entry that fences an FNID. -/
def State.fenceOf (s : State) (n : Nat) : Option Nat :=
  (List.range 64).find? (fun i => s.bit F.GLOBAL_FENCE_VALID i && s.fld F.GLOBAL_FENCE_FNID i = n)

/-- A free entry of GLOBAL_FENCE. -/
def State.fenceFree (s : State) : Option Nat := (List.range 64).find? (fun i => !s.bit F.GLOBAL_FENCE_VALID i)

/-- Stored frame j is one that the fence of FNID n discards: to it or from it, on a VC other than VC0. -/
def State.fencedBuf (s : State) (n : Fnid) (j : Nat) : Bool :=
  match s.buf j with
  | some b => b.frame.vc ≠ 0 && (b.frame.src = n || b.frame.dst = n)
  | none => false

/-- Stored frame j is a multicast copy on a VC other than VC0. -/
def State.mcBuf (s : State) (j : Nat) : Bool :=
  match s.buf j with
  | some b => b.frame.vc ≠ 0 && b.mc
  | none => false

/-- The frames of port p's queues that the new fence of FNID n discards, staged copies apart, leave them and count in entry i (R332, log entry 125). -/
def fenceQueues (i : Nat) (n : Fnid) (p : Nat) (s : State) : State :=
  eachDo (List.range 32) (fun q s =>
    eachDo ((s.port p).queue q).live (fun e s =>
      if s.fencedBuf n e.buf || (s.mcBuf e.buf && s.portOf n = some p) then
        discard e.buf ((dequeue p q e.buf s).bump F.GLOBAL_FENCE_DROPS i)
      else s) s) s

/-- A frame that waits to cross toward a fenced endpoint is discarded; a multicast frame loses the copy for its port. -/
def fenceCross (i : Nat) (n : Fnid) (s : State) : State :=
  eachDo s.net.xwait (fun x s =>
    let others := x.ports.filter (fun p => s.portOf n ≠ some p)
    if s.fencedBuf n x.buf || (s.mcBuf x.buf && others = []) then
      discard x.buf ({ s with net := { s.net with xwait := s.net.xwait.erase x } }.bump F.GLOBAL_FENCE_DROPS i)
    else if s.mcBuf x.buf && others ≠ x.ports then
      { s with net := { s.net with xwait := modFirst (· = x) (fun x => { x with ports := others }) s.net.xwait } }.bump F.GLOBAL_FENCE_DROPS i
    else s) s

/-- Frames of a fenced FNID that wait for an FRECV are discarded. -/
def fenceUnmatched (i : Nat) (n : Fnid) (s : State) : State :=
  eachDo (s.net.unmatched.filter (s.fencedBuf n)) (fun j s =>
    discard j ({ s with net := { s.net with unmatched := s.net.unmatched.erase j } }.bump F.GLOBAL_FENCE_DROPS i)) s

/-- What is stored when entry i begins to fence FNID n, and not handled yet, is discarded (R332). -/
def fencePurge (i : Nat) (n : Fnid) (s : State) : State :=
  crossDrain (fenceUnmatched i n (fenceCross i n (eachDo s.portList (fenceQueues i n) s)))

/-- R332: an FNID is fenced; one that is fenced already keeps its entry. -/
def fenceAdd (n : Nat) (s : State) : State :=
  match s.fenceOf n with
  | some _ => s
  | none => match s.fenceFree with
    | some i => fencePurge i (BitVec.ofNat 16 n) ((s.setFld F.GLOBAL_FENCE_FNID i n).setFld F.GLOBAL_FENCE_VALID i 1)
    | none => s

/-- R332: an FNID is fenced no more. -/
def fenceDel (n : Nat) (s : State) : State :=
  match s.fenceOf n with
  | some i => s.setFld F.GLOBAL_FENCE_VALID i 0
  | none => s

/-- R331: E is accepted where it is ahead; open work ends with EPOCH. The count of Table 12.3 saturates (R11). -/
def epochTo (e : Nat) (s : State) : State :=
  if epochAhead e (s.fld F.GLOBAL_MEPOCH_MEPOCH 0) then
    let s := (s.setFld F.GLOBAL_MEPOCH_MEPOCH 0 e).bump F.GLOBAL_MEPOCH_ADVANCES 0
    let s := { s with board := { s.board with epochGen := min (s.board.epochGen + 1) (2 ^ 64 - 1) } }
    expEpoch (collEpoch s)
  else s

/-- A fence to a 65th FNID. -/
def State.fenceFull (s : State) (k : Nat) : Bool := bitsOf k 32 2 = 1 && (s.fenceOf (bitsOf k 16 16)).isNone && s.fenceFree.isNone

/-- The operand of EPOCH is well formed (R331). -/
def epochOk (k : Nat) : Bool := decide (k < 2 ^ 34) && bitsOf k 32 2 ≠ 3

/-- What an EPOCH operand does (R331, R332): the fence first, then the epoch. -/
def epochApply (k : Nat) (s : State) : State :=
  epochTo (bitsOf k 0 16) (match bitsOf k 32 2 with
    | 1 => fenceAdd (bitsOf k 16 16) s
    | 2 => fenceDel (bitsOf k 16 16) s
    | _ => s)

/-- An accepted ARRIVE to EPOCH. -/
def epochUse (i : Nat) (f : Frame) (s : State) : Option State :=
  if !epochOk f.k then refuse i f .badop s
  else
    loggedUse i f (if s.fenceFull f.k then some (refuse i f .range) else none) (fun s =>
      let t := epochApply f.k s
      ((0, sysData (t.fld F.GLOBAL_MEPOCH_MEPOCH 0) t.board.epochGen), t)) s

/-- EPOCH_ARRIVE (R330 to R332). -/
def execEpochArrive (f : Src) (s : State) : Host.Outcome State Fault Refusal :=
  consume (syncUnit (· = 0x30) (· = 0xFFFF) epochUse loggedWait) f s

/-- A write to slot i of the authority set would leave no valid slot (R333). -/
def State.lastAuth (s : State) (i k : Nat) : Bool :=
  bitsOf k 16 1 = 0 && (List.range 8).all (fun j => j = i || !s.bit F.GLOBAL_AUTH_VALID j)

/-- A slot of the authority set is written (R333). -/
def authApply (j k : Nat) (s : State) : State :=
  let s := s.setReg .GLOBAL_AUTH j (BitVec.ofNat 64 k)
  { s with board := { s.board with authGen := min (s.board.authGen + 1) (2 ^ 64 - 1) } }

/-- An accepted ARRIVE to an AUTH slot. -/
def authUse (i : Nat) (f : Frame) (s : State) : Option State :=
  let j := f.object - 0xFFF0
  if decide (2 ^ 17 ≤ f.k) then refuse i f .badop s
  else
    loggedUse i f (if s.lastAuth j f.k then some (refuse i f .denied) else none) (fun s =>
      let t := authApply j f.k s
      ((0, sysData f.k t.board.authGen), t)) s

/-- AUTH_ARRIVE (R330, R333). -/
def execAuthArrive (f : Src) (s : State) : Host.Outcome State Fault Refusal :=
  consume (syncUnit (· = 0x30) (fun n => decide (0xFFF0 ≤ n) && decide (n ≤ 0xFFF7)) authUse loggedWait) f s

-- REWIND (R336, R337) --------------------------------------------------------------------------------------------------------

/-- What a core loses when its Brew is rewound or unloaded: commands, pending frames and requests, pending vector writes, held releases, its error. -/
def stopCore (c : Nat) (s : State) : State :=
  let s := eachDo (s.core c).freqs (fun q s => answerLate q (slotFree (coreSlot c) q.held s)) s
  s.modCore c (fun k => { k with
    q := [], vpend := [], stall := none, episodes := [], held := false, heldQuiz := false, freqs := [], err := 0, errq := 0, erraddr := 0, nerr := 0 })

/-- Table 12.5: core c is restored from its checkpoint and enters LOADED, or HALTED where its HALT bit is set; one in quarantine enters neither. -/
def rewindCore (c : Nat) (s : State) : State :=
  let s := (stopCore c s).modCore c (fun k => { k with g := k.chk.g, a := k.chk.a, tok := k.chk.tok })
  if (s.core c).quar then s.modCore c (fun k => { k with st := .idle }) else enterCoreSt c .loaded s

/-- R383: core c of an unloaded Brew returns to IDLE with ERR NONE; one in quarantine stays there. -/
def idleCore (c : Nat) (s : State) : State := (stopCore c s).modCore c (fun k => { k with st := .idle })

/-- A 32-bit step low word names step S or later. -/
def fromStep (low : Nat) (from_ : Word) : Bool := decide ((low + 2 ^ 32 - wbits from_ 0 32) % 2 ^ 32 < 2 ^ 31)

/-- Frames of the Brew's partitions that wait to be formed are given up: those that satisfy p. -/
def dropFormed (b : Brew) (p : Frame → Bool) (s : State) : State :=
  let mine (x : Formed) : Bool := (match x.line with
    | .part i => b.claims 7 i
    | _ => false) && p x.frame
  { s with net := { s.net with formed := s.net.formed.filter (fun x => !mine x) } }

/-- The Brew's open work of step S or later ends without a frame (R126, R171): what its units have formed of those steps and that still waits is given up first,
so that no delivery bound waits for it. -/
def stopWork (k : Nat) (b : Brew) (from_ : Word) (s : State) : State :=
  expRewind k from_ (collRewind k from_ (dropFormed b (fun f => fromStep f.step from_) s))

/-- All of the Brew's open work ends so, of whatever step (R383). -/
def stopAll (k : Nat) (b : Brew) (s : State) : State := expRewind k 0 (collRewind k 0 (dropFormed b (fun _ => true) s))

/-- Cores of the Brew that a quiz does not hold. -/
def State.freeCores (s : State) (b : Brew) : List Nat := b.cores.filter (fun c => (s.core c).st ≠ .quiz)

/-- R336: REWIND of slot k to step S. -/
def rewind (k : Nat) (step : Word) (s : State) : State :=
  match s.brews.lk none k with
  | none => s.bump F.SCHED_REWIND_REJ k
  | some b =>
    if step ≠ s.brewStep k || s.bit F.SCHED_REWIND_BUSY k then s.bump F.SCHED_REWIND_REJ k
    else
      let s := s.setFld F.SCHED_REWIND_BUSY k 1
      let s := { s with board := { s.board with rewGen := s.board.rewGen.put 0 k (min (s.board.rewGen.lk 0 k + 1) (2 ^ 64 - 1)) },
                        brews := s.brews.put none k (some { b with armed := true }) }
      eachDo (s.freeCores b) rewindCore (stopWork k b step s)

/-- An accepted ARRIVE to a REWIND object; it waits while an unload runs (R383). -/
def rewindUse (i : Nat) (f : Frame) (s : State) : Option State :=
  let k := f.object - 0xFFE0
  if s.logCase f = .apply && s.board.unload.isSome then none
  else
    loggedUse i f none (fun s =>
      let t := rewind k (BitVec.ofNat 64 f.k) s
      ((0, sysData (t.brewStep k).toNat (t.board.rewGen.lk 0 k)), t)) s

/-- A REWIND that waits: for an unload it asks for no room and no cells. -/
def rewindHold (i : Nat) (f : Frame) (s : State) : State :=
  if s.logCase f = .apply && s.board.unload.isSome then s else loggedWait i f s

/-- REWIND_ARRIVE (R330, R336). -/
def execRewindArrive (f : Src) (s : State) : Host.Outcome State Fault Refusal :=
  consume (syncUnit (· = 0x30) (fun n => decide (0xFFE0 ≤ n) && decide (n ≤ 0xFFE7)) rewindUse rewindHold) f s

/-- R336: a REWIND that was written out of band; each waits while an unload runs (R383). -/
def rewindWrite (k : Nat) (step : Word) (s : State) : State :=
  if s.board.unload.isSome then { s with board := { s.board with rewWait := s.board.rewWait.put [] k (s.board.rewWait.lk [] k ++ [step]) } }
  else rewind k step s

/-- Partitions of the Brew hold no buffer. -/
def State.partsFree (s : State) (b : Brew) : Bool :=
  (b.entries 7).all (fun i => match s.part i with
    | some p => p.use = []
    | none => true)

/-- Every Bead block that the Brew's maps name is cleared (Table 12.5). -/
def clearMaps (b : Brew) (s : State) : State := eachDo ((s.beadEntries b).map s.beadBlock) clearBlock s

/-- An unload of slot k stops the Brew's work (R383). -/
def unloadBegin (s : State) : State :=
  match s.board.unload with
  | none => s
  | some u =>
    match s.brews.lk none u.slot with
    | none => s
    | some b =>
      let s := { s with board := { s.board with unload := some { u with begun := true } } }
      eachDo (s.freeCores b) idleCore (stopAll u.slot b s)

/-- What REWIND_DONE changes. -/
def rewindDoneEffect (k : SlotId) (b : Brew) (s : State) : State :=
  let s := (((clearMaps b s).setFld F.SCHED_REWIND_BUSY k 0).setFld F.SCHED_REWIND_DONE k 1).bump F.SCHED_REWIND_COUNT k
  match s.board.unload with
  | some u => s.when (u.slot = k.val && !u.begun) unloadBegin
  | none => s

/-- REWIND_DONE (R337): no core of the Brew is in a quiz, and no buffer of its partitions is charged any more. -/
def execRewindDone (k : SlotId) (s : State) : Host.Outcome State Fault Refusal :=
  match s.brews.lk none k.val with
  | none => .next s
  | some b =>
    actIf (s.bit F.SCHED_REWIND_BUSY k && s.freeCores b = b.cores && s.partsFree b) (rewindDoneEffect k b) s

-- Commit (R381, R382) ------------------------------------------------------------------------------------------------------------

/-- A commit or an unload runs. -/
def State.loading (s : State) : Bool := s.board.commit.isSome || s.board.unload.isSome

/-- One more ARRIVE has been applied to object n. -/
def countArrive (n : Nat) (s : State) : State :=
  let o := s.obj n
  s.setObj n { o with arrives := min (o.arrives + 1) (2 ^ 64 - 1) }

/-- An accepted ARRIVE to the commit object (R382): COUNT 1 where the commit starts, 0 where a commit or an unload runs. -/
def commitUse (i : Nat) (f : Frame) (s : State) : Option State :=
  loggedUse i f none (fun s =>
    let go := !s.loading
    let t := countArrive 0xFFD0 s
    ((0, sysData (if go then 1 else 0) (t.obj 0xFFD0).gen),
      t.when go (fun s => { s with board := { s.board with commit := some { off := f.k, fnid := f.src } } }))) s

/-- COMMIT_ARRIVE (R382). -/
def execCommitArrive (f : Src) (s : State) : Host.Outcome State Fault Refusal :=
  consume (syncUnit (· = 0x30) (· = 0xFFD0) commitUse loggedWait) f s

/-- The commit ends: SCHED_COMMIT is written, and its object releases to the committer. -/
def commitEnd (r : CommitRun) (cstat : Nat) (s : State) : State :=
  let w := mkWord [(cstat, 56), (r.fnid.toNat, 32), (if cstat = 0 then wbits (s.reg .SCHED_ADMIT 0) 0 32 else 0, 0)]
  completionRelease 0xFFD0 w.toNat (some r.fnid) ({ s.setReg .SCHED_COMMIT 0 w with board := { s.board with commit := none } })

/-- The commit runs admission with the record that steps 1 and 2 read and the PWD of step 3 (R273, R382). -/
def commitAdmit (r : CommitRun) (b : Brew) (kaFail : Option Nat) (s : State) : State :=
  let seeds := recSeeds r.rcd b.nseed
  let pwd : Word × Word := (r.pwd.truncate 64, (r.pwd >>> 64).truncate 64)
  let (w, ok) := s.admission b kaFail
  let s := { s with free := s.free + 1 }.setReg .SCHED_ADMIT 0 w
  commitEnd r 0 (match ok with
    | some (k, t) => takeSlot k b seeds pwd ({ t with free := s.free }.setReg .SCHED_ADMIT 0 w)
    | none => s)

/-- The ports that the Brew's reservations name, and that are in keepalive or on their way into it or out of it (R390). -/
def State.kaPorts (s : State) (b : Brew) : List Nat :=
  (List.range 128).filter (fun p => (s.lstate p = 6 || (s.port p).ka = .entering || (s.port p).ka = .leaving) &&
    (b.entries 8).any (fun i => s.calNames i p))

/-- COMMIT_COMPLETE (R382): the checks of the record, then PWD and admission. An admission that names ports in keepalive brings them out of it and ends when
they have left, failing with CAL where one does not become UP (R390). -/
def execCommitComplete (s : State) : Host.Outcome State Fault Refusal :=
  match s.board.commit with
  | none => .next s
  | some r =>
    if r.ports ≠ [] then
      let b := recBrew r.off r.fnid r.rcd
      actIf (s.kaPorts b = []) (fun s =>
        let down := r.ports.filter (fun p => s.lstate p ≠ 5)
        commitAdmit r b ((b.entries 8).find? (fun i => down.any (s.calNames i))) s) s
    else
      let bs := s.hbmFetch r.off (bitsOf (leAt (s.hbmFetch r.off 256) 16 8) 32 32)
      let b := recBrew r.off r.fnid bs
      act (fun s =>
        if !s.recSound r.off then commitEnd r 1 s
        else if !s.recInRange b then commitEnd r 2 s
        else if s.brewList.any (fun (x : Nat × Brew) => x.2.clashes b) then commitEnd r 3 s
        else
          let p := s.pwd b (recSeeds bs b.nseed)
          let r := { r with rcd := bs, pwd := p.2 ++ p.1 }
          match s.kaPorts b with
          | [] => commitAdmit r b none s
          | ps => { eachDo ps kaLeave s with board := { s.board with commit := some { r with ports := ps } } }) s

-- Unload (R383) --------------------------------------------------------------------------------------------------------------------

/-- An unload of slot k starts; it begins at once, or when the slot's REWIND has ended. -/
def startUnload (k : Nat) (who : Option Fnid) (s : State) : State :=
  let s := { s with board := { s.board with unload := some { slot := k, who := who } } }
  if s.bit F.SCHED_REWIND_BUSY k then s else unloadBegin s

/-- An unload of slot k may start. -/
def State.canUnload (s : State) (k : Nat) : Bool := (s.brews.lk none k).isSome && !s.loading

/-- An accepted ARRIVE to an unload object (R383). -/
def unloadUse (i : Nat) (f : Frame) (s : State) : Option State :=
  loggedUse i f none (fun s =>
    let k := f.object - 0xFFD8
    let go := s.canUnload k
    let t := countArrive f.object s
    ((0, sysData (if go then 1 else 0) (t.obj f.object).gen), t.when go (startUnload k (some f.src)))) s

/-- UNLOAD_ARRIVE (R383). -/
def execUnloadArrive (f : Src) (s : State) : Host.Outcome State Fault Refusal :=
  consume (syncUnit (· = 0x30) (fun n => decide (0xFFD8 ≤ n) && decide (n ≤ 0xFFDF)) unloadUse loggedWait) f s

/-- The recheck of slot k ends (R322): AUDIT_RECHK and the RECHECK record. -/
def recheckEnd (k : Nat) (ok : Bool) (pwd : Word × Word) (s : State) : State :=
  let s := ((s.setFld F.AUDIT_RECHK_BUSY 0 0).setFld F.AUDIT_RECHK_DONE 0 1).setFld F.AUDIT_RECHK_MATCH 0 (if ok then 1 else 0)
  addRec 0x15 dieAll [mkWord [(k, 61), (if ok then 1 else 0, 0)], pwd.1, pwd.2] s

/-- The Brew of slot k releases its partitions: each goes when it holds no buffer (R262). -/
def leaveParts (b : Brew) (s : State) : State :=
  eachDo (b.entries 7) (fun i s => match s.part i with
    | some p => s.setPart i (if p.use = [] then none else some { p with leaving := true })
    | none => s) s

/-- The claims, grants and step of slot k are released (R383). -/
def freeBrew (k : Nat) (b : Brew) (s : State) : State :=
  let s := leaveParts b (clearMaps b s)
  let s := setRho { s with brews := s.brews.put none k none }
  let s := { s with
    coll := { s.coll with tainted := s.coll.tainted.filter (fun x => !b.claims (if x.1 then 2 else 0) x.2) }
    exp := { s.exp with tainted := s.exp.tainted.filter (fun x => !b.claims 1 x) } }
  let s := eachDo b.regions (fun i s => s.setFld F.MEMREG_RANGE_GRANT i (s.fld F.MEMREG_RANGE_GRANT i &&& (255 - 2 ^ k))) s
  let s := (s.setReg .SCHED_STEP k 0).setFld F.SCHED_SEEDN_NSEED k 0
  let s := (s.setReg .AUDIT_PWD (2 * k) 0).setReg .AUDIT_PWD (2 * k + 1) 0
  if s.bit F.AUDIT_RECHK_BUSY 0 && s.board.recheck = k then
    recheckEnd k false (s.freeVal, Config.freeWord (s.free + 1)) { s with free := s.free + 2 }
  else s

/-- REWIND writes that waited for the unload are decided in slot order, those of a slot in the order they were written (R383). -/
def rewindWaiting (s : State) : State :=
  let ws := s.board.rewWait.flatMap (fun (x : Nat × List Word) => x.2.map (fun w => (x.1, w)))
  eachDo ws (fun (x : Nat × Word) s => rewind x.1 x.2 s) { s with board := { s.board with rewWait := [] } }

/-- What UNLOAD_DONE changes. -/
def unloadDoneEffect (u : UnloadRun) (b : Brew) (s : State) : State :=
  let s := eachDo b.cores idleCore (stopAll u.slot b s)
  let s := freeBrew u.slot b s
  let s := { s with board := { s.board with unload := none } }
  rewindWaiting (completionRelease (0xFFD8 + u.slot) 1 u.who s)

/-- UNLOAD_DONE (R383): the unload has stopped the Brew's work and no core of it is in a quiz. -/
def execUnloadDone (s : State) : Host.Outcome State Fault Refusal :=
  match s.board.unload with
  | none => .next s
  | some u =>
    match s.brews.lk none u.slot with
    | none => .next s
    | some b =>
      actIf (u.begun && s.freeCores b = b.cores) (unloadDoneEffect u b) s

-- Recheck (R322) -------------------------------------------------------------------------------------------------------------------

/-- What AUDIT_RECHECK_DONE changes. -/
def auditRecheckDoneEffect (k : Nat) (b : Brew) (s : State) : State :=
  let seeds := (List.range (s.fld F.SCHED_SEEDN_NSEED k)).map (fun j => s.reg .SCHED_SEED (256 * k + j))
  let p := s.pwd b seeds
  recheckEnd k (p.1 = s.reg .AUDIT_PWD (2 * k) && p.2 = s.reg .AUDIT_PWD (2 * k + 1)) p s

/-- AUDIT_RECHECK_DONE (R322): PWD is recomputed over the present contents, with the seeds that are loaded. -/
def execAuditRecheckDone (s : State) : Host.Outcome State Fault Refusal :=
  let k := s.board.recheck
  match s.brews.lk none k with
  | none => .next s
  | some b =>
    actIf (s.bit F.AUDIT_RECHK_BUSY 0) (auditRecheckDoneEffect k b) s

end Sys2Proof.Machine
end

