-- ==== Sys2Proof/Machine/Link.lean ====
section
/-!
DEFINITION. Links and their states (R323 to R328, R340, R388, R408), FABRIC_UP (R375), keepalive (R389, R390), and brown-out HOLD (R342).
-/
namespace Sys2Proof

open Machine

/-- MTYPE of an MGMT frame (Table 14.17). -/
def Frame.mtype (f : Frame) : Nat := bitsOf f.h1.toNat 56 8

end Sys2Proof

namespace Sys2Proof.Machine

open Sys2Proof

-- States of a link (R324 to R326, R332) --------------------------------------------------------------------------------------

/-- The port of a fenced FNID leaves UP: the fence is removed (R332). -/
def unfencePort (p : Nat) (s : State) : State :=
  eachDo (s.fencesAt p) (fun i s => s.setFld F.GLOBAL_FENCE_VALID i 0) s

/-- LSTATE of a port changes. What was written to LANE_PMAP and LANE_CFG meanwhile is in force once the link is down or trains (R406). -/
def setLink (p n : Nat) (s : State) : State :=
  let s := if s.lstate p = 5 && n ≠ 5 then unfencePort p s else s
  let s := if n ≤ 2 then s.modPort p (fun x => { x with pmap := none, laneCfg := none, eqNow := [] }) else s
  s.setLstate p n

/-- A port leaves service, DOWN or DISABLED: credits, queued frames, and the layers of its endpoints (R219, R236, R160, R169). -/
def portOut (p n : Nat) (s : State) : State := expPort p (portDrop p (setLink p n s))

/-- R325: a link is declared down; its training begins at the next tick. -/
def linkDown (p : Nat) (s : State) : State :=
  (portOut p 1 (s.bump F.PORT_HEALTH_DOWNS p)).modPort p (fun x => { x with rest := false })

/-- R375: the condition of FABRIC_UP. -/
def State.fabricUp (s : State) : Bool :=
  let req := s.portList.filter (fun p => (s.port p).required)
  s.kettle.phase = .up && !s.idle &&
    (if req = [] then s.portList.any (fun p => s.lstate p = 5) else req.all (fun p => s.lstate p = 5))

/-- FABRIC_UP is noted once it has been asserted. -/
def noteFabric (s : State) : State := if s.fabricUp then { s with kettle := { s.kettle with fabOnce := true } } else s

/-- A port becomes UP. -/
def portUp (p : Nat) (s : State) : State := noteFabric ((setLink p 5 s).modPort p (fun x => { x with lastData := s.now }))

/-- R375: the time in which switch-facing ports need no bank switch: until FABRIC_UP was first asserted, or 10 s after READY. -/
def State.bootWindow (s : State) : Bool := !s.kettle.fabOnce && decide (s.now < s.kettle.readyAt + ms 10000)

/-- A unit command ends (R339); a RETURN says whether it met its condition. -/
def unitEnd (pass : Option Bool) (s : State) : State :=
  let s := (s.setFld F.GLOBAL_UNITCMD_BUSY 0 0).setFld F.GLOBAL_UNITCMD_DONE 0 1
  match pass with
  | some b => s.setFld F.GLOBAL_UNITCMD_PASS 0 (if b then 1 else 0)
  | none => s

/-- A clean PROBMS has passed (R325, R340, R375): UP where the port faces an endpoint or the boot window is open, HELD otherwise; the RETURN of the port passes. -/
def passProbation (p : Nat) (s : State) : State :=
  let s := s.modPort p (fun x => { x with probOk := s.now + 1, probRet := x.returning })
  let s := if (s.port p).edge || s.bootWindow then portUp p s else setLink p 4 s
  if (s.port p).returning then unitEnd (some true) (s.modPort p (fun x => { x with returning := false })) else s

/-- The port passed probation in this very tick. -/
def State.passedNow (s : State) (p : Nat) : Bool := (s.lstate p = 4 || s.lstate p = 5) && (s.port p).probOk = s.now + 1

/-- A miss or an uncorrectable codeword falls in probation, which restarts (R325); one that falls in the tick in which the port passed applies before the
pass (R345, log entry 105). -/
def probFail (p : Nat) (s : State) : State :=
  if s.lstate p = 3 then (s.bump F.PORT_HEALTH_PROBFAIL p).modPort p (fun x => { x with probBad := s.now + 1 })
  else if s.passedNow p then
    let s := ((s.setLstate p 3).bump F.PORT_HEALTH_PROBFAIL p).modPort p (fun x => { x with probBad := s.now + 1, returning := x.probRet })
    s.when (s.port p).probRet (fun s =>
      ((s.setFld F.GLOBAL_UNITCMD_BUSY 0 1).setFld F.GLOBAL_UNITCMD_DONE 0 0).setFld F.GLOBAL_UNITCMD_PASS 0 0)
  else s

-- BEAT frames and the receiver's intervals (R323, R324) --------------------------------------------------------------------------

/-- What BEAT_RX changes. -/
def beatRxEffect (p : PortId) (rx : RxFrame) (s0 : State) : State :=
  match rxHead p rx s0 with
  | (none, s) => s
  | (some i, s) =>
    if !s0.forMe rx.frame then s0
    else if !tailOk rx then discard i (tailFail p rx s)
    else discard i (s.when (tainted rx.frame) (fun s => s.bump F.PORT_RXFRAME_BADIN p))

/-- BEAT_RX (R323, R324): a BEAT addressed to this switch, which consumes it at once. One for another node is forwarded (R202). -/
def execBeatRx (f : Src) (s : State) : Host.Outcome State Fault Refusal :=
  match f with
  | .inbox _ => .next s
  | .port p rx =>
    actIf (s.linked p && rx.frame.kind = 9) (beatRxEffect p rx) s

/-- What BEAT_SEND changes. -/
def beatSendEffect (p : PortId) (s : State) : State :=
  let x := s.port p
  let s := linkFrame p { kind := 9, vc := 0, dst := s.peerFnid p, h1 := mkWord [(s.lstate p, 8), (x.bseq % 256, 0)] } s
  s.modPort p (fun x => { x with bseq := (x.bseq + 1) % 256 })

/-- BEAT_SEND (R323): LSTATE and BSEQ of the sender. -/
def execBeatSend (p : PortId) (s : State) : Host.Outcome State Fault Refusal :=
  actIf (s.linked p) (beatSendEffect p) s

/-- Lane 0 is being retrained for keepalive, or the lanes for full rate. -/
def Port.inTransition (x : Port) : Bool := x.ka = .entering || x.ka = .leaving

/-- What HEARTBEAT_INTERVAL changes. -/
def heartbeatIntervalEffect (p : PortId) (s : State) : State :=
  let x := s.port p
  let hold := x.inTransition
  let s := s.modPort p (fun x => { x with heard := false, ucw := 0 })
  let reaches := !x.heard && !hold && decide (s.fld F.PORT_HEALTH_MISSRUN p + 1 = s.fld F.PORT_HB_CFG_MISSLIM 0)
  let s := if hold then s else if x.heard then s.setFld F.PORT_HEALTH_MISSRUN p 0 else probFail p (s.bump F.PORT_HEALTH_MISSRUN p)
  if reaches || decide (s.fld F.PORT_HB_CFG_UCWBURST 0 ≤ x.ucw) then linkDown p s
  else s

/-- HEARTBEAT_INTERVAL (R324): MISSRUN, which is held during a keepalive transition (R390); probation; and the two conditions that declare the link down:
an interval that brings MISSRUN to MISSLIM, or one with a burst of codewords (log entry 76). -/
def execHeartbeatInterval (p : PortId) (s : State) : Host.Outcome State Fault Refusal :=
  actIf (s.linked p) (heartbeatIntervalEffect p) s

-- Training and probation (R325, R388) -----------------------------------------------------------------------------------------------

/-- The port trains: it is in TRAINING, and not in the pause after a failed training. -/
def State.trains (s : State) (p : Nat) : Bool := (s.port p).present && s.lstate p = 2 && !(s.port p).rest

/-- The equalisation settings that training gives a lane, laid out as LANE_CFG: transmitter coefficients within the ranges of R406, with at most 92 steps in
all; the receiver's peaking, 0 to 40 half dB, in bits [39:34]; and, in what is left, what the manual sets no limit to. Which ones training finds is open:
w is a free value. -/
def eqWord (w : Word) : Word :=
  let a := wbits w 0 16 % 13
  let b := wbits w 16 16 % 25
  let c := wbits w 32 12 % min 69 (93 - a - b)
  let d := wbits w 44 12 % min 41 (93 - a - b - c)
  let neg (x : Nat) : Nat := (256 - x) % 256
  mkWord [(wbits w 40 24, 40), (wbits w 56 8 % 41, 34), (neg a, 24), (b, 16), (neg c, 8), (neg d, 0)]

/-- What TRAINING_SUCCESS changes: the equalisation settings of each lane are stored for fast resume, and are in force (R388). -/
def trainingSuccessEffect (p : PortId) (s : State) : State :=
  let n := if (s.port p).wide then 8 else 4
  let eq := (List.range n).map (fun l => eqWord (Config.freeWord (s.free + l)))
  let s := linkUp p (setLink p 3 { s with free := s.free + n })
  s.modPort p (fun x => { x with heard := false, ucw := 0, eqSet := eq, eqNow := eq })

/-- TRAINING_SUCCESS (R325, R388, R216): the link comes up and enters PROBATION. -/
def execTrainingSuccess (p : PortId) (s : State) : Host.Outcome State Fault Refusal :=
  actIf (s.trains p) (trainingSuccessEffect p) s

/-- What TRAINING_TIMEOUT changes. -/
def trainingTimeoutEffect (p : PortId) (s : State) : State := (s.bump F.PORT_KA_TRAINFAIL p).modPort p (fun x => { x with rest := true })

/-- TRAINING_TIMEOUT (R388). -/
def execTrainingTimeout (p : PortId) (s : State) : Host.Outcome State Fault Refusal :=
  actIf (s.trains p) (trainingTimeoutEffect p) s

/-- What TRAINING_RESTART changes. -/
def trainingRestartEffect (p : PortId) (s : State) : State :=
  (setLink p 2 s).modPort p (fun x => { x with rest := false })

/-- TRAINING_RESTART (R388). -/
def execTrainingRestart (p : PortId) (s : State) : Host.Outcome State Fault Refusal :=
  actIf ((s.port p).present && s.lstate p = 2 && (s.port p).rest) (trainingRestartEffect p) s

/-- PROBATION_PASS (R325); not in a tick in which a miss or an uncorrectable codeword fell (R345). -/
def execProbationPass (p : PortId) (s : State) : Host.Outcome State Fault Refusal :=
  actIf ((s.port p).present && s.lstate p = 3 && (s.port p).probBad ≠ s.now + 1) (passProbation p) s

/-- The lanes of a port (R17). -/
def State.laneOf (s : State) (p l : Nat) : Bool := decide (4 * p ≤ l) && decide (l < 4 * p + if (s.port p).wide then 8 else 4)

/-- What CORRECTED_CODEWORD changes. -/
def correctedCodewordEffect (p : PortId) (syms : List (LaneId × Nat)) (s : State) : State :=
  eachDo syms (fun x s => s.bumpN F.LANE_FEC_CSYM x.1 x.2) (s.bump F.LANE_FECCW_CCW p)

/-- Lane l carries port p now: every lane of the port, and in KEEPALIVE lane 0 alone (R18). -/
def State.laneLive (s : State) (p l : Nat) : Bool := if s.lstate p = 6 then l = 4 * p else s.laneOf p l

/-- CORRECTED_CODEWORD (R408): CCW, and each lane's corrected symbols. -/
def execCorrectedCodeword (p : PortId) (syms : List (LaneId × Nat)) (s : State) : Host.Outcome State Fault Refusal :=
  actIf (s.linked p && syms.all (fun x => s.laneLive p x.1)) (correctedCodewordEffect p syms) s

/-- A frame whose ingress ended before its last byte (R211): one being sent cut-through is completed with TRUNC, any other is discarded. -/
def brokenFrame (p : Nat) (rx : RxFrame) (s : State) : State :=
  match rxHead p rx s with
  | (none, s) => s
  | (some i, s) =>
    if s.forMe rx.frame || rx.frame.dst = mcastDst then discard i (tailFail p rx s) else forwardArrive i p rx s

/-- What UNCORRECTABLE_CODEWORD changes. -/
def uncorrectableCodewordEffect (p : PortId) (during : Option RxFrame) (s : State) : State :=
  let s := probFail p ((s.bump F.LANE_FECCW_UCW p).modPort p (fun x => { x with ucw := x.ucw + 1 }))
  match during with
  | some rx => if rx.cut.isSome then brokenFrame p rx s else s
  | none => s

/-- UNCORRECTABLE_CODEWORD (R408, R211, R325). -/
def execUncorrectableCodeword (p : PortId) (during : Option RxFrame) (s : State) : Host.Outcome State Fault Refusal :=
  actIf (s.linked p) (uncorrectableCodewordEffect p during) s

-- Failure of the device (R328) ----------------------------------------------------------------------------------------------------------

/-- R328: GLOBAL_FAULT.D2D, and every fabric port DISABLED; the device fails stop. -/
def failStop (s : State) : State :=
  let s := raiseFault F.GLOBAL_FAULT_D2D dieAll 0 0xFF s
  let s := eachDo s.portList (fun p s => portOut p 0 s) s
  { s with kettle := { s.kettle with phase := .failstop } }

/-- D2D_LINK_FAIL (R328). -/
def execD2dLinkFail (a b : Fin 4) (s : State) : Host.Outcome State Fault Refusal :=
  actIf (a ≠ b && decide (s.kettle.phase = .up)) failStop s

-- Keepalive (R390) ------------------------------------------------------------------------------------------------------------------------

/-- LANE_PMAP of a port as it is in force: a write to a port that is not DISABLED or DOWN waits for its next training (R406). -/
def State.pmapNow (s : State) (p : Nat) : Word := (s.port p).pmap.getD (s.reg .LANE_PMAP p)

/-- LANE_PMAP of a port, which was old, has been written. -/
def pmapHold (p : Nat) (old : Word) (s : State) : State :=
  if s.lstate p ≤ 1 then s else s.modPort p (fun x => { x with pmap := some (x.pmap.getD old) })

/-- The first lane of a port and how many it has (R17). -/
def Port.lanes (x : Port) : Nat := if x.wide then 8 else 4

/-- LANE_CFG of lane l of port p as it is in force: a write to a port that is not DISABLED or DOWN waits for its next training (R406). -/
def State.laneCfgNow (s : State) (p l : Nat) : Word :=
  match (s.port p).laneCfg with
  | some ws => ws.getD (l - 4 * p) 0
  | none => s.reg .LANE_CFG l

/-- LANE_CFG of lane l of port p, which was old, has been written. -/
def laneCfgHold (p l : Nat) (old : Word) (s : State) : State :=
  if s.lstate p ≤ 1 || (s.port p).laneCfg.isSome then s
  else s.modPort p (fun x => { x with
    laneCfg := some ((List.range x.lanes).map (fun i => if 4 * p + i = l then old else s.reg .LANE_CFG (4 * p + i))) })

/-- Lanes of the port are reversed: it never enters keepalive (R407). -/
def State.reversed (s : State) (p : Nat) : Bool := wbits (s.pmapNow p) 0 2 ≠ 0

/-- KAOK of the image; a port with reversed lanes is treated as clear (R407). -/
def State.kaAllowed (s : State) (p : Nat) : Bool :=
  (s.port p).present && (s.port p).kaok && s.bit F.PORT_KA_ENABLE p && !s.reversed p

/-- A reservation of an admitted Brew names the port (R272). -/
def State.reserved (s : State) (p : Nat) : Bool := s.brewList.any (fun (x : Nat × Brew) => (x.2.entries 8).any (fun i => s.calNames i p))

/-- The conditions of Table 14.18, the idle time apart. -/
def State.kaReady (s : State) (p : Nat) : Bool :=
  s.kaAllowed p && s.lstate p = 5 && !s.reserved p && ((s.port p).edge || !s.bankBusy)

/-- No frame on a VC other than VC0 is queued for the port. -/
def State.quiet (s : State) (p : Nat) : Bool :=
  (List.range 32).all (fun q => ((s.port p).queue q).live.all (fun e => match s.buf e.buf with
    | some b => b.frame.vc = 0
    | none => true))

/-- What KA_IDLE_TIMEOUT changes. -/
def kaIdleTimeoutEffect (p : PortId) (s : State) : State :=
  mgmtFrame p 0x01 [] (s.modPort p (fun x => { x with ka := .asked }))

/-- KA_IDLE_TIMEOUT: KA_REQ is sent. -/
def execKaIdleTimeout (p : PortId) (s : State) : Host.Outcome State Fault Refusal :=
  actIf (s.kaReady p && (s.port p).ka = .none && decide ((s.port p).lastData + ms (s.fld F.PORT_KA_IDLEMS p) ≤ s.now)) (kaIdleTimeoutEffect p) s

/-- A MGMT frame of some MTYPEs: what it does on the port it arrived on. -/
def mgmtUnit (types : Nat → Bool) (use : Nat → Frame → State → State) : Unit where
  takes f _ := f.kind = 8 && types f.mtype
  use i f s :=
    match s.buf i with
    | none => some s
    | some b => some (discard i (match b.inPort with
      | some p => use p f s
      | none => s))

/-- The port starts its way into keepalive. -/
def kaEnter (p : Nat) (s : State) : State := s.modPort p (fun x => { x with ka := .entering })

/-- A KA_REQ has come (R390): a port that may enter keepalive acknowledges it, or takes it as the answer to its own request; another refuses. -/
def kaAsked (p : Nat) (_ : Frame) (s : State) : State :=
  let x := s.port p
  if s.kaReady p && s.quiet p && x.ka = .asked then kaEnter p s
  else if s.kaReady p && s.quiet p && x.ka = .none then kaEnter p (mgmtFrame p 0x02 [] s)
  else mgmtFrame p 0x03 [] (s.when (x.ka = .asked) (fun s => s.modPort p (fun x => { x with ka := .none })))

/-- KA_REQ: acknowledged where this end may enter keepalive too, else refused; where both ends have asked, each takes the other's request as KA_ACK. -/
def execKaReq (f : Src) (s : State) : Host.Outcome State Fault Refusal := consume (mgmtUnit (· = 0x01) kaAsked) f s

/-- Something keeps the port out of keepalive or calls it back (Table 14.18): a frame on a VC other than VC0 is queued, a reservation names it, or it
faces a switch while a route bank is ARMED or DRAINING. -/
def State.kaRecall (s : State) (p : Nat) : Bool := !s.quiet p || s.reserved p || (!(s.port p).edge && s.bankBusy)

/-- A KA_ACK has come to a request that is pending: the port is on its way into keepalive, and turns back at once where something calls it back. One whose
lanes are reversed stays at full rate (R407). -/
def kaAcked (p : Nat) (_ : Frame) (s : State) : State :=
  if (s.port p).ka = .asked && s.reversed p then s.modPort p (fun x => { x with ka := .none })
  else if (s.port p).ka = .asked then
    let s := kaEnter p s
    if s.kaRecall p then kaLeave p s else s
  else s

/-- KA_ACK: to a request that is pending. -/
def execKaAck (f : Src) (s : State) : Host.Outcome State Fault Refusal := consume (mgmtUnit (· = 0x02) kaAcked) f s

/-- KA_NAK: the port stays at full rate. -/
def execKaNak (f : Src) (s : State) : Host.Outcome State Fault Refusal :=
  consume (mgmtUnit (· = 0x03) (fun p _ s =>
    if (s.port p).ka = .asked || (s.port p).ka = .entering then s.modPort p (fun x => { x with ka := .none }) else s)) f s

/-- KA_EXIT: the port returns to full rate. -/
def execKaExit (f : Src) (s : State) : Host.Outcome State Fault Refusal := consume (mgmtUnit (· = 0x04) (fun p _ s => kaLeave p s)) f s

/-- MGMT_UNKNOWN (R389): a reserved MTYPE. -/
def execMgmtUnknown (f : Src) (s : State) : Host.Outcome State Fault Refusal :=
  consume (mgmtUnit (fun t => !(decide (1 ≤ t) && decide (t ≤ 5)) && t ≠ 0x10) (fun p _ s => s.bump F.PORT_KA_MGMTUNK p)) f s

/-- What KEEPALIVE_ENTERED changes. No full-rate equalisation is in force any more. -/
def keepaliveEnteredEffect (p : PortId) (s : State) : State :=
  (setLink p 6 (s.modPort p (fun x => { x with ka := .none, eqNow := [] }))).bump F.PORT_KA_ENTRIES p

/-- KEEPALIVE_ENTERED. -/
def execKeepaliveEntered (p : PortId) (s : State) : Host.Outcome State Fault Refusal :=
  actIf ((s.port p).ka = .entering) (keepaliveEnteredEffect p) s

/-- KEEPALIVE_ENTRY_TIMEOUT: declared down 1 ms after the ACK. -/
def execKeepaliveEntryTimeout (p : PortId) (s : State) : Host.Outcome State Fault Refusal :=
  actIf ((s.port p).ka = .entering) (linkDown p) s

/-- R267: a return to full rate brings every queue's E up to V. -/
def floorQueues (p : Nat) (s : State) : State :=
  eachDo (List.range 32) (fun q s =>
    let x := (s.port p).queue q
    if x.e < s.vtime then s.setQueue p q { x with e := s.vtime, rem := 0 } else s) s

/-- What KEEPALIVE_EXIT_DONE changes. -/
def keepaliveExitDoneEffect (p : PortId) (s : State) : State :=
  portUp p (floorQueues p ((s.modPort p (fun x => { x with ka := .none })).bump F.PORT_KA_EXITS p))

/-- KEEPALIVE_EXIT_DONE. -/
def execKeepaliveExitDone (p : PortId) (s : State) : Host.Outcome State Fault Refusal :=
  actIf ((s.port p).ka = .leaving) (keepaliveExitDoneEffect p) s

/-- KEEPALIVE_EXIT_TIMEOUT: declared down 2 ms after KA_EXIT. -/
def execKeepaliveExitTimeout (p : PortId) (s : State) : Host.Outcome State Fault Refusal :=
  actIf ((s.port p).ka = .leaving) (linkDown p) s

-- Unit commands on ports (R339) ----------------------------------------------------------------------------------------------------------------

/-- REMOVE of a port: DISABLED at once. -/
def portRemove (p : Nat) (s : State) : State := unitEnd none (if s.lstate p = 0 then s else portOut p 0 s)

/-- RETURN of a port: a DISABLED one trains; it passes when the port has passed probation. After a fail stop none trains (R328). -/
def portReturn (p : Nat) (s : State) : State :=
  if s.lstate p = 4 || s.lstate p = 5 || s.lstate p = 6 then unitEnd (some true) s
  else
    let s := if s.lstate p = 0 && s.kettle.phase ≠ .failstop then (setLink p 2 s).modPort p (fun x => { x with rest := false }) else s
    (s.modPort p (fun x => { x with returning := true })).setFld F.GLOBAL_UNITCMD_BUSY 0 1

/-- What UNIT_RETURN_TIMEOUT changes. -/
def unitReturnTimeoutEffect (p : Nat) (s : State) : State :=
  unitEnd (some false) (s.modPort p (fun x => { x with returning := false }))

/-- UNIT_RETURN_TIMEOUT (R339): the port has not passed probation within 10 s. -/
def execUnitReturnTimeout (s : State) : Host.Outcome State Fault Refusal :=
  match s.portList.find? (fun p => (s.port p).returning) with
  | none => .next s
  | some p => act (unitReturnTimeoutEffect p) s

-- Brown-out HOLD (R342, R399) ----------------------------------------------------------------------------------------------------------------------

/-- The core dies have left reset, or are about to: their rails are watched. -/
def State.railsOn (s : State) : Bool :=
  match s.kettle.phase with
  | .booting | .verified | .up | .failstop => true
  | _ => false

/-- What HOLD_ENTER changes. -/
def holdEnterEffect (mv : Nat) (s : State) : State :=
  let s := { s with hold := { s.hold with start := s.now, minMv := mv } }
  raiseFault F.GLOBAL_FAULT_BROWNOUT dieAll 0 0xFF (s.setFld F.GLOBAL_HOLD_INHOLD 0 1)

/-- HOLD_ENTER: VDD_CORE has fallen below the warning level of 0.700 V. -/
def execHoldEnter (mv : Nat) (s : State) : Host.Outcome State Fault Refusal :=
  actIf (s.railsOn && !s.bit F.GLOBAL_HOLD_INHOLD 0 && decide (mv < 700)) (holdEnterEffect mv) s

/-- A HOLD ends: GLOBAL_HOLD, the HOLD record, the lifetime minimum of the core dies, and the delivery-bound clock (R342, R349, R127). -/
def holdEnd (minMv : Nat) (reset : Bool) (s : State) : State :=
  let mv := min (min s.hold.minMv minMv) 65535
  let dur := (s.now - s.hold.start) / us 1
  let s := ((s.setFld F.GLOBAL_HOLD_INHOLD 0 0).bump F.GLOBAL_HOLD_EVENTS 0).setFld F.GLOBAL_HOLD_LASTMINMV 0 mv
  let s := s.setFld F.GLOBAL_HOLD_LASTDUR 0 (min dur 65535)
  let s := { s with hold := { start := 0, sum := s.hold.sum + (s.now - s.hold.start), last := s.now, minMv := 0 } }
  let s := eachDo (List.range 4) (fun d s =>
    let l := s.kettle.life.lk {} d
    { s with kettle := { s.kettle with life := s.kettle.life.put {} d { l with minMv := min l.minMv mv } } }) s
  addRec 0x08 dieAll [mkWord [(min dur (2 ^ 32 - 1), 32), (if reset then 1 else 0, 16), (mv, 0)]] s

/-- HOLD_EXIT: the rail has stayed above 0.715 V for 50 µs. Tokens that waited for the exit are committed (R172). -/
def execHoldExit (minMv : Nat) (s : State) : Host.Outcome State Fault Refusal :=
  actIf (s.bit F.GLOBAL_HOLD_INHOLD 0) (fun s => expKick (holdEnd minMv false s)) s

end Sys2Proof.Machine
end

