-- ==== Sys2Proof/Machine/Health.lean ====
section
/-!
DEFINITION. Monitors (R350, R351), shadow checks and quarantine (R352 to R355), quizzes (R69, R356 to R358), ECC errors (R129, R169, R279), unit commands on
cores and stacks (R339), and island sleep and wake (R385 to R387).
-/
namespace Sys2Proof.Machine

open Sys2Proof

-- Quarantine (R355) ---------------------------------------------------------------------------------------------------------

/-- Change the lifetime figures of a die (R349). -/
def modLife (d : Nat) (f : Life → Life) (s : State) : State :=
  { s with kettle := { s.kettle with life := s.kettle.life.put {} d (f (s.kettle.life.lk {} d)) } }

/-- R355: core c is quarantined, for a cause, with a bin; one already in quarantine stays so. -/
def quarantine (c cause bin : Nat) (s : State) : State :=
  if (s.core c).quar then s
  else
    let s := s.modCore c (fun k => { k with quar := true })
    let s := raiseFault F.GLOBAL_FAULT_COREQ (coreDie c) (s.core c).statusWord c s
    let w := mkWord [(c % 256, 56), (cause, 48), (bin % 256, 40), (s.fld F.ROD_SHADOW_MISMATCH (16 * c + bin), 0)]
    collQuar c (expCoreQuar c (addRec 0x0C (coreDie c) [w] s))

/-- A quarantine that no bin caused: BIN of its record is open. -/
def quarantineFree (c cause : Nat) (s : State) : State := quarantine c cause (s.freeVal.toNat % 16) s.freed

-- What a check recomputes (R353) ----------------------------------------------------------------------------------------------------

/-- A reduction block from its contributions and partials, by the rules of the number formats. -/
def reduceResult (fi fo : Fmt) (code : Option Nat) (ins : List Block) (parts : List (List Byte)) : OutBlock :=
  let ds := ins.map (fun v => (v.dec fi).map Dec.cls)
  let code := code.getD (blockCode ds.flatten)
  let E : Int := if fi.isInt then 70 else codeE code
  let own := ds.foldl (fun l e => (l.zip e).map (fun (y : Bead × Cls) => beadAdd y.1 (y.2.enter E).1)) (rep 32 (0 : Bead))
  let sums := parts.foldl (fun l bs => (List.range 32).map (fun k => l.getD k 0 + beadAt bs (12 * k))) own
  (blockOut fo code sums).1

/-- The format of a code, a reserved one read as BF16 (log entry 127). -/
def fmtOf (code : Nat) : Fmt := (Fmt.ofCode code).getD .bf16

/-- The result of copied inputs, in bytes as the subject's: what a core computes that makes no error (R92, R107, R164). -/
def ShadowIn.result (x : ShadowIn) : List Byte :=
  let bytes (o : Block) : List Byte := bytesLE 1 o.scale ++ (o.els.map (bytesLE 4)).flatten
  match x with
  | .tile w a b c => (tmmTile { w := w } a b c).1
  | .reduce fi fo code ins parts => bytes (reduceResult (fmtOf fi) (fmtOf fo) code ins parts)
  | .combine fi fo ins => bytes (combinedOf (fmtOf fi) (fmtOf fo) ins).1
  | .open_ out => out

-- Shadow checks (R353, R354) ----------------------------------------------------------------------------------------------------

/-- A core that completed a computation for a check counts it in its bin. -/
def countCheck (c bin : Nat) (s : State) : State := s.bump F.ROD_SHADOW_CHECKS (16 * c + bin)

/-- Core c is charged in a bin; at THRESH it is quarantined (R354, R355). -/
def charge (c bin : Nat) (s : State) : State :=
  let s := s.bump F.ROD_SHADOW_MISMATCH (16 * c + bin)
  let t := s.fld F.KETTLE_SHADOW_CFG_THRESH 0
  if t ≠ 0 && decide (t ≤ s.fld F.ROD_SHADOW_MISMATCH (16 * c + bin)) then quarantine c 0 bin s else s

/-- Check i leaves the shadow store. -/
def dropCheck (i : Nat) (s : State) : State := { s with shadow := { s.shadow with checks := s.shadow.checks.eraseIdx i } }

/-- The SHADOW record of a mismatch. -/
def shadowRec (x : ShadowChk) (outcome : Nat) (s : State) : State :=
  let d := coreDie x.subject
  addRec 0x0B d [
    mkWord [(x.kind, 56), (x.subject, 48), (x.checker, 40), (x.arbiter.getD 0xFF, 32), (outcome, 24), (x.binS, 16), (x.binC, 8)], x.ref, x.blk,
    mkWord [(s.fld F.KETTLE_TEMP_TNOW d, 48), (s.kettle.coreMv % 65536, 32), (x.load, 24)], mkWord [(wbits x.step 0 32, 0)]] s

/-- A check ends with an outcome: 0 the subject was wrong, 1 the checker, 2 unresolved. -/
def shadowEnd (i : Nat) (x : ShadowChk) (outcome : Nat) (s : State) : State :=
  let s := dropCheck i (shadowRec x outcome s)
  let s := if outcome = 2 then s.bump F.KETTLE_SHADOW_STAT_UNRESOLVED 0 else s
  let s := if outcome ≠ 1 then charge x.subject x.binS s else s
  if outcome ≠ 0 then charge x.checker x.binC s else s

/-- What SHADOW_CHECK_DONE changes. -/
def shadowCheckDoneEffect (i : Nat) (out : List Byte) (x : ShadowChk) (s : State) : State :=
  let bin := s.binOf x.checker (s.islandLoad x.checker)
  let s := countCheck x.checker bin s
  if out = x.out then dropCheck i s
  else
    let s := s.bump F.KETTLE_SHADOW_STAT_MISMATCH 0
    let rest := ((checkOrder x.subject).dropWhile (· ≠ x.checker)).drop 1
    match rest.find? s.canCheck with
    | none => shadowEnd i { x with binC := bin } 2 s
    | some a =>
      let y := { x with chkOut := some out, binC := bin, arbiter := some a }
      { s with shadow := { s.shadow with checks := s.shadow.checks.set i y } }

/-- SHADOW_CHECK_DONE (R353, R354): check i's checker has recomputed the result, or has got another one where an error upset it; equal outputs end the check,
others go to the next core of the order. -/
def execShadowCheckDone (i : Nat) (upset : Option (List Byte)) (s : State) : Host.Outcome State Fault Refusal :=
  match s.shadow.checks[i]? with
  | none => .next s
  | some x =>
    actIf x.chkOut.isNone (shadowCheckDoneEffect i (upset.getD x.ins.result) x) s

/-- What SHADOW_ARBITER_DONE changes. -/
def shadowArbiterDoneEffect (i : Nat) (out : List Byte) (x : ShadowChk) (o : List Byte) (a : Nat) (s : State) : State :=
  let bin := s.binOf a (s.islandLoad a)
  let s := countCheck a bin s
  shadowEnd i x (if out = x.out then 1 else if out = o then 0 else 2) s

/-- SHADOW_ARBITER_DONE (R354). -/
def execShadowArbiterDone (i : Nat) (upset : Option (List Byte)) (s : State) : Host.Outcome State Fault Refusal :=
  match s.shadow.checks[i]? with
  | none => .next s
  | some x =>
    match x.chkOut, x.arbiter with
    | some o, some a =>
      act (shadowArbiterDoneEffect i (upset.getD x.ins.result) x o a) s
    | _, _ => .next s

/-- What SHADOW_CHECK_ABANDON changes. -/
def shadowCheckAbandonEffect (i : Nat) (s : State) : State :=
  let s := match s.shadow.checks[i]? with
    | some x => s.when x.chkOut.isSome (shadowRec x 2)
    | none => s
  (dropCheck i s).bump F.KETTLE_SHADOW_STAT_SKIP 0

/-- SHADOW_CHECK_ABANDON (R354): check i has not ended 100 µs after sampling. Where its outputs had differed, the mismatch has its record (log entry 123). -/
def execShadowCheckAbandon (i : Nat) (s : State) : Host.Outcome State Fault Refusal :=
  actIf (decide (i < s.shadow.checks.length)) (shadowCheckAbandonEffect i) s

-- Core quizzes (R69, R356, R358) ----------------------------------------------------------------------------------------------------

/-- The units of the device run: it has been given READY and is not in IDLE. -/
def State.unitsOn (s : State) : Bool := decide (s.kettle.phase = .up) && !s.idle

/-- Some core of the island is named by an admitted Brew. -/
def State.islandNamed (s : State) (n : Nat) : Bool := (List.range 4).any (fun j => (s.brewOf (4 * n + j)).isSome)

/-- The quiz takes the core: STATE reads QUIZ, and the state it left is kept (R69). -/
def quizStart (c : Nat) (ret : Bool) (s : State) : State := s.modCore c (fun k => { k with st := .quiz, prior := k.st, returnQuiz := ret })

/-- R69: a quiz may run on the core: IDLE, or STEPWAIT with its queues empty. -/
def Core.quizzable (k : Core) : Bool := !k.quar && (k.st = .idle || (k.st = .stepwait && (List.range 5).all (fun q => k.qlen q = 0)))

/-- What CORE_QUIZ_DUE changes. -/
def coreQuizDueEffect (c : CoreId) (s : State) : State :=
  if s.bit F.ROD_ISLAND_ASLEEP (c / 4) then s.wakeIsland (c / 4) else quizStart c false s

/-- CORE_QUIZ_DUE (R356, R358): on an awake island the quiz starts; a sleeping island whose cores no Brew names is woken for it. -/
def execCoreQuizDue (c : CoreId) (s : State) : Host.Outcome State Fault Refusal :=
  actIf (s.unitsOn && (s.core c).quizzable && s.fld F.KETTLE_QUIZ_CFG_COREINT 0 ≠ 0 && !s.bit F.GLOBAL_HOLD_INHOLD 0 &&
      (!s.bit F.ROD_ISLAND_ASLEEP (c / 4) || !s.islandNamed (c / 4))) (coreQuizDueEffect c) s

/-- The core goes back to the state it left; what waited for the quiz follows: a REWIND, an unload, a step release (R69, R337, R383). -/
def quizRestore (c : Nat) (s : State) : State :=
  let k := s.core c
  let wait := k.heldQuiz
  let s := s.modCore c (fun k => { k with heldQuiz := false })
  let s := if k.prior = .idle then s.modCore c (fun k => { k with st := .idle }) else enterCoreSt c k.prior s
  match s.brewOf c with
  | none => s
  | some b =>
    if s.unloading b then idleCore c s
    else if s.bit F.SCHED_REWIND_BUSY b then rewindCore c s
    else if wait then acceptRelease b c s
    else s

/-- What CORE_QUIZ_END changes. -/
def coreQuizEndEffect (c : CoreId) (expected obtained : BitVec 32) (s : State) : State :=
  let pass : Bool := expected = obtained
  let ret := (s.core c).returnQuiz
  let s := quizRec 0 c (coreDie c) (if pass then 0 else 1) expected.toNat obtained.toNat s
  let s := if pass then s else s.bump F.KETTLE_QUIZ_STAT_COREFAIL 0
  if ret then
    let s := s.modCore c (fun k => { k with st := .idle, returnQuiz := false, quar := k.quar && !pass })
    unitEnd (some pass) (if pass then s else quarantineFree c 1 s)
  else
    let s := quizRestore c s
    if pass then s else quarantineFree c 1 s

/-- CORE_QUIZ_END (R69, R339, R355, R356): a failure quarantines the core. -/
def execCoreQuizEnd (c : CoreId) (expected obtained : BitVec 32) (s : State) : Host.Outcome State Fault Refusal :=
  actIf (decide ((s.core c).st = .quiz)) (coreQuizEndEffect c expected obtained) s

-- Lane quizzes (R356, R357) ------------------------------------------------------------------------------------------------------------

/-- The payload of the quiz frame QSEQ, with ECHO. -/
def quizPayload (q : Nat) (echo : Bool) : List Byte :=
  wordsToBytes (mkWord [(q, 32), (if echo then 1 else 0, 0)] ::
    (List.range 63).map (fun i => jrand 0 (BitVec.ofNat 64 q) 0x514C (BitVec.ofNat 32 (i + 1))))

/-- What LANE_QUIZ_DUE changes. -/
def laneQuizDueEffect (p : PortId) (s : State) : State :=
  let q := s.kettle.qseq
  let s := s.modPort p (fun x => { x with quiz := some { sent := q } })
  mgmtFrame p 0x10 (quizPayload q false) { s with kettle := { s.kettle with qseq := (q + 1) % 2 ^ 32 } }

/-- LANE_QUIZ_DUE: in PROBATION, or in UP when no frame but VC0's has used the port for 10 µs. -/
def execLaneQuizDue (p : PortId) (s : State) : Host.Outcome State Fault Refusal :=
  actIf ((s.port p).present && (s.port p).quiz.isNone &&
      (s.lstate p = 3 || (s.lstate p = 5 && s.fld F.KETTLE_QUIZ_CFG_LANEINT 0 ≠ 0 && decide ((s.port p).lastData + us 10 ≤ s.now)))) (laneQuizDueEffect p) s

/-- The quiz of a port fails: in PROBATION it restarts probation. -/
def laneQuizFail (p : Nat) (s : State) : State :=
  let s := (quizRecFree 1 p (portDie p) 1 s).bump F.KETTLE_QUIZ_STAT_LANEFAIL 0
  (probFail p s).modPort p (fun x => { x with quiz := none })

/-- An echo came back on port p. -/
def laneEcho (p : Nat) (f : Frame) (s : State) : State :=
  match (s.port p).quiz with
  | none => s
  | some z =>
    if f.payload = quizPayload z.sent true then quizRecFree 1 p (portDie p) 0 (s.modPort p (fun x => { x with quiz := none }))
    else laneQuizFail p s

/-- The port a quiz frame came by. -/
def State.srcPort (s : State) (f : Src) : Option Nat :=
  match f with
  | .port p _ => some p
  | .inbox k => ((s.net.inbox[k]?).bind (fun i => s.buf i)).bind (fun b => b.inPort)

/-- ECHO of a quiz frame. -/
def isEcho (f : Frame) : Bool := bitsOf (leAt f.payload 0 8) 0 1 = 1

/-- What a quiz frame does on port p: one with ECHO clear is returned, an echo is compared (R357). -/
def quizUse (p : Nat) (f : Frame) (s : State) : State :=
  if isEcho f then laneEcho p f s
  else mgmtFrame p 0x10 (bytesLE 8 (leAt f.payload 0 8 ||| 1) ++ f.payload.drop 8) s

/-- The quiz frames that came by port p: an echo that fails check 8 or 9 fails the quiz. -/
def quizUnit (p : Option Nat) : Unit :=
  { mgmtUnit (· = 0x10) quizUse with
    bad := fun f s => match p with
      | some p => if isEcho f && (s.port p).quiz.isSome then laneQuizFail p s else s
      | none => s }

/-- MGMT_QUIZ_FRAME: echoed where ECHO is clear; an echo is compared, and fails the quiz where its PCRC fails. -/
def execMgmtQuizFrame (f : Src) (s : State) : Host.Outcome State Fault Refusal := consume (quizUnit (s.srcPort f)) f s

/-- What LANE_QUIZ_NOECHO changes. -/
def laneQuizNoechoEffect (p : PortId) (s : State) : State :=
  ((quizRecFree 1 p (portDie p) 2 s).bump F.KETTLE_QUIZ_STAT_NOECHO 0).modPort p (fun x => { x with quiz := none })

/-- LANE_QUIZ_NOECHO: no echo within 20 µs. -/
def execLaneQuizNoecho (p : PortId) (s : State) : Host.Outcome State Fault Refusal :=
  actIf (s.port p).quiz.isSome (laneQuizNoechoEffect p) s

-- HBM stacks (R279, R339, R341, R356) ------------------------------------------------------------------------------------------------------

/-- An uncorrectable HBM error on stack k, at an address in it: the fault, its record, the lifetime count. -/
def hbmUeFault (k addr : Nat) (s : State) : State :=
  raiseFault F.GLOBAL_FAULT_HBMUE (12 + k) (Config.faultStack k addr) 0xFF (modLife (12 + k) (fun l => { l with ue := l.ue + 1 }) s)

/-- As hbmUeFault, where the address is open. -/
def hbmUeFree (k : Nat) (s : State) : State := hbmUeFault k s.freeVal.toNat s.freed

/-- What STACK_QUIZ_DUE changes. -/
def stackQuizDueEffect (k : StackId) (s : State) : State :=
  { s with kettle := { s.kettle with stackQuiz := s.kettle.stackQuiz ++ [k.val] } }

/-- STACK_QUIZ_DUE: the stack has been idle for 10 µs. -/
def execStackQuizDue (k : StackId) (s : State) : Host.Outcome State Fault Refusal :=
  actIf (s.unitsOn && !s.hbmOut.contains k && !s.kettle.stackQuiz.contains k && s.fld F.KETTLE_QUIZ_CFG_STACKINT 0 ≠ 0) (stackQuizDueEffect k) s

/-- Correctable errors of a stack by bank. -/
def countCe (k : Nat) (banks : List (BitVec 16 × Nat)) (s : State) : State :=
  eachDo banks (fun b s =>
    let key := 65536 * k + b.1.toNat
    let s := s.bumpN F.HBM_HEALTH_CE k b.2
    { s with kettle := { s.kettle with hourBank := s.kettle.hourBank.put 0 key (s.kettle.hourBank.lk 0 key + b.2) } }) s

/-- What STACK_QUIZ_END changes. -/
def stackQuizEndEffect (k : StackId) (r : StackQuizResult) (s : State) : State :=
  let s := { s with kettle := { s.kettle with stackQuiz := s.kettle.stackQuiz.filter (· ≠ k.val) } }
  if r.aborted then quizRecFree 2 k (12 + k) 3 s
  else
    let fail : Bool := decide (r.margin.toNat < s.fld F.HBM_HEALTH_MARGINMIN k) || r.banks.any (fun b => decide (0 < b.2)) || r.uncorrectable ≠ 0
    let s := s.setFld F.HBM_HEALTH_MARGINMIN k r.margin.toNat
    let s := { s with kettle := { s.kettle with marginPin := s.kettle.marginPin.put 0 k r.pin.toNat } }
    let s := eachDo (List.range r.uncorrectable) (fun _ s => hbmUeFree k s) (countCe k r.banks s)
    quizRecFree 2 k (12 + k) (if fail then 1 else 0) (if fail then s.bump F.KETTLE_QUIZ_STAT_STACKFAIL 0 else s)

/-- STACK_QUIZ_END: MARGINMIN and the ECC events; a lower margin or an ECC event is a failure. -/
def execStackQuizEnd (k : StackId) (r : StackQuizResult) (s : State) : Host.Outcome State Fault Refusal :=
  actIf (s.kettle.stackQuiz.contains k) (stackQuizEndEffect k r) s

/-- A quiz that runs on stack k is aborted (R358). -/
def stackQuizAbort (k : Nat) (s : State) : State :=
  if s.kettle.stackQuiz.contains k then
    quizRecFree 2 k (12 + k) 3 { s with kettle := { s.kettle with stackQuiz := s.kettle.stackQuiz.filter (· ≠ k) } }
  else s

/-- Stack k is out of service (R279, R341); its KETTLE_DIEID reads zero (Table 13.2). -/
def stackOut (k : Nat) (s : State) : State :=
  let s := { s with hbmOut := if s.hbmOut.contains k then s.hbmOut else s.hbmOut ++ [k] }
  s.setReg .KETTLE_DIEID (12 + k) 0

/-- REMOVE of a stack (R339). -/
def stackRemove (k : Nat) (s : State) : State :=
  unitEnd none (raiseFault F.GLOBAL_FAULT_STACKOUT (12 + k) s.freeVal 0xFF ((stackOut k (stackQuizAbort k s)).freed))

/-- RETURN of a stack: it is trained and scrubbed. -/
def stackReturn (k : Nat) (s : State) : State := (stackOut k (stackQuizAbort k s)).setFld F.GLOBAL_UNITCMD_BUSY 0 1

/-- What a stack reported at its training. -/
def stackTrained (t : StackTrain) (s : State) : State :=
  let s := (s.setFld F.HBM_HEALTH_REPAIRUSED t.stack t.repairUsed.toNat).setFld F.HBM_HEALTH_REPAIRFREE t.stack t.repairFree.toNat
  let s := { s with kettle := { s.kettle with marginPin := s.kettle.marginPin.put 0 t.stack t.pin.toNat } }
  s.setFld F.HBM_HEALTH_MARGINMIN t.stack t.margin.toNat

/-- Every ECC word of stack k is written with zero data. -/
def stackZero (k : Nat) (s : State) : State :=
  { s with hbm := s.hbm.filter (fun (x : Nat × Byte) => (hbmPlace x.1).1 ≠ k), hbmUe := s.hbmUe.filter (fun (x : Nat × Bool) => (hbmPlace (32 * x.1)).1 ≠ k) }

/-- Stack k is in service again. -/
def stackIn (t : StackTrain) (s : State) : State :=
  let s := stackZero t.stack (stackTrained t s)
  ({ s with hbmOut := s.hbmOut.filter (· ≠ t.stack.val) }).setReg .KETTLE_DIEID (12 + t.stack) t.dieId

/-- What STACK_SCRUB_DONE changes. -/
def stackScrubDoneEffect (t : StackTrain) (uncorrectable : Bool) (s : State) : State :=
  let s := if uncorrectable then hbmUeFree t.stack s else s
  if !t.ok then unitEnd (some false) s
  else
    let fail : Bool := uncorrectable || t.banks.any (fun b => decide (0 < b.2)) || decide (t.margin.toNat < s.fld F.HBM_HEALTH_MARGINMIN t.stack)
    let s := countCe t.stack t.banks s
    let s := quizRecFree 2 t.stack (12 + t.stack) (if fail then 1 else 0) (if fail then s.bump F.KETTLE_QUIZ_STAT_STACKFAIL 0 else s)
    if fail then unitEnd (some false) (stackTrained t s) else unitEnd (some true) (stackIn t s)

/-- STACK_SCRUB_DONE (R339, R356): the stack of the RETURN that runs is accepted again, or stays out. The stack quiz is part of the scrub: a lower margin or
an ECC event of its patrol read fails it. -/
def execStackScrubDone (t : StackTrain) (uncorrectable : Bool) (s : State) : Host.Outcome State Fault Refusal :=
  actIf (s.bit F.GLOBAL_UNITCMD_BUSY 0 && s.fld F.GLOBAL_UNITCMD_KIND 0 = 2 && s.fld F.GLOBAL_UNITCMD_INDEX 0 = t.stack.val) (stackScrubDoneEffect t uncorrectable) s

-- Unit commands on cores (R339) -------------------------------------------------------------------------------------------------------------

/-- REMOVE of a core: a running quiz is aborted (R358), and the core is quarantined. -/
def coreRemove (c : Nat) (s : State) : State :=
  let s := if (s.core c).st = .quiz then quizRestore c (quizRecFree 0 c (coreDie c) 3 s) else s
  unitEnd none (quarantineFree c 2 s)

/-- RETURN of a core that no admitted Brew names: its quiz runs once its island is awake; it wakes no island in which an admitted Brew names a core
(R358). -/
def coreReturn (c : Nat) (s : State) : State :=
  let asleep := s.bit F.ROD_ISLAND_ASLEEP (c / 4)
  let s := if asleep && !s.islandNamed (c / 4) then s.wakeIsland (c / 4) else s
  let s := if asleep || (s.core c).st = .quiz then s.modCore c (fun k => { k with returnQuiz := true }) else quizStart c true s
  s.setFld F.GLOBAL_UNITCMD_BUSY 0 1

-- Uncorrectable ECC errors (R99, R129, R169, R279) ----------------------------------------------------------------------------------------------

/-- An uncorrectable error in an SRAM block of a core die: the fault, its record, the lifetime count. -/
def sramUe (die block : Nat) (s : State) : State :=
  raiseFault F.GLOBAL_FAULT_SRAMUE die (Config.faultSram die block) 0xFF (modLife die (fun l => { l with ue := l.ue + 1 }) s)

/-- The core enters FAULT with ECC_UE; which command met the error is open, ERRQ and ERRADDR with it. -/
def eccFault (c : Nat) (s : State) : State :=
  coreFault c .eccUe (s.freeVal.toNat % 8) (BitVec.ofNat 16 (Config.freeWord (s.free + 1)).toNat) { s with free := s.free + 2 }

/-- The open collective work whose open block holds Bead block k of core c: instance, step, block (R129). -/
def State.beadUsers (s : State) (c k : Nat) : List (Nat × Word × Nat) :=
  (s.coll.insts.map (fun x =>
    let d := s.desc x.samp x.desc
    if d.reduces then
      (x.openBlks.filter (fun b => s.blockHome d x.step b = (c, k))).map (fun b => (x.inst, x.step, b))
    else [])).flatten

/-- The tokens whose combine block holds Bead block k of core c: layer, step, owner, token. -/
def State.combUsers (s : State) (c k : Nat) : List (Nat × Word × Fnid × Nat) :=
  (s.exp.layers.map (fun l =>
    (l.busy.filter (fun y => s.beadBlock ((s.xdesc l.desc).cmbase + y.entry) = (c, k))).map (fun y => (l.layer, l.step, y.owner, y.no)))).flatten

/-- An error strikes a word of Rod memory. -/
def rodMemEcc (c : CoreId) (a : BitVec 19) (s : State) : State :=
  let bs := s.freeBytes 8
  let s := { s with free := s.free + 8 }.modCore c (fun k => { k with rmem := Mem.wr k.rmem 0 (a.toNat / 8 * 8) bs })
  sramUe (coreDie c) (Config.sramBlock 0 c a.toNat) (eccFault c s)

/-- An error strikes a word of instruction memory. -/
def instrMemEcc (c : CoreId) (a : BitVec 16) (s : State) : State :=
  let bs := s.freeBytes 4
  let s := { s with free := s.free + 4 }.modCore c (fun k => { k with imem := Mem.wr k.imem 0 (a.toNat / 4 * 4) bs })
  sramUe (coreDie c) (Config.sramBlock 1 c a.toNat) (eccFault c s)

/-- An error strikes a Bead: the core, and the instances and tokens whose block it is in. -/
def beadFileEcc (c : CoreId) (b : BitVec 13) (s : State) : State :=
  let v : Bead := (Config.freeWord s.free ++ Config.freeWord (s.free + 1)).truncate 96
  let cs := s.beadUsers c (b.toNat / 32)
  let ts := s.combUsers c (b.toNat / 32)
  let s := { s with free := s.free + 2 }.modCore c (fun k => { k with beads := k.beads.put 0 b.toNat v })
  let s := sramUe (coreDie c) (Config.sramBlock 2 c b.toNat) (eccFault c s)
  let s := eachDo cs (fun (x : Nat × Word × Nat) s => collEcc x.1 x.2.1 none x.2.2 s) s
  eachDo ts (fun (x : Nat × Word × Fnid × Nat) s => expEcc x.1 x.2.1 x.2.2.1 x.2.2.2 s) s

/-- An error strikes the HBM word of an offset. -/
def hbmEcc (off : Nat) (s : State) : State := hbmUeFault (hbmPlace off).1 (hbmPlace off).2 { s with hbmUe := s.hbmUe.put false (off / 32) true }

/-- An error in the packet buffer strikes what partition p holds; the block it lies in is open. -/
def caddyEcc (p : Nat) (s : State) : State := sramUe (s.partDie p) (Config.sramBlock 3 p s.freeVal.toNat) s.freed

/-- An error that ECC corrected in an SRAM block. -/
def sramCorrected (die : Nat) (block : Nat) (s : State) : State :=
  let key := 4096 * die + block
  { s with kettle := { s.kettle with hourSram := s.kettle.hourSram.put 0 key (s.kettle.hourSram.lk 0 key + 1) } }

/-- UNCORRECTABLE_ECC: what the error strikes takes a value that is open, the fault is raised, and the core or the work ends as its rule says. An error that
ECC corrected is counted alone (R350, log entry 108). -/
def execUncorrectableEcc (e : EccSite) (s : State) : Host.Outcome State Fault Refusal :=
  match e with
  | .rodMem c a => act (rodMemEcc c a) s
  | .instrMem c a => act (instrMemEcc c a) s
  | .beadFile c b => act (beadFileEcc c b) s
  | .contribution inst step m blk =>
    match s.instNo inst.toNat step with
    | none => .next s
    | some x => actIf (x.holds m blk) (fun s => collEcc inst.toNat step (some m) blk (caddyEcc (s.desc x.samp x.desc).cpart s)) s
  | .activation layer step o t =>
    match s.layerNo layer.toNat step with
    | none => .next s
    | some l => act (fun s => expEcc layer.toNat step o t.toNat (caddyEcc (s.xdesc l.desc).cpart s)) s
  | .output layer step o t =>
    match s.layerNo layer.toNat step with
    | none => .next s
    | some l => act (fun s => expEcc layer.toNat step o t.toNat (caddyEcc (s.xdesc l.desc).cpart s)) s
  | .hbm off => actIf (decide (off.toNat < hbmSize)) (hbmEcc off.toNat) s
  | .sramCorrected die block => act (sramCorrected die block.toNat) s
  | .hbmCorrected k bank => act (countCe k [(bank, 1)]) s

-- Monitors (R350, R351) ------------------------------------------------------------------------------------------------------------------------

/-- The Kettle domain runs. -/
def State.kettleOn (s : State) : Bool := decide (s.kettle.phase ≠ .off)

/-- The larger of two temperatures. -/
def tMax (a b : BitVec 16) : BitVec 16 := if a.slt b then b else a

/-- The band of a temperature in 1/8 °C: below 40, 55, 70, 85, 95, 100 and 110 °C, and at or above 110 °C (Table 13.17). -/
def tempBand (t : BitVec 16) : Nat := (([40, 55, 70, 85, 95, 100, 110] : List Int).filter (fun b => decide (8 * b ≤ t.toInt))).length

/-- A list of eight counts with the k-th one larger by 1. -/
def bandAdd (l : List Nat) (k : Nat) : List Nat := (List.range 8).map (fun i => cnt l i + if i = k then 1 else 0)

/-- What TEMP_SAMPLE changes. -/
def tempSampleEffect (die : Fin 24) (t : BitVec 16) (s : State) : State :=
  let s := s.setFld F.KETTLE_TEMP_TNOW die t.toNat
  let s := s.setFld F.KETTLE_TEMP_TMAX die (tMax (BitVec.ofNat 16 (s.fld F.KETTLE_TEMP_TMAX die)) t).toNat
  let s := modLife die (fun l => { l with tlife := tMax l.tlife t, bands := bandAdd l.bands (tempBand t) }) s
  s.setFld F.KETTLE_TEMP_TLIFE die (s.kettle.life.lk {} die).tlife.toNat

/-- TEMP_SAMPLE: the junction temperature of a die. -/
def execTempSample (die : Fin 24) (t : BitVec 16) (s : State) : Host.Outcome State Fault Refusal :=
  actIf s.kettleOn (tempSampleEffect die t) s

/-- The island is awake and its dies run. -/
def State.awake (s : State) (n : Nat) : Bool := s.unitsOn && !s.bit F.ROD_ISLAND_ASLEEP n

/-- What SLACK_SAMPLE changes. -/
def slackSampleEffect (n : IslandId) (ps : BitVec 16) (s : State) : State :=
  let s := (s.setFld F.ROD_MARGIN_SLACKNOW n ps.toNat).setFld F.ROD_MARGIN_SLACKMIN n (min (s.fld F.ROD_MARGIN_SLACKMIN n) ps.toNat)
  { s with kettle := { s.kettle with hourSlack := s.kettle.hourSlack.put 0xFFFF n (min (s.kettle.hourSlack.lk 0xFFFF n) ps.toNat) } }

/-- SLACK_SAMPLE. -/
def execSlackSample (n : IslandId) (ps : BitVec 16) (s : State) : Host.Outcome State Fault Refusal :=
  actIf (s.awake n) (slackSampleEffect n ps) s

/-- What DRIFT_SAMPLE changes. -/
def driftSampleEffect (n : IslandId) (d : BitVec 16) (s : State) : State := s.setFld F.ROD_MARGIN_DRIFT n d.toNat

/-- DRIFT_SAMPLE. -/
def execDriftSample (n : IslandId) (d : BitVec 16) (s : State) : Host.Outcome State Fault Refusal :=
  actIf (s.awake n) (driftSampleEffect n d) s

/-- The port that carries a lane. -/
def State.lanePort (s : State) (l : Nat) : Option Nat := s.portList.find? (fun p => s.laneOf p l)

/-- The lane is trained: its port's link is up; lane 0 alone in keepalive. -/
def State.laneTrained (s : State) (l : Nat) : Bool :=
  match s.lanePort l with
  | some p => s.linked p && (s.lstate p ≠ 6 || l = 4 * p)
  | none => false

/-- What EYE_SAMPLE changes. -/
def eyeSampleEffect (l : LaneId) (height : BitVec 11) (width : BitVec 10) (s : State) : State :=
  let s := (s.setFld F.LANE_EYE_EYEH l height.toNat).setFld F.LANE_EYE_EYEW l width.toNat
  let s := s.setFld F.LANE_EYE_EYEHMIN l (min (s.fld F.LANE_EYE_EYEHMIN l) height.toNat)
  let s := s.setFld F.LANE_EYE_EYEWMIN l (min (s.fld F.LANE_EYE_EYEWMIN l) width.toNat)
  let o := s.kettle.hourEye.lk (2047, 1023) l
  { s with kettle := { s.kettle with hourEye := s.kettle.hourEye.put (2047, 1023) l (min o.1 height.toNat, min o.2 width.toNat) } }

/-- EYE_SAMPLE. -/
def execEyeSample (l : LaneId) (height : BitVec 11) (width : BitVec 10) (s : State) : Host.Outcome State Fault Refusal :=
  actIf (s.laneTrained l) (eyeSampleEffect l height width) s

/-- Every element of a register returns to its reset value. -/
def clearRegs (r : Reg) (s : State) : State :=
  { s with regs := s.regs.filter (fun (x : Nat × Word) => !(decide (r.off 0 ≤ x.1) && decide (x.1 < r.off 0 + 8 * r.count))) }

/-- R351: the bits of KETTLE_HEALTH_CLR. -/
def healthClear (v : Word) (s : State) : State :=
  let s := if v.getLsbD 3 then clearRegs .KETTLE_SHADOW_STAT (clearRegs .ROD_SHADOW s) else s
  let s := if v.getLsbD 2 then
      eachDo (List.range 512) (fun l s => (s.setFld F.LANE_EYE_EYEHMIN l 2047).setFld F.LANE_EYE_EYEWMIN l 1023) s
    else s
  let s := if v.getLsbD 1 then eachDo (List.range 64) (fun n s => s.setFld F.ROD_MARGIN_SLACKMIN n 0xFFFF) s else s
  if v.getLsbD 0 then eachDo (List.range 24) (fun d s => s.setFld F.KETTLE_TEMP_TMAX d (s.fld F.KETTLE_TEMP_TNOW d)) s else s

-- Island sleep and wake (R385 to R387) ------------------------------------------------------------------------------------------------------------

/-- Open work of a unit is mapped to the core. -/
def State.workOn (s : State) (c : Nat) : Bool :=
  s.coll.insts.any (fun x => (s.bmapCores (s.desc x.samp x.desc)).contains c) ||
    s.exp.layers.any (fun l =>
      let d := s.xdesc l.desc
      (s.routerCores d).contains c || ((List.range d.cmcount).map (fun k => s.mapCore (d.cmbase + k))).contains c) ||
    s.shadow.checks.any (fun x => x.checker = c || x.arbiter = some c)

/-- The core lets its island sleep. -/
def State.coreIdle (s : State) (c : Nat) : Bool :=
  let k := s.core c
  (List.range 5).all (fun q => k.qlen q = 0) && k.vpend = [] && k.st ≠ .run && k.st ≠ .quiz && !s.workOn c

/-- What ISLAND_SLEEP changes. -/
def islandSleepEffect (n : IslandId) (s : State) : State :=
  let s := s.setFld F.ROD_ISLAND_ASLEEP n 1
  if (List.range 64).all (fun m => s.bit F.ROD_ISLAND_ASLEEP m) then s.setFld F.KETTLE_PWR_STAT_STATE 0 1 else s

/-- NOSLEEP, or a PREWAKE entry whose HOLD has not passed, keeps the island awake (R387). -/
def State.heldAwake (s : State) (n : Nat) : Bool := s.bit F.ROD_ISLAND_NOSLEEP n || decide (s.now < s.kettle.awakeTil.lk 0 n)

/-- ISLAND_SLEEP (R385): the conditions have held for 200 ns; DROWSE once every island sleeps. -/
def execIslandSleep (n : IslandId) (s : State) : Host.Outcome State Fault Refusal :=
  actIf (s.awake n && !s.heldAwake n && (List.range 4).all (fun j => s.coreIdle (4 * n + j))) (islandSleepEffect n) s

/-- Keep island n awake for d ticks from now on. -/
def keepAwake (n d : Nat) (s : State) : State :=
  { s with kettle := { s.kettle with awakeTil := s.kettle.awakeTil.put 0 n (max (s.kettle.awakeTil.lk 0 n) (s.now + d)) } }

/-- What ISLAND_WAKE changes; HOLD of a PREWAKE entry counts from the wake, and the quiz of a RETURN that waited for it starts. -/
def islandWakeEffect (n : IslandId) (cold : Bool) (s : State) : State :=
  let d := s.kettle.preHold.lk 0 n
  let s := if d = 0 then s else keepAwake n d { s with kettle := { s.kettle with preHold := s.kettle.preHold.put 0 n 0 } }
  let s := { s with waking := s.waking.filter (fun x => x.1 ≠ n.val) }
  let s := (s.setFld F.ROD_ISLAND_ASLEEP n 0).bump F.ROD_ISLAND_WAKES n
  let s := if cold then s.bump F.ROD_ISLAND_COLD n else s
  let s := if s.fld F.KETTLE_PWR_STAT_STATE 0 = 1 then s.setFld F.KETTLE_PWR_STAT_STATE 0 0 else s
  eachDo ((List.range 4).map (4 * n.val + ·)) (fun c s => if (s.core c).returnQuiz && (s.core c).st ≠ .quiz then quizStart c true s else s) s

/-- ISLAND_WAKE (R386): the wake completes; every wake not caused by PREWAKE is a cold start. -/
def execIslandWake (n : IslandId) (s : State) : Host.Outcome State Fault Refusal :=
  match s.waking.find? (fun x => x.1 = n.val) with
  | none => .next s
  | some (_, cold) =>
    act (islandWakeEffect n cold) s

/-- What PREWAKE_DUE changes. -/
def prewakeDueEffect (i : Fin 4096) (s : State) : State :=
  let s := { s with kettle := { s.kettle with preDue := s.kettle.preDue.put [] i ((s.kettle.preDue.lk [] i).eraseP (fun t => decide (t ≤ s.now))) } }
  let n := s.fld F.SCHED_PREWAKE_ISLAND i
  let d := us (s.fld F.SCHED_PREWAKE_HOLD i)
  if s.bit F.ROD_ISLAND_ASLEEP n then
    let s := { s with kettle := { s.kettle with preHold := s.kettle.preHold.put 0 n (max (s.kettle.preHold.lk 0 n) d) } }
    if s.waking.any (fun x => x.1 = n) then s else { s with waking := s.waking ++ [(n, false)] }
  else keepAwake n d s

/-- PREWAKE entry i is claimed, and DELAY ns have passed since a release of its Brew (R387). -/
def State.prewakeIsDue (s : State) (i : Nat) : Bool :=
  s.brewList.any (fun (x : Nat × Brew) => x.2.claims 11 i) && (s.kettle.preDue.lk [] i).any (fun t => decide (t ≤ s.now))

/-- PREWAKE_DUE (R387): DELAY ns after a release of its Brew the entry wakes its island, and keeps it awake for HOLD µs. -/
def execPrewakeDue (i : Fin 4096) (s : State) : Host.Outcome State Fault Refusal :=
  actIf (s.prewakeIsDue i) (prewakeDueEffect i) s

end Sys2Proof.Machine
end

