-- ==== Sys2Proof/Machine/Book.lean ====
section
/-!
DEFINITION. The Tally book in flash and its writer (R359 to R362), the hourly records (Table 13.17), and the telemetry stream (R363, R364).
-/
namespace Sys2Proof.Machine

open Sys2Proof

-- Records as bytes (Table 13.16) ------------------------------------------------------------------------------------------------

/-- The 64 bytes of a record: TYPE, DIE and PTIME, six payload words, SEQ and RCRC. -/
def Rec.bytes (r : Rec) : List Byte :=
  let w0 := mkWord [(r.typ % 256, 56), (r.die % 256, 48), (r.ptime % 2 ^ 48, 0)]
  let pay := (List.range 6).map (fun i => r.pay.getD i 0)
  let w7 := r.seq.toNat <<< 32
  let crc := (crc32 (wordsToBytes ((w0 :: pay) ++ [BitVec.ofNat 64 w7]))).toNat
  wordsToBytes ((w0 :: pay) ++ [BitVec.ofNat 64 (w7 + crc)])

/-- The record that 64 bytes spell. -/
def Rec.ofBytes (bs : List Byte) : Rec :=
  let w0 := leAt bs 0 8
  ⟨bitsOf w0 56 8, bitsOf w0 48 8, bitsOf w0 0 48, BitVec.ofNat 32 (leAt bs 60 4), (List.range 6).map (fun i => BitVec.ofNat 64 (leAt bs (8 * (i + 1)) 8))⟩

/-- RCRC of 64 bytes is right. -/
def recGood (bs : List Byte) : Bool := (crc32 (bs.take 56 ++ rep 4 0 ++ (bs.drop 60).take 4)).toNat = leAt bs 56 4

-- Flash (R361, R367) --------------------------------------------------------------------------------------------------------------

/-- Program bytes at a flash offset: a programmed bit stays 0 until its sector is erased. -/
def flashProg (a : Nat) (bs : List Byte) (m : SMap Byte) : SMap Byte :=
  match bs with
  | [] => m
  | b :: t => flashProg (a + 1) t (m.put 0xFF a (m.lk 0xFF a &&& b))

/-- Erase the 4 KiB sector at flash offset a. -/
def flashErase (a : Nat) (m : SMap Byte) : SMap Byte := m.filter (fun (x : Nat × Byte) => x.1 / 4096 ≠ a / 4096)

/-- Where the book begins in flash (Table 14.1). -/
def bookBase : Nat := 0x03000000

/-- The 64 bytes of slot i of sector n of the book. -/
def State.slotBytes (s : State) (n i : Nat) : List Byte := Mem.rd s.kettle.flash 0xFF (bookBase + 4096 * n + 64 * i) 64

/-- The sectors of the book that are not erased. -/
def State.usedSects (s : State) : List Nat :=
  ((s.kettle.flash.filter (fun (x : Nat × Byte) => decide (bookBase ≤ x.1) && decide (x.1 < bookBase + 2048 * 4096))).map
    (fun (x : Nat × Byte) => (x.1 - bookBase) / 4096)).eraseDups

/-- The valid records of sector n, in slot order, with their slots. -/
def State.sectRecs (s : State) (n : Nat) : List (Nat × Rec) :=
  ((List.range 64).filter (fun i => let bs := s.slotBytes n i; bs.getD 7 0 ≠ 0xFF && recGood bs)).map (fun i => (i, Rec.ofBytes (s.slotBytes n i)))

/-- Slots of sector n that hold a record whose RCRC fails. -/
def State.sectBad (s : State) (n : Nat) : Nat :=
  ((List.range 64).filter (fun i => let bs := s.slotBytes n i; bs.any (· ≠ 0xFF) && !(bs.getD 7 0 ≠ 0xFF && recGood bs))).length

/-- A SECTOR record with RETIRED set stands in the sector. -/
def State.sectRetired (s : State) (n : Nat) : Bool := (s.sectRecs n).any (fun (x : Nat × Rec) => x.2.typ = 0x01 && (x.2.pay.getD 2 0).getLsbD 0)

/-- The sequence of sector n. -/
def State.sectSeq (s : State) (n : Nat) : Nat :=
  match (s.sectRecs n).find? (fun (x : Nat × Rec) => x.1 = 0 && x.2.typ = 0x01) with
  | some (_, r) => (r.pay.getD 0 0).toNat
  | none => 0

-- The writer (R361) -----------------------------------------------------------------------------------------------------------------

/-- TALLY_BOOK_STAT shows the erased sectors ahead, and the retired ones. -/
def bookStat (s : State) : State :=
  let used := s.usedSects
  let s := s.setFld F.TALLY_BOOK_STAT_FREESECT 0 (2047 - (used.filter (fun n => decide (n ≠ s.kettle.sect))).length)
  s.setFld F.TALLY_BOOK_STAT_RETIRED 0 (used.filter (fun n => s.sectRetired n)).length

/-- Program one record at the write position, and step past it; a LIFE record is kept under the ID of its die (R349). -/
def progRec (r : Rec) (s : State) : State :=
  let k := s.kettle
  { s with kettle := { k with
      flash := flashProg (bookBase + 4096 * k.sect + 64 * k.slot) r.bytes k.flash
      slot := k.slot + 1
      lifeId := if r.typ = 0x03 then k.lifeId.put 0 r.die (k.life.lk {} r.die).id else k.lifeId } }

/-- Erase sector n of the book. -/
def eraseSect (n : Nat) (s : State) : State :=
  let k := s.kettle
  { s with kettle := { k with flash := flashErase (bookBase + 4096 * n) k.flash, erases := k.erases.put 0 n (k.erases.lk 0 n + 1) } }

/-- The sectors after the write position in circular order, without the retired ones. -/
def State.aheadSects (s : State) : List Nat :=
  let bad := s.usedSects.filter (fun n => s.sectRetired n)
  ((List.range 2047).map (fun i => (s.kettle.sect + 1 + i) % 2048)).filter (fun n => !bad.contains n)

/-- A SECTOR record for the sector at the write position. -/
def sectorRec (retired : Bool) (s : State) : State :=
  let k := s.kettle
  let (r, s) := newRec 0x01 dieAll
    [BitVec.ofNat 64 k.sseq, BitVec.ofNat 64 (k.erases.lk 0 k.sect), if retired then 1 else 0] s
  progRec r s

/-- The write position moves to the next sector that is not retired. -/
def nextSect (s : State) : State :=
  match s.aheadSects with
  | [] => s
  | n :: _ => { s with kettle := { s.kettle with sect := n, slot := 0 } }

/-- Before a record is written, the position is in a sector that has room and its SECTOR record; at least 32 sectors ahead are erased. -/
def openSector (s : State) : State :=
  let s := if 64 ≤ s.kettle.slot then nextSect s else s
  if s.kettle.slot ≠ 0 then s
  else
    let used := s.usedSects
    let s := if used.contains s.kettle.sect then eraseSect s.kettle.sect s else s
    let s := { s with kettle := { s.kettle with sseq := s.kettle.sseq + 1 } }
    let s := sectorRec false s
    eachDo ((s.aheadSects.take 32).filter (fun n => used.contains n)) eraseSect s

/-- Periodic records that have waited an hour are dropped. -/
def dropOld (s : State) : State :=
  let old (x : Nat × Rec) : Bool := isPeriodicType x.2.typ && decide (x.1 + ms 3600000 ≤ s.now)
  let n := (s.book.queue.filter old).length
  ({ s with book := { s.book with queue := s.book.queue.filter (fun x => !old x) } }).bumpN F.TALLY_BOOK_STAT_DROPPED 0 n

/-- The record at the head of the queue is written; a sector that fails verification is retired first. -/
def bookWriteEffect (flashOk : Bool) (r : Rec) (rest : List (Nat × Rec)) (s : State) : State :=
  let s := dropOld (flushCoal s)
  let s := if flashOk then openSector s else openSector (nextSect (sectorRec true (if 64 ≤ s.kettle.slot then nextSect s else s)))
  bookStat (progRec r { s with book := { s.book with queue := rest, budget := s.book.budget - 1 } })

/-- TALLY_BOOK_WRITE (R361): the oldest record that waits reaches flash within the budget; a sector that fails verification is retired, and the record goes
to the next one. The writer works once it has read the book at the first boot (R362). -/
def execTallyBookWrite (flashOk : Bool) (s : State) : Host.Outcome State Fault Refusal :=
  let s0 := if s.kettleOn then dropOld (flushCoal s) else s
  let on := s.kettleOn && s.kettle.restored
  match s0.book.queue with
  | [] => actIf on (fun s => dropOld (flushCoal s)) s
  | (_, r) :: rest =>
    actIf (on && decide (0 < s0.book.budget)) (bookWriteEffect flashOk r rest) s

/-- What BOOK_BUDGET_REFILL changes. -/
def bookBudgetRefillEffect (s : State) : State := flushCoal { s with book := { s.book with budget := min 4096 (s.book.budget + 20) } }

/-- BOOK_BUDGET_REFILL (R361): a second's 20 records. -/
def execBookBudgetRefill (s : State) : Host.Outcome State Fault Refusal :=
  actIf s.kettleOn bookBudgetRefillEffect s

-- Reading the book at boot (R349, R362) --------------------------------------------------------------------------------------------------

/-- The records of the book, oldest first: sectors by sequence, slots in order. -/
def State.bookRecs (s : State) : List Rec :=
  let sects := s.usedSects.mergeSort (fun a b => decide (s.sectSeq a ≤ s.sectSeq b))
  (sects.map (fun n => (s.sectRecs n).map (fun (x : Nat × Rec) => x.2))).flatten

/-- The lifetime figures that a LIFE record holds, of the die with an ID. -/
def Life.ofRec (id : Word) (r : Rec) : Life :=
  let w (i : Nat) : Nat := (r.pay.getD i 0).toNat
  { id := id
    ticks := w 0 * ms 1000
    tlife := BitVec.ofNat 16 (bitsOf (w 1) 48 16)
    minMv := if r.die < 4 then bitsOf (w 1) 32 16 else 65535
    ue := bitsOf (w 1) 0 32
    bands := (List.range 8).map (fun i => 600000 * bitsOf (w (2 + i / 2)) (32 * (1 - i % 2)) 32) }

/-- The writer finds the newest sector and resumes at its next slot; PTIME, SEQ and the lifetime figures are restored. -/
def bookRestore (s : State) : State :=
  let used := s.usedSects.filter (fun n => !s.sectRetired n)
  let s :=
    match (s.usedSects.mergeSort (fun a b => decide (s.sectSeq b ≤ s.sectSeq a))).find? (fun n => used.contains n) with
    | none => s
    | some n =>
      let last := ((List.range 64).filter (fun i => (s.slotBytes n i).any (· ≠ 0xFF))).getLastD 0
      { s with kettle := { s.kettle with sect := n, slot := last + 1, sseq := s.sectSeq n } }
  let s :=
    match s.bookRecs.getLast? with
    | none => s
    | some r =>
      { s with clock := { s.clock with ptBase := r.ptime }, book := { s.book with seq := s.book.seq + r.seq + 1 } }
  let s := eachDo (s.bookRecs.filter (fun r => r.typ = 0x03 && decide (r.die < 24))) (fun r s => modLife r.die (fun _ => Life.ofRec (s.kettle.lifeId.lk 0 r.die) r) s) s
  { s with kettle := { s.kettle with restored := true } }

/-- At each boot the writer reads the book; after a Kettle reset it resumes from it. -/
def bookScan (s : State) : State :=
  let bad := (s.usedSects.map s.sectBad).foldl (· + ·) 0
  let s := if s.kettle.restored then s else bookRestore s
  let s := bookStat (s.setFld F.TALLY_BOOK_STAT_BADREC 0 (min bad 255))
  eachDo (List.range 24) (fun d s => s.setFld F.KETTLE_TEMP_TLIFE d (s.kettle.life.lk {} d).tlife.toNat) s

-- Hourly records (R360) --------------------------------------------------------------------------------------------------------------------

/-- The dies are powered and not gated. -/
def State.diesOn (s : State) : Bool :=
  match s.kettle.phase with
  | .verified | .up | .failstop => !s.idle
  | _ => false

/-- Add up the powered time of the dies until now. -/
def addLife (s : State) : State :=
  let d := s.now - s.kettle.lifeMark
  let s := if s.diesOn then eachDo (List.range 24) (fun i s => modLife i (fun l => { l with ticks := l.ticks + d }) s) s else s
  { s with kettle := { s.kettle with lifeMark := s.now } }

/-- n, or the largest value of w bits (R11). -/
def sat (n w : Nat) : Nat := min n (2 ^ w - 1)

/-- The LIFE record of die d. -/
def lifeWords (s : State) (d : Nat) : List Word :=
  let l := s.kettle.life.lk {} d
  let m (i : Nat) : Nat := sat (cnt l.bands i / 600000) 32
  mkWord [(l.ticks / ms 1000, 0)] ::
    mkWord [(l.tlife.toNat, 48), (if d < 4 then l.minMv % 65536 else 0, 32), (sat l.ue 32, 0)] ::
    (List.range 4).map (fun i => mkWord [(m (2 * i), 32), (m (2 * i + 1), 0)])

/-- A count as m × 2^e: e in [17:12], m in [11:0]. -/
def floatCount (n : Nat) : Nat :=
  let e := n.log2 - 11
  e % 64 * 4096 + n / 2 ^ e % 4096

/-- The banks of stack k with the most correctable errors since the last hour, most first. -/
def State.worstBanks (s : State) (k : Nat) : List (Nat × Nat) :=
  (((s.kettle.hourBank.filter (fun (x : Nat × Nat) => x.1 / 65536 = k)).map (fun (x : Nat × Nat) => (x.1 % 65536, x.2))).mergeSort
    (fun a b => decide (b.2 < a.2) || (a.2 = b.2 && decide (a.1 ≤ b.1)))).take 4

/-- The HBM record of stack k. -/
def hbmWords (s : State) (k : Nat) : List Word :=
  let ce := ((s.kettle.hourBank.filter (fun (x : Nat × Nat) => x.1 / 65536 = k)).map Prod.snd).foldl (· + ·) 0
  let b (i : Nat) : Nat × Nat := (s.worstBanks k).getD i (0, 0)
  mkWord [(sat ce 32, 32), (sat (s.kettle.life.lk {} (12 + k)).ue 32, 0)] ::
    mkWord [(s.fld F.HBM_HEALTH_REPAIRUSED k, 52), (s.fld F.HBM_HEALTH_REPAIRFREE k, 40), (s.fld F.HBM_HEALTH_MARGINMIN k, 28),
      (s.kettle.marginPin.lk 0 k % 65536, 0)] ::
    (List.range 2).map (fun i => mkWord [((b (2 * i)).1, 48), (sat (b (2 * i)).2 16, 32), ((b (2 * i + 1)).1, 16), (sat (b (2 * i + 1)).2 16, 0)])

/-- The SRAM record of core die d: correctable errors of the hour, the lifetime uncorrectable ones, and the six blocks with the most correctable ones. -/
def sramWords (s : State) (d : Nat) : List Word :=
  let l := (s.kettle.hourSram.filter (fun (x : Nat × Nat) => x.1 / 4096 = d)).map (fun (x : Nat × Nat) => (x.1 % 4096, x.2))
  let worst := l.mergeSort (fun a b => decide (b.2 < a.2) || (a.2 = b.2 && decide (a.1 ≤ b.1)))
  let b (i : Nat) : Nat × Nat := worst.getD i (0, 0)
  mkWord [(sat (l.map Prod.snd).sum 32, 32), (sat (s.kettle.life.lk {} d).ue 32, 0)] ::
    (List.range 3).map (fun i => mkWord [((b (2 * i)).1, 48), (sat (b (2 * i)).2 16, 32), ((b (2 * i + 1)).1, 16), (sat (b (2 * i + 1)).2 16, 0)])

/-- What NUMERIC counts: BEAD_TALLY(0) to (7); then what SPEC counts: HIT, MISS, SQUASH, SQCAP, NOSTAGE. -/
def State.counted (s : State) (i : Nat) : Nat :=
  if i < 8 then s.fld F.BEAD_TALLY_COUNT i
  else match i with
    | 8 => s.fld F.SCHED_EXP_SPEC_HIT 0
    | 9 => s.fld F.SCHED_EXP_SPEC_MISS 0
    | 10 => s.fld F.SCHED_EXP_SQ_SQUASH 0
    | 11 => s.fld F.SCHED_EXP_SQ_SQCAP 0
    | _ => s.fld F.SCHED_EXP_SQ_NOSTAGE 0

/-- The increases since the last NUMERIC (8 values from 0) or SPEC (5 from 8) record of a destination: 0 the stream, 16 the book. A reset zeroes the counts
and leaves what has been reported of them, so that none is reported until they pass it again (DESIGN CHOICE, log entry 106). -/
def State.increases (s : State) (dst from_ n : Nat) : List Nat :=
  (List.range n).map (fun i => ((s.counted (from_ + i) : Int) - s.kettle.numBase.lk 0 (dst + from_ + i)).toNat)

/-- The destination has been told the counts. -/
def countsTold (dst from_ n : Nat) (s : State) : State :=
  eachDo (List.range n) (fun i s =>
    { s with kettle := { s.kettle with numBase := s.kettle.numBase.put 0 (dst + from_ + i) (s.counted (from_ + i) : Int) } }) s

/-- A NUMERIC or SPEC record where something has changed. -/
def countRec (dst from_ n typ : Nat) (s : State) : Option Rec × State :=
  let inc := s.increases dst from_ n
  if inc.all (· = 0) then (none, s)
  else
    let (r, s) := newRec typ dieAll (pack48 (inc.map (fun x => sat x 48))) s
    (some r, countsTold dst from_ n s)

/-- What HOURLY_RECORDS changes. -/
def hourlyRecordsEffect (s : State) : State :=
  let s := addLife s
  let s := eachDo (List.range 24) (fun d s => addPeriodic true 0x03 d (lifeWords s d) s) s
  let s := eachDo (List.range 8) (fun j s => addPeriodic true 0x04 (j / 2) (pack48 ((List.range 8).map (fun i =>
    let n := 8 * j + i
    n <<< 40 + s.kettle.hourSlack.lk 0xFFFF n <<< 24 + s.fld F.ROD_MARGIN_DRIFT n <<< 8))) s) s
  let s := eachDo (List.range 64) (fun j s => addPeriodic true 0x05 (4 + j / 8) (pack48 ((List.range 8).map (fun i =>
    let l := 8 * j + i
    let e := s.kettle.hourEye.lk (2047, 1023) l
    l <<< 39 + e.1 <<< 28 + e.2 <<< 18 + floatCount (s.fld F.LANE_FEC_CSYM l - s.kettle.hourSym.lk 0 l)))) s) s
  let s := eachDo (List.range 12) (fun k s => addPeriodic true 0x06 (12 + k) (hbmWords s k) s) s
  let s := eachDo (List.range 4) (fun d s => addPeriodic true 0x07 d (sramWords s d) s) s
  let book (x : Option Rec × State) : State :=
    match x.1 with
    | some r => bookPut r x.2
    | none => x.2
  let s := book (countRec 16 8 5 0x11 (book (countRec 16 0 8 0x10 s)))
  { s with kettle := { s.kettle with
      hourSlack := []
      hourEye := []
      hourBank := []
      hourSram := []
      hourSym := (List.range 512).foldl (fun m l => SMap.put m 0 l (s.fld F.LANE_FEC_CSYM l)) [] } }

/-- HOURLY_RECORDS (Table 13.17). -/
def execHourlyRecords (s : State) : Host.Outcome State Fault Refusal :=
  actIf s.kettleOn hourlyRecordsEffect s

-- Telemetry (R363, R364) ---------------------------------------------------------------------------------------------------------------------

/-- Lists of at most n elements. -/
def chunks {α : Type} (n : Nat) : Nat → List α → List (List α)
  | 0, _ => []
  | fuel + 1, l => if l.isEmpty then [] else l.take n :: chunks n fuel (l.drop n)

/-- Records in datagrams of at most 22. -/
def packed (l : List Rec) : List (List Rec) := chunks 22 l.length l

/-- The device's own address on the management port: the image's, or the link-local one without an image (R377). -/
def State.ownAddr (s : State) : BitVec 128 :=
  match s.kettle.image with
  | some im => im.mgmtAddr
  | none => Config.linkLocal

/-- A datagram leaves the management port, from the device's own address (R363, Table 13.19). -/
def sendDatagram (recs : List Rec) (s : State) : State :=
  match s.kettle.image with
  | none => s
  | some im =>
    let k := s.kettle
    let hdr := wordsToBytes [s.reg .KETTLE_DIEID 0,
      mkWord [(k.dseq % 2 ^ 32, 32), (sat k.lost 16, 16), (recs.length, 8), (1, 0)], BitVec.ofNat 64 s.ptime, BitVec.ofNat 64 s.ktime]
    ({ s with kettle := { k with dseq := (k.dseq + 1) % 2 ^ 32, lost := 0 } }).emit
      (.udp s.ownAddr im.teleAddr im.telePort.toNat (hdr ++ (recs.map Rec.bytes).flatten))

/-- The SENSE record: TNOW of dies 0 to 23. -/
def senseWords (s : State) : List Word :=
  (List.range 6).map (fun w => mkWord ((List.range 4).map (fun i => (s.fld F.KETTLE_TEMP_TNOW (4 * w + i), 16 * i))))

/-- The QSAMPLE records of the queues whose largest DEPTH since the last ones is nonzero. -/
def sampleRecs (s : State) : List Rec × State :=
  let qs := s.net.qmax.filter (fun (x : Nat × (Nat × Nat)) => x.2.1 ≠ 0)
  let word (x : Nat × (Nat × Nat)) : Word := mkWord [(x.1 / 32, 57), (x.1 % 32, 52), (sat x.2.1 18, 34), (sat x.2.2 24, 10)]
  (chunks 6 qs.length qs).foldl (fun (acc : List Rec × State) c =>
    let (r, s) := newRec 0x18 dieAll (c.map word) acc.2
    (acc.1 ++ [r], s)) ([], { s with net := { s.net with qmax := [] } })

/-- The STEP records of the period, each followed by its TOKENS record. -/
def stepRecs (s : State) : List Rec :=
  (s.tele.steps.map (fun (x : Nat × Option (Bool × Rec × Option Rec)) =>
    match x.2 with
    | some (_, r, some t) => [r, t]
    | some (_, r, none) => [r]
    | none => [])).flatten

/-- Telemetry is on and has somewhere to go. -/
def State.teleOn (s : State) : Bool := s.bit F.TALLY_TELE_CFG_ENABLE 0 && s.kettle.image.isSome

/-- What TELEMETRY_PERIOD changes. -/
def telemetryPeriodEffect (room : Nat) (s : State) : State :=
  if !s.teleOn then
    (if s.kettle.phase = .up || s.kettle.phase = .kettleOnly then { s with tele := {}, net := { s.net with qmax := [] } } else s)
  else
    let ev := packed s.tele.events
    let steps := packed (stepRecs s)
    let per := packed s.tele.periodic
    let (sense, s) := newRec 0x17 dieAll (senseWords s) s
    let (num, s) := countRec 0 0 8 0x10 s
    let (spec, s) := countRec 0 8 5 0x11 s
    let (qs, s) := sampleRecs s
    let rest := packed (sense :: (num.toList ++ spec.toList)) ++ steps ++ per ++ packed qs
    let late := (ev.drop room).flatten
    let out := ev.take room ++ rest.take (room - ev.length)
    let lost := (rest.drop (room - ev.length)).length
    let s := eachDo out sendDatagram { s with tele := { events := late } }
    ({ s with kettle := { s.kettle with lost := s.kettle.lost + lost } }).bumpN F.TALLY_BOOK_STAT_LOSTDG 0 lost

/-- TELEMETRY_PERIOD (R364): the records of the period leave in order, in as many datagrams as there is room for; of the others the events wait and the rest is
dropped and counted. -/
def execTelemetryPeriod (room : Nat) (s : State) : Host.Outcome State Fault Refusal :=
  actIf s.kettleOn (telemetryPeriodEffect room) s

/-- TALLY_TELE_CFG.REPLAY: every valid record of the book is streamed, oldest first (R362). -/
def replayStart (s : State) : State := (eachDo (packed s.bookRecs) sendDatagram s).setFld F.TALLY_TELE_CFG_REPLAY 0 1

/-- What JOURNAL_REPLAY_END changes. -/
def journalReplayEndEffect (s : State) : State := s.setFld F.TALLY_TELE_CFG_REPLAY 0 0

/-- JOURNAL_REPLAY_END: the last record has left. -/
def execJournalReplayEnd (s : State) : Host.Outcome State Fault Refusal :=
  actIf (s.bit F.TALLY_TELE_CFG_REPLAY 0) journalReplayEndEffect s

end Sys2Proof.Machine
end

