-- ==== Sys2Proof/Machine/Pldm.lean ====
section
/-!
DEFINITION. The SMBus endpoint (R365): the sensor readings, ALERT_N, and the answers to PLDM commands. The manual names the commands and sensors; the byte
layouts are those of the DMTF specifications it points to (PRESUMED).
-/
namespace Sys2Proof.Machine

open Sys2Proof

-- Sensors (Table 13.21) ----------------------------------------------------------------------------------------------------------

/-- FAULT_N as the pin shows it (Table 15.3, R343, R372, R414). -/
def State.faultPin (s : State) : Bool :=
  s.kettleOn && (s.kettle.trip || (s.kettle.pwrok && s.kettle.rstn && (s.faultN || s.kettle.noImage)))

/-- TNOW of a die, in 1/8 °C. -/
def State.dieTemp (s : State) (d : Nat) : Int := sext (s.fld F.KETTLE_TEMP_TNOW d) 16

/-- The largest TNOW of n dies from d on. -/
def State.hottest (s : State) (d n : Nat) : Int := ((List.range n).map (fun i => s.dieTemp (d + i))).foldl max (s.dieTemp d)

/-- The readings of sensors 1 to 14; sensor 1 in 1/8 °C, sensor 11 as 1 NORMAL or 2 FAULT. -/
def State.sense (s : State) : List Int :=
  [s.hottest 0 24] ++ (List.range 4).map (fun d => s.dieTemp d / 8) ++
  [s.hottest 4 8 / 8, (s.kettle.coreMv : Int), (s.kettle.coreAmps : Int), (s.fld F.KETTLE_PWR_STAT_POWER 0 : Int), s.hottest 12 12 / 8,
    if s.faultPin then 2 else 1,
    ((s.portList.filter (fun p => s.lstate p = 5 || s.lstate p = 6)).length : Int),
    (((List.range 256).filter (fun c => (s.core c).quar)).length : Int),
    ((s.fld F.TALLY_BOOK_STAT_FREESECT 0 * 100 / 2048 : Nat) : Int)]

/-- The reading of sensor i, as it was last refreshed. -/
def State.reading (s : State) (i : Nat) : Int := s.kettle.readings.getD (i - 1) 0

/-- Upper warning and critical of a temperature sensor, in the units of its reading (R413, R414). -/
def tempLimits (i : Nat) : Option (Int × Int) :=
  if i = 1 then some (800, 920) else if 2 ≤ i ∧ i ≤ 6 then some (100, 115) else if i = 10 then some (100, 105) else none

/-- Lower warning and critical of sensor 7 (R399). -/
def voltLimits (i : Nat) : Option (Int × Int) := if i = 7 then some (700, 630) else none

/-- The present state of a numeric sensor: normal, upper warning or critical, lower warning or critical. -/
def sensorState (i : Nat) (v : Int) : Nat :=
  match tempLimits i, voltLimits i with
  | some (w, c), _ => if c ≤ v then 9 else if w ≤ v then 8 else 1
  | none, some (w, c) => if v < c then 6 else if v < w then 5 else 1
  | none, none => 1

/-- A numeric sensor lies beyond a warning threshold, or sensor 11 is not NORMAL. -/
def State.alarm (s : State) : Bool :=
  (List.range 14).any (fun j => if j + 1 = 11 then s.reading 11 ≠ 1 else sensorState (j + 1) (s.reading (j + 1)) ≠ 1)

/-- A sample of VDD_CORE lowers the least one of the core dies' lifetimes, while that rail is up (R349, R360; DEDUCED, log entry 149). -/
def lifeVolts (mv : Nat) (s : State) : State :=
  if s.kettle.pwrok && s.kettle.phase ≠ .kettleOnly then eachDo (List.range 4) (fun d s => modLife d (fun l => { l with minMv := min l.minMv mv }) s) s else s

/-- What PLDM_SENSOR_REFRESH changes. -/
def pldmSensorRefreshEffect (x : SensorSample) (s : State) : State :=
  let s := lifeVolts x.coreMv { s with kettle := { s.kettle with coreMv := x.coreMv, coreAmps := x.coreAmps } }
  let s := { s with kettle := { s.kettle with readings := s.sense } }
  let k := s.kettle
  if s.alarm then { s with kettle := { k with alert := true, alertRead := k.alert && k.alertRead } }
  else { s with kettle := { k with alert := k.alert && !k.alertRead } }

/-- PLDM_SENSOR_REFRESH: every reading is taken anew, and ALERT_N follows. -/
def execPldmSensorRefresh (x : SensorSample) (s : State) : Host.Outcome State Fault Refusal :=
  actIf s.kettleOn (pldmSensorRefreshEffect x) s

/-- A GetSensorReading has been answered: ALERT_N is released where its condition has cleared. -/
def readDone (s : State) : State :=
  { s with kettle := { s.kettle with alertRead := true, alert := s.kettle.alert && s.alarm } }

-- Answers -------------------------------------------------------------------------------------------------------------------------

/-- The device's SMBus address (R404). -/
def State.smbusAddr (s : State) : BitVec 7 := 0x40 + s.kettle.straps.smbaddr.zeroExtend 7

/-- A message as MCTP packets under the SMBus binding, which answer a request (R365; layout PRESUMED, log entry 86): destination, command code 0x0F, byte count,
source, the header with version 1, the endpoints and SOM, EOM, sequence and tag, at most 64 bytes of the message, and the packet error code. -/
def smbusPackets (r : PldmReq) (own : BitVec 7) (msg : List Byte) : List (List Byte) :=
  let parts := chunks 64 msg.length msg
  (List.range parts.length).map (fun i =>
    let p := parts.getD i []
    let flags := (if i = 0 then 128 else 0) + (if i + 1 = parts.length then 64 else 0) + i % 4 * 16 + r.tag.toNat
    let bs : List Byte := ([BitVec.ofNat 8 (2 * r.from_.toNat), 0x0F, BitVec.ofNat 8 (5 + p.length), BitVec.ofNat 8 (2 * own.toNat + 1), 1, r.srcEid, r.eid,
      BitVec.ofNat 8 flags] : List Byte) ++ p
    bs ++ [crc8 bs])

/-- A PLDM response leaves in packets: the message type, the request's identifier, type and code, the completion code, and the data. -/
def pldmAnswer (r : PldmReq) (cc : Nat) (data : List Byte) (s : State) : State :=
  eachDo (smbusPackets r s.smbusAddr (([1, (r.iid.zeroExtend 8 : Byte), r.ptype, r.code, BitVec.ofNat 8 cc] : List Byte) ++ data))
    (fun p s => s.emit (.mctp p)) s

/-- The Kettle domain takes the request: it is sent to the device's address, and its packet error code is right (R365, R404). -/
def State.smbusTakes (s : State) (r : PldmReq) : Bool := s.kettleOn && r.addr = s.smbusAddr && r.pecOk

/-- A command of a type and code, with data of a length, is answered. -/
def pldm (ptype code len : Nat) (r : PldmReq) (f : State → State) (s : State) : Host.Outcome State Fault Refusal :=
  actIf (s.smbusTakes r && r.ptype = BitVec.ofNat 8 ptype && r.code = BitVec.ofNat 8 code)
    (fun s => if r.data.length = len then f s else pldmAnswer r 0x03 [] s) s

/-- GET_TID. -/
def execGetTid (r : PldmReq) (s : State) : Host.Outcome State Fault Refusal :=
  pldm 0 0x02 0 r (pldmAnswer r 0 [Config.pldmTid]) s

/-- GET_PLDM_VERSION: of type 0 or 2. -/
def execGetPldmVersion (r : PldmReq) (s : State) : Host.Outcome State Fault Refusal :=
  pldm 0 0x03 6 r (fun s =>
    let t := leAt r.data 5 1
    if t = 0 || t = 2 then
      let v := bytesLE 4 (Config.pldmVersion t).toNat
      pldmAnswer r 0 (rep 4 0 ++ [0x05] ++ v ++ bytesLE 4 (crc32 v).toNat) s
    else pldmAnswer r 0x83 [] s) s

/-- GET_PLDM_TYPES: types 0 and 2. -/
def execGetPldmTypes (r : PldmReq) (s : State) : Host.Outcome State Fault Refusal :=
  pldm 0 0x04 0 r (pldmAnswer r 0 (bytesLE 8 5)) s

/-- The commands of a type, one bit each. -/
def pldmCommands (t : Nat) : List Byte :=
  if t = 0 then bytesLE 32 (2 ^ 0x02 + 2 ^ 0x03 + 2 ^ 0x04 + 2 ^ 0x05) else bytesLE 32 (2 ^ 0x11 + 2 ^ 0x21 + 2 ^ 0x50 + 2 ^ 0x51)

/-- GET_PLDM_COMMANDS. -/
def execGetPldmCommands (r : PldmReq) (s : State) : Host.Outcome State Fault Refusal :=
  pldm 0 0x05 5 r (fun s =>
    let t := leAt r.data 0 1
    if t = 0 || t = 2 then pldmAnswer r 0 (pldmCommands t) s else pldmAnswer r 0x83 [] s) s

/-- The numeric sensors. -/
def isNumeric (i : Nat) : Bool := decide (1 ≤ i) && decide (i ≤ 14) && i ≠ 11

/-- A signed number as four bytes. -/
def int4 (v : Int) : List Byte := bytesLE 4 (BitVec.ofInt 32 v).toNat

/-- GET_SENSOR_READING: sensorDataSize sint32, enabled, no event generation, present, previous (open) and event state, reading. -/
def execGetSensorReading (r : PldmReq) (s : State) : Host.Outcome State Fault Refusal :=
  pldm 2 0x11 3 r (fun s =>
    let i := leAt r.data 0 2
    if isNumeric i then
      let st := BitVec.ofNat 8 (sensorState i (s.reading i))
      readDone ((pldmAnswer r 0 ([5, 0, 0, st, (s.freeVal.truncate 8 : Byte), st] ++ int4 (s.reading i)) s).freed)
    else pldmAnswer r 0x80 [] s) s

/-- GET_STATE_SENSOR_READINGS: sensor 11, one state. -/
def execGetStateSensorReadings (r : PldmReq) (s : State) : Host.Outcome State Fault Refusal :=
  pldm 2 0x21 4 r (fun s =>
    if leAt r.data 0 2 = 11 then
      let st : Byte := BitVec.ofInt 8 (s.reading 11)
      (pldmAnswer r 0 [1, 0, st, (s.freeVal.truncate 8 : Byte), st] s).freed
    else pldmAnswer r 0x80 [] s) s

-- Platform description records ---------------------------------------------------------------------------------------------------------

/-- n bytes of an open field of record i. -/
def pdrFree (i place n : Nat) : List Byte := bytesLE n (Config.pdrOpen i place).toNat

/-- baseUnit and unitModifier of a sensor: °C, V × 10^-3, A, W; open for the counts and the percentage. -/
def pdrUnit (i : Nat) : List Byte :=
  if (tempLimits i).isSome then [2, 0] else if i = 7 then [5, 0xFD] else if i = 8 then [6, 0] else if i = 9 then [7, 0] else pdrFree i 0 2

/-- The thresholds that a sensor has, by DSP0248's bits: upper warning and critical, or lower warning and critical. -/
def pdrThresholds (i : Nat) : Byte := if (tempLimits i).isSome then 3 else if (voltLimits i).isSome then 24 else 0

/-- The body of a numeric sensor's record. -/
def numericPdr (i : Nat) : List Byte :=
  let hi := (tempLimits i).getD (0, 0)
  let lo := (voltLimits i).getD (0, 0)
  pdrFree i 1 2 ++ bytesLE 2 i ++ pdrFree i 2 2 ++ pdrFree i 3 2 ++ pdrFree i 4 2 ++ [0, 0] ++ pdrUnit i ++ [0, 0, 0, 0, 0, 0, 0] ++ [1, 5] ++
    bytesLE 4 (if i = 1 then 0x3E000000 else 0x3F800000) ++ bytesLE 4 0 ++ pdrFree i 5 2 ++ pdrFree i 6 2 ++ bytesLE 4 0 ++ [pdrThresholds i, 0] ++
    pdrFree i 7 4 ++ bytesLE 4 0x3DCCCCCD ++ pdrFree i 8 4 ++ pdrFree i 9 4 ++
    [5, if (tempLimits i).isSome then 8 else if (voltLimits i).isSome then 16 else 0] ++ pdrFree i 10 4 ++ pdrFree i 11 4 ++ pdrFree i 12 4 ++
    int4 hi.1 ++ int4 lo.1 ++ int4 hi.2 ++ int4 lo.2 ++ pdrFree i 13 4 ++ pdrFree i 14 4

/-- The body of sensor 11's record: one state, NORMAL or FAULT. -/
def statePdr : List Byte :=
  pdrFree 11 1 2 ++ bytesLE 2 11 ++ pdrFree 11 2 2 ++ pdrFree 11 3 2 ++ pdrFree 11 4 2 ++ [0, 0, 1] ++ pdrFree 11 5 2 ++ [1, 6]

/-- Record i of the repository: its header and its body. -/
def pdr (i : Nat) : List Byte :=
  let body := if i = 11 then statePdr else numericPdr i
  bytesLE 4 i ++ [1, if i = 11 then 4 else 2] ++ pdrFree i 15 2 ++ bytesLE 2 body.length ++ body

/-- GET_PDR_REPOSITORY_INFO: available, times (open), 14 records, their size, the largest, a timeout (open). -/
def execGetPdrRepositoryInfo (r : PldmReq) (s : State) : Host.Outcome State Fault Refusal :=
  pldm 2 0x50 0 r (fun s =>
    let ps := (List.range 14).map (fun j => (pdr (j + 1)).length)
    (pldmAnswer r 0 ([0] ++ s.freeBytes 26 ++ bytesLE 4 14 ++ bytesLE 4 (ps.foldl (· + ·) 0) ++ bytesLE 4 (ps.foldl max 0) ++
      [(Config.freeWord (s.free + 26)).truncate 8]) s : State) |> fun t => { t with free := t.free + 27 }) s

/-- GET_PDR: the first or the next part of a record; a part that is not the whole ends with the transfer's CRC-8. -/
def execGetPdr (r : PldmReq) (s : State) : Host.Outcome State Fault Refusal :=
  pldm 2 0x51 13 r (fun s =>
    let h := leAt r.data 0 4
    let i := if h = 0 then 1 else h
    let dth := leAt r.data 4 4
    let first : Bool := leAt r.data 8 1 = 1
    let want := leAt r.data 9 2
    if 14 < i then pldmAnswer r 0x82 [] s
    else if 1 < leAt r.data 8 1 then pldmAnswer r 0x81 [] s
    else
      let bs := pdr i
      let off := if first then 0 else dth
      if !first && (off = 0 || decide (bs.length ≤ off)) then pldmAnswer r 0x80 [] s
      else
        let part := (bs.drop off).take want
        let done : Bool := decide (bs.length ≤ off + part.length)
        let flag : Byte := if first then (if done then 5 else 0) else if done then 4 else 1
        pldmAnswer r 0 (bytesLE 4 (if i < 14 then i + 1 else 0) ++ bytesLE 4 (if done then 0 else off + part.length) ++ [flag] ++
          bytesLE 2 part.length ++ part ++ (if done && !first then [crc8 bs] else [])) s) s

/-- PLDM_UNSUPPORTED_COMMAND: every other command. -/
def execPldmUnsupportedCommand (r : PldmReq) (s : State) : Host.Outcome State Fault Refusal :=
  let t := r.ptype.toNat
  let c := r.code.toNat
  let known : Bool := (t = 0 && decide (2 ≤ c) && decide (c ≤ 5)) || (t = 2 && (c = 0x11 || c = 0x21 || c = 0x50 || c = 0x51))
  actIf (s.smbusTakes r && !known) (pldmAnswer r 0x05 []) s

end Sys2Proof.Machine
end

