-- ==== Sys2Proof/Machine/Power.lean ====
section
/-!
DEFINITION. Resets, power states, the power cap and the thermal trip (R373, R391 to R393, R398 to R400, R414, R415).
-/
namespace Sys2Proof.Machine

open Sys2Proof

-- Resets (R10, R373) ----------------------------------------------------------------------------------------------------------------

/-- The dies lose what they hold: everything but the Kettle domain and the registers. -/
def diesReset (s : State) : State :=
  { s with
    cores := [], brews := [], hbm := [], hbmOut := [], hbmUe := [], shadow := {}, net := {}, coll := {}, exp := {}, board := {}
    brewAuth := [], hold := {}, waking := [] }

/-- A HOLD that runs is ended by a reset (R342, R415). -/
def holdCut (minMv : Nat) (s : State) : State := if s.bit F.GLOBAL_HOLD_INHOLD 0 then holdEnd minMv true s else s

/-- What the Kettle domain keeps of a boot ends. -/
def Kettle.fresh (k : Kettle) (p : Phase) : Kettle :=
  { k with phase := p, readyAt := 0, fabOnce := false, chosen := none, noImage := false, move := .none, hourSym := [], stackQuiz := [], throttled := false,
           preDue := [], preHold := [], awakeTil := [] }

/-- R10: a device reset with a cause. Every field takes its reset value; PREF and PREFV are kept, and ACCEPTED is cleared by a Kettle reset only. -/
def deviceReset (cause : Nat) (p : Phase) (s : State) : State :=
  let s := holdCut s.hold.minMv (addLife s)
  let boot := s.reg .KETTLE_BOOT 0
  let acc := s.fld F.KETTLE_OOB_STAT_ACCEPTED 0
  let s := diesReset { s with regs := [], kettle := s.kettle.fresh p }
  let s := s.setReg .KETTLE_BOOT 0 (mkWord [(wbits boot 62 2, 62), (cause, 0)])
  s.setFld F.KETTLE_OOB_STAT_ACCEPTED 0 acc

/-- Only the Kettle domain runs on (R391): of the registers, those of the blocks GLOBAL_, KETTLE_ and TALLY_ stay. -/
def kettleOnly (s : State) : State :=
  let s := holdCut s.hold.minMv (addLife s)
  let kept (o : Nat) : Bool := decide (o < 0x2000000) || (decide (0xD000000 ≤ o) && decide (o < 0xE000000))
  let s := diesReset { s with regs := s.regs.filter (fun (x : Nat × Word) => kept x.1), kettle := s.kettle.fresh .kettleOnly }
  s.setFld F.KETTLE_PWR_STAT_STATE 0 3

/-- What outlasts VDD_KETTLE: the commands that wait, the fuses, the flash, and the model's own bookkeeping of it. -/
def State.cold (s : State) (p : Phase) (nonce : Word) : State :=
  { pending := s.pending
    fuses := s.fuses
    free := s.free
    kettle := {
      phase := p
      bnonce := nonce
      flash := s.kettle.flash
      erases := s.kettle.erases
      lifeId := s.kettle.lifeId } }

/-- What POWER_ON changes. -/
def powerOnEffect (s : State) : State := (s.cold .inReset s.freeVal).freed

/-- POWER_ON: VDD_KETTLE comes up, and the Kettle domain starts with cause POWERON and a new boot nonce (R373, R378). -/
def execPowerOn (s : State) : Host.Outcome State Fault Refusal :=
  actAllIf (decide (s.kettle.phase = .off)) powerOnEffect s

/-- What KETTLE_POWER_LOSS changes. -/
def kettlePowerLossEffect (s : State) : State := s.cold .off 0

/-- KETTLE_POWER_LOSS: the device is OFF (R400). -/
def execKettlePowerLoss (s : State) : Host.Outcome State Fault Refusal :=
  actAllIf s.kettleOn kettlePowerLossEffect s

/-- The instruction of the test access port once SYS_RST_N is high or a rail is out of range: the EXTEST family behaves as BYPASS (R412). -/
def tapRunning (j : JtagIr) : JtagIr :=
  match j with
  | .extest | .extestPulse | .extestTrain => .bypass
  | _ => j

/-- What SYS_PWROK_FALL changes. -/
def sysPwrokFallEffect (s : State) : State :=
  let s := (deviceReset 1 .inReset s).setFld F.KETTLE_PWR_STAT_STATE 0 3
  { s with kettle := { s.kettle with pwrok := false, jtagIr := tapRunning s.kettle.jtagIr } }

/-- SYS_PWROK_FALL: KETTLE-ONLY (R398); the next boot reports PIN (R373, R415). -/
def execSysPwrokFall (s : State) : Host.Outcome State Fault Refusal :=
  actAllIf (s.kettleOn && s.kettle.pwrok) sysPwrokFallEffect s

/-- What SYS_RST_N_ASSERT changes. -/
def sysRstNAssertEffect (s : State) : State :=
  let wait : Bool := s.kettle.phase = .brownout
  let s := deviceReset 1 (if wait then .brownout else .inReset) s
  let s := if s.kettle.pwrok then s else s.setFld F.KETTLE_PWR_STAT_STATE 0 3
  { s with kettle := { s.kettle with rstn := false } }

/-- SYS_RST_N_ASSERT: a device reset with cause PIN (R373). A brown-out reset that waits for its rail waits on (R399). -/
def execSysRstNAssert (s : State) : Host.Outcome State Fault Refusal :=
  actAllIf s.kettleOn sysRstNAssertEffect s

/-- A rail has left its range: a device reset with cause BROWNOUT, which waits for the rail (R399, R400); the EXTEST family has no effect any more (R412). -/
def railReset (s : State) : State :=
  let s := deviceReset 2 .brownout s
  { s with kettle := { s.kettle with jtagIr := tapRunning s.kettle.jtagIr } }

/-- What BROWNOUT_RESET changes. -/
def brownoutResetEffect (minMv : Nat) (s : State) : State :=
  let s := if s.bit F.GLOBAL_HOLD_INHOLD 0 then s
    else { s with hold := { s.hold with start := s.now, minMv := minMv } }
  railReset (holdEnd minMv true s)

/-- BROWNOUT_RESET: VDD_CORE falls below 0.630 V while SYS_PWROK is high, whatever state the device is in; the event's HOLD record carries RESET (R342, R398,
R399, R415). -/
def execBrownoutReset (minMv : Nat) (s : State) : Host.Outcome State Fault Refusal :=
  actAllIf (s.kettleOn && s.kettle.pwrok && decide (minMv < 630)) (brownoutResetEffect minMv) s

/-- RAIL_UNDERVOLTAGE: another rail of groups 1 to 4 falls below 90 % while SYS_PWROK is high (R400). -/
def execRailUndervoltage (s : State) : Host.Outcome State Fault Refusal :=
  actAllIf (s.kettleOn && s.kettle.pwrok) railReset s

/-- What BROWNOUT_RESET_END changes. -/
def brownoutResetEndEffect (s : State) : State := { s with kettle := { s.kettle with phase := .inReset } }

/-- BROWNOUT_RESET_END: the rail has been in range for 1 ms (R399, R400). -/
def execBrownoutResetEnd (s : State) : Host.Outcome State Fault Refusal :=
  actIf (decide (s.kettle.phase = .brownout)) brownoutResetEndEffect s

/-- What BOOT_START changes. -/
def bootStartEffect (x : Straps) (s : State) : State :=
  let s := bookScan { s with clock := { s.clock with rtick := s.clock.ktick } }
  let s := if s.kettle.trip then s.setFld F.KETTLE_BOOT_CAUSE 0 5 else s
  { s with kettle := { s.kettle with pwrok := true, rstn := true, straps := x, jtagIr := tapRunning s.kettle.jtagIr, phase := if s.kettle.trip then .hot else .booting } }

/-- BOOT_START: time 0 of Table 14.5: SYS_PWROK and SYS_RST_N are high, and the straps are latched (R374, R403). With THERMTRIP_N latched the boot
reports THERMAL and holds at time 0 (R414). -/
def execBootStart (x : Straps) (s : State) : Host.Outcome State Fault Refusal :=
  actAllIf (decide (s.kettle.phase = .inReset)) (bootStartEffect x) s

-- Thermal trip (R414) -----------------------------------------------------------------------------------------------------------------

/-- The trip temperature of a die in 1/8 °C: 115 °C, and 105 °C for a stack. -/
def tripTemp (die : Nat) : Int := if die < 12 then 920 else 840

/-- What THERMAL_TRIP changes. -/
def thermalTripEffect (s : State) : State :=
  let s := kettleOnly s
  { s with kettle := { s.kettle with trip := true, phase := if s.kettle.pwrok && s.kettle.rstn then .kettleOnly else .inReset } }

/-- THERMAL_TRIP: THERMTRIP_N is latched, the dies are held in reset, and the device enters KETTLE-ONLY. -/
def execThermalTrip (die : Fin 24) (t : BitVec 16) (s : State) : Host.Outcome State Fault Refusal :=
  actIf (s.kettleOn && !s.kettle.trip && decide (tripTemp die ≤ t.toInt)) thermalTripEffect s

/-- What THERMTRIP_RELEASE changes. -/
def thermtripReleaseEffect (s : State) : State :=
  { s with kettle := { s.kettle with trip := false, phase := .booting } }

/-- THERMTRIP_RELEASE: every die sensor shows below 95 °C; the boot goes on. -/
def execThermtripRelease (s : State) : Host.Outcome State Fault Refusal :=
  actIf (s.kettle.phase = .hot && (List.range 24).all (fun d => decide (s.dieTemp d < 760))) thermtripReleaseEffect s

-- Power states (R391, R392) -------------------------------------------------------------------------------------------------------------

/-- READY (R374, R391). -/
def State.ready (s : State) : Bool := s.kettle.phase = .up && decide (s.fld F.KETTLE_PWR_STAT_STATE 0 < 2)

/-- KETTLE_PWR_CMD may not take the device to IDLE or KETTLE-ONLY (R392). -/
def State.pwrBusy (s : State) : Bool := s.brews.any (fun (x : Nat × Option Brew) => x.2.isSome) || s.board.commit.isSome

/-- The device begins to leave IDLE. -/
def leaveIdle (s : State) : State := { s with kettle := { s.kettle with move := .fromIdle } }

/-- TARGET RUN: out of IDLE, its keepalive ports return to full rate (Table 14.18); out of KETTLE-ONLY by a boot with cause WAKE. It is ignored in RUN and
DROWSE, and where no slot verified only a reset or a power cycle helps, unless the device is in recovery (R372). -/
def pwrRun (s : State) : State :=
  if s.kettle.phase = .kettleOnly then
    if s.kettle.noImage && !s.kettle.straps.recov then s else deviceReset 4 .inReset s
  else if s.kettle.phase = .up && s.idle then
    leaveIdle (eachDo (s.portList.filter (fun p => s.lstate p = 6 || (s.port p).ka = .entering)) kaLeave s)
  else s

/-- TARGET IDLE: the change begins, and every UP port is sent KA_REQ, but for those with reversed lanes, which never enter keepalive (R391, R407; DEDUCED,
log entry 150). -/
def pwrIdle (s : State) : State :=
  if s.ready then
    let ps := s.portList.filter (fun p => s.lstate p = 5 && (s.port p).ka = .none && !s.reversed p)
    let s := eachDo ps (fun p s => mgmtFrame p 0x01 [] (s.modPort p (fun x => { x with ka := .asked }))) s
    { s with kettle := { s.kettle with move := .toIdle } }
  else s

/-- TARGET KETTLE-ONLY. -/
def pwrKettleOnly (s : State) : State := if s.railsOn then kettleOnly s else s

/-- What IDLE_ENTRY_DONE changes. -/
def idleEntryDoneEffect (s : State) : State :=
  let s := addLife s
  ({ s with kettle := { s.kettle with move := .none } }).setFld F.KETTLE_PWR_STAT_STATE 0 2

/-- IDLE_ENTRY_DONE: STATE reads IDLE. -/
def execIdleEntryDone (s : State) : Host.Outcome State Fault Refusal :=
  actIf (s.kettle.phase = .up && s.kettle.move = .toIdle) idleEntryDoneEffect s

/-- A core's memories and Bead file lose their contents and are zeroed (R64, R391). -/
def Core.zeroed (k : Core) : Core := { k with rmem := [], imem := [], beads := [], bflag := [] }

/-- What IDLE_EXIT_DONE changes. -/
def idleExitDoneEffect (s : State) : State :=
  let s := addLife s
  let s := { s with kettle := { s.kettle with move := .none } }
  let s := eachDo (List.range 256) (fun c s => s.modCore c Core.zeroed) s
  let all : Bool := (List.range 64).all (fun n => s.bit F.ROD_ISLAND_ASLEEP n)
  noteFabric (s.setFld F.KETTLE_PWR_STAT_STATE 0 (if all then 1 else 0))

/-- IDLE_EXIT_DONE: STATE reads RUN, or DROWSE where every island sleeps, and READY is asserted. -/
def execIdleExitDone (s : State) : Host.Outcome State Fault Refusal :=
  actIf (s.kettle.phase = .up && s.idle && s.kettle.move = .fromIdle) idleExitDoneEffect s

/-- MGMT_WAKE: a WAKE frame of an authority FNID takes the device out of IDLE (R389, R391). -/
def execMgmtWake (f : Src) (s : State) : Host.Outcome State Fault Refusal :=
  consume (mgmtUnit (· = 0x05) (fun _ f s => if s.isAuth f.src && s.idle then leaveIdle s else s)) f s

-- The power cap (R393) --------------------------------------------------------------------------------------------------------------------

/-- The next PACE: halved while a core die is at its throttle temperature; else lowered above the cap and raised below 98 % of it. After a throttle it rises
again only once every core die is below that temperature less its hysteresis. -/
def nextPace (pace avg cap : Nat) (hot held : Bool) : Nat :=
  if hot then max 1 (pace / 2)
  else if cap ≠ 0 && decide (cap < avg) then max 1 (pace - 1)
  else if !held && (cap = 0 || decide (100 * avg < 98 * cap)) then min 64 (pace + 1)
  else pace

/-- What PACE_STEP changes. -/
def paceStepEffect (watts : Nat) (s : State) : State :=
  let ws := (watts :: s.kettle.watts).take (s.fld F.KETTLE_PWR_CAP_WINDOW 0)
  let avg := ws.foldl (· + ·) 0 / ws.length
  let cap := s.fld F.KETTLE_PWR_CAP_CAPW 0
  let pace := s.fld F.KETTLE_PWR_STAT_PACE 0
  let hot : Bool := (List.range 4).any (fun d => decide (800 ≤ s.dieTemp d))
  let warm : Bool := (List.range 4).any (fun d => decide (760 ≤ s.dieTemp d))
  let held : Bool := hot || (s.kettle.throttled && warm)
  let s := { s with kettle := { s.kettle with watts := ws, throttled := held } }
  let s := s.setFld F.KETTLE_PWR_STAT_POWER 0 (sat avg 11)
  let s := if cap ≠ 0 && decide (cap < avg) && pace = 1 then (s.setFld F.KETTLE_PWR_STAT_CAPUNMET 0 1).bump F.KETTLE_PWR_STAT_UNMET 0 else s
  s.setFld F.KETTLE_PWR_STAT_PACE 0 (nextPace pace avg cap hot held)

/-- PACE_STEP: the power estimate of the last 100 µs. -/
def execPaceStep (watts : Nat) (s : State) : Host.Outcome State Fault Refusal :=
  actIf s.kettleOn (paceStepEffect watts) s

end Sys2Proof.Machine
end

