-- ==== Sys2Proof/Machine/Control.lean ====
section
/-!
DEFINITION. Control space (R7, R420 to R427): reading a register, judging a write field by field, and what a write does beyond storing its value.
-/
namespace Sys2Proof.Machine

open Sys2Proof

-- Reading (R421) ------------------------------------------------------------------------------------------------------------------

/-- The port whose index element i of a register stands for. -/
def regPort (r : Reg) (i : Nat) : Option Nat :=
  match r with
  | .PORT_FWDMODE | .PORT_EGCFG | .PORT_RXFRAME | .PORT_RXREJ | .PORT_LINKERR | .PORT_FRCLR | .PORT_HEALTH | .PORT_KA | .LANE_PMAP | .LANE_FECCW => some i
  | .PORT_QMAP => some (i / 3)
  | .PORT_VCCRED => some (i / 16)
  | .PORT_QSHAPE | .PORT_QSTAT => some (i / 32)
  | .CADDY_QUOTA | .CADDY_QUSE | .CADDY_QTALLY => if i < 128 then some i else none
  | _ => none

/-- A reserved index (R421): one of a port that the port map does not define, or v = 0 of PORT_VCCRED. -/
def State.regReserved (s : State) (r : Reg) (i : Nat) : Bool :=
  (match regPort r i with
    | some p => !(s.port p).present
    | none => false) || (r = .PORT_VCCRED && i % 16 = 0)

/-- The field with the value n. -/
def fldSet (w : Word) (f : Fld) (n : Nat) : Word := wset w f.lo f.w n

/-- What register r(i) reads: fields that show other state are taken from it. -/
def ctlRead (s : State) (r : Reg) (i : Nat) : Word :=
  let w := s.reg r i
  if s.regReserved r i then 0
  else
    match r with
    | .ROD_STATUS => (s.core i).statusWord
    | .ROD_TOKENS_LO => (s.core i).tokWord 0
    | .ROD_TOKENS_HI => (s.core i).tokWord 8
    | .KETTLE_BOOT => fldSet w F.KETTLE_BOOT_FUSESVN s.fuses.svn
    | .PORT_VCCRED => fldSet w F.PORT_VCCRED_AVAIL (if s.linked (i / 16) then sat ((s.port (i / 16)).account (i % 16)).avail 18 else 0)
    | .PORT_QSHAPE => if i % 32 = 0 then fldSet w F.PORT_QSHAPE_RATE ((s.port (i / 32)).rate / 64) else w
    | .CADDY_POOL => fldSet w F.CADDY_POOL_FREE (if i < 16 then s.poolFree (i / 4) (i % 4) else s.poolFree 0 (i - 12))
    | .ROUTE_BANK =>
      if wbits w 0 2 = 3 then fldSet w F.ROUTE_BANK_DRAINLEFT (200 - (s.now - s.net.drainAt) / us 1) else w
    | _ => w

-- Who may write (R7, R380, R422) -----------------------------------------------------------------------------------------------------

/-- The writer may change bit b of a BREW field of r(i): the owner, or while there is none a Brew-authorised FNID. -/
def State.brewMay (s : State) (w : Option Who) (r : Reg) (i b : Nat) : Bool :=
  match w with
  | none => false
  | some w =>
    match s.ownerOf r i b with
    | some o => o.speaks w
    | none => s.isBrewAuth w.fnid

/-- Writing a field of the register does something even where the value stays (R153, R336). -/
def alwaysJudged (r : Reg) : Bool := r = .SCHED_PLACE || r = .SCHED_REWIND_CMD

/-- The bits of a field that a write would change, or all of them where the write has another effect. -/
def judgedBits (r : Reg) (old v : Word) (f : RField) : List Nat :=
  ((List.range (f.hi + 1 - f.lo)).map (· + f.lo)).filter (fun b => alwaysJudged r || old.getLsbD b != v.getLsbD b)

/-- Why R7 rejects a write, in the order of Table 16.4. -/
inductive CtlRej where
  | oobw | breww | value
deriving DecidableEq, Repr

/-- A field of class OOB is changed from the fabric. -/
def oobBad (w : Option Who) (r : Reg) (i : Nat) (old v : Word) : Bool :=
  w.isSome && (r.fields i).any (fun f => f.acc = .oob && judgedBits r old v f ≠ [])

/-- A field of class BREW is changed by someone else than its owner. -/
def State.brewBad (s : State) (w : Option Who) (r : Reg) (i : Nat) (old v : Word) : Bool :=
  (r.fields i).any (fun f => f.acc = .brew && (judgedBits r old v f).any (fun b => !s.brewMay w r i b))

/-- The value that a write stores: read-only and reserved bits stay, W1C bits written as 1 are cleared. -/
def ctlNew (r : Reg) (i : Nat) (old v : Word) : Word :=
  (r.fields i).foldl (fun w f =>
    let n := f.hi + 1 - f.lo
    match f.acc with
    | .ro => w
    | .w1c => wset w f.lo n (wbits (old &&& ~~~v) f.lo n)
    | _ => wset w f.lo n (wbits v f.lo n)) old

-- Values that a field does not take (Table 16.4) -----------------------------------------------------------------------------------------

/-- n lies from a to b. -/
def within (a b n : Nat) : Bool := decide (a ≤ n) && decide (n ≤ b)

/-- The write changes field f to a value outside a range. -/
def badTo (f : Fld) (a b : Nat) (old new : Word) : Bool :=
  let n := wbits new f.lo f.w
  n ≠ wbits old f.lo f.w && !within a b n

/-- The field of a word. -/
def fldOf (w : Word) (f : Fld) : Nat := wbits w f.lo f.w

/-- CEIL, FLOOR and LIMIT hold together (R257): per slot, per die, per port. -/
def State.quotaOk (s : State) (r : Nat) : Bool :=
  let fl (q : Nat) : Nat := s.fld F.CADDY_QUOTA_FLOOR q
  let d := slotDie r
  decide (fl r ≤ s.fld F.CADDY_QUOTA_CEIL r) &&
    decide (((dieSlots d).map fl).sum + ((s.partList.filter (fun (x : Nat × Part) => x.2.die = d)).map (fun (x : Nat × Part) => cnt x.2.res 0)).sum ≤
      s.fld F.CADDY_POOL_COUNT (poolIdx d 0)) &&
    (decide (128 ≤ r) || decide (((List.range 15).map (fun v => s.fld F.PORT_VCCRED_LIMIT (16 * r + v + 1))).sum ≤ fl r))


/-- The conditions of R291 on the word of a valid region i. -/
def State.rangeOk (s : State) (i : Nat) (w : Word) : Bool :=
  let l := wbits w 48 6
  let b := wbits w 0 48
  within 21 38 l && b % 2 ^ l = 0 && decide (b + 2 ^ l ≤ hbmSize) && !rangesMeet b (2 ^ l) s.caddyLo (s.caddyHi - s.caddyLo) &&
    s.regs.all (fun (x : Nat × Word) =>
      let o := Reg.base .MEMREG_RANGE
      !(decide (o ≤ x.1) && decide (x.1 < o + 8 * 4096) && x.1 ≠ o + 8 * i && x.2.getLsbD 63) ||
        !rangesMeet b (2 ^ l) (wbits x.2 0 48) (2 ^ wbits x.2 48 6))

/-- R238: a write may take bank b from one word to another. -/
def State.bankStep (s : State) (b : Nat) (old new : Word) : Bool :=
  let so := wbits old 0 2
  let sn := wbits new 0 2
  let eo := wbits old 8 2
  let en := wbits new 8 2
  let other := s.reg .ROUTE_BANK (1 - b)
  (eo = en || so = 0) &&
    (so = sn || (so = 0 && sn = 1 && (en ≠ wbits other 8 2 || wbits other 0 2 = 0)) || (so = 1 && sn = 0) || (so = 1 && sn = 2))

/-- The route bank that an entry of a forwarding table belongs to. -/
def tableBank (r : Reg) (i : Nat) : Nat := if r = .ROUTE_UPPORT then i / 64 else i / 128

/-- The queue of traffic class tc in a word of PORT_QMAP. -/
def qmapQ (w : Word) (tc : Nat) : Nat := wbits w (5 * tc) 5

/-- R265: the entries that change name queues 1 to 19, and no queue has two VCs. -/
def State.qmapOk (s : State) (i : Nat) (old new : Word) : Bool :=
  (List.range 8).all (fun tc => qmapQ old tc = qmapQ new tc || within 1 19 (qmapQ new tc)) &&
    (List.range 3).all (fun v => v = i % 3 || (List.range 8).all (fun a => (List.range 8).all (fun b =>
      let q := qmapQ (s.reg .PORT_QMAP (i / 3 * 3 + v)) a
      q = 0 || q ≠ qmapQ new b)))

/-- R406: the starting coefficients lie in their ranges. -/
def laneCfgOk (w : Word) : Bool :=
  let c (f : Fld) : Int := sext (fldOf w f) 8
  let cm3 := c F.LANE_CFG_CM3
  let cm2 := c F.LANE_CFG_CM2
  let cm1 := c F.LANE_CFG_CM1
  let cp1 := c F.LANE_CFG_CP1
  decide (-12 ≤ cm3) && decide (cm3 ≤ 0) && decide (0 ≤ cm2) && decide (cm2 ≤ 24) && decide (-68 ≤ cm1) && decide (cm1 ≤ 0) &&
    decide (-40 ≤ cp1) && decide (cp1 ≤ 0) && decide (cm2 - cm3 - cm1 - cp1 ≤ 92)

/-- R339: a unit command that may start. -/
def State.unitCmdOk (s : State) (w : Word) : Bool :=
  let n := fldOf w F.GLOBAL_UNITCMD_INDEX
  match fldOf w F.GLOBAL_UNITCMD_KIND with
  | 0 => decide (n < 128) && (s.port n).present
  | 1 => fldOf w F.GLOBAL_UNITCMD_ACTION = 1 || (s.brewOf n).isNone
  | 2 => decide (n < 12)
  | _ => false

/-- The steps of admitted Brews that are open: the step in progress, and those of open layer steps (R153). -/
def State.openSteps (s : State) : List Word :=
  ((s.brewList.filter (fun (x : Nat × Brew) => !x.2.armed)).map (fun (x : Nat × Brew) => s.brewStep x.1)) ++ s.exp.layers.map Layer.step

/-- The current step of each Brew, and the steps of open layer steps that are not later than it (R153). -/
def State.stepsSoFar (s : State) : List Word :=
  ((s.brewList.filter (fun (x : Nat × Brew) => !x.2.armed)).map (fun (x : Nat × Brew) => s.brewStep x.1)) ++
    ((s.exp.layers.filter (fun l => s.brewList.all (fun (x : Nat × Brew) => !x.2.claims 1 l.desc || decide (l.step.toNat ≤ (s.brewStep x.1).toNat)))).map
      Layer.step)

/-- A format code that Table 2.1 reserves, or that no descriptor takes (R33). -/
def fmtReserved (n : Nat) : Bool := (Fmt.ofCode n).all (· = .bead)

/-- Word new in the first word of a descriptor that an admitted Brew claims names a reserved format code: R33 rejects the descriptor with status, and R7 does so
at the write (DESIGN CHOICE, log entry 127). -/
def State.fmtBad (s : State) (t i : Nat) (codes : List Nat) : Bool :=
  i % 8 = 0 && codes.any fmtReserved && s.brewList.any (fun (x : Nat × Brew) => x.2.claims t (i / 8))

/-- The value that a write would store in r(i) is one that the field or the state does not permit. -/
def State.valueBad (s : State) (r : Reg) (i : Nat) (old new v : Word) : Bool :=
  match r with
  | .GLOBAL_UNITCMD => if s.bit F.GLOBAL_UNITCMD_BUSY 0 then new ≠ old || v.getLsbD 11 else v.getLsbD 11 && !s.unitCmdOk new
  | .KETTLE_PWR_CMD => v.getLsbD 2 && (wbits new 0 2 = 3 || (wbits new 0 2 ≠ 0 && s.pwrBusy))
  | .KETTLE_PWR_CAP =>
    (badTo F.KETTLE_PWR_CAP_CAPW 400 1800 old new && fldOf new F.KETTLE_PWR_CAP_CAPW ≠ 0) || badTo F.KETTLE_PWR_CAP_WINDOW 1 255 old new
  | .KETTLE_SHADOW_CFG => badTo F.KETTLE_SHADOW_CFG_RATE 0 20 old new
  | .PORT_HB_CFG =>
    badTo F.PORT_HB_CFG_PROBMS 1 65535 old new || badTo F.PORT_HB_CFG_UCWBURST 1 65535 old new || badTo F.PORT_HB_CFG_MISSLIM 2 255 old new
  | .PORT_KA => badTo F.PORT_KA_IDLEMS 1 65535 old new
  | .PORT_VCCRED =>
    new ≠ old && ((badTo F.PORT_VCCRED_LIMIT 17 262143 old new && fldOf new F.PORT_VCCRED_LIMIT ≠ 0) || !(s.setReg r i new).quotaOk (i / 16))
  | .CADDY_QUOTA => new ≠ old && !(s.setReg r i new).quotaOk i
  | .PORT_QMAP => new ≠ old && !s.qmapOk i old new
  | .PORT_QSHAPE =>
    badTo F.PORT_QSHAPE_RATE 10 1600000 old new || (!within 1 19 (i % 32) && !old.getLsbD 63 && new.getLsbD 63)
  | .LANE_CFG => new ≠ old && !laneCfgOk new
  | .ROUTE_ADAPT_CFG => badTo F.ROUTE_ADAPT_CFG_QSTEP 1 4095 old new
  | .ROUTE_RESEQ_CFG => badTo F.ROUTE_RESEQ_CFG_REORDER 1 50 old new
  | .ROUTE_BANK => !s.bankStep i old new
  | .ROUTE_UPMASK | .ROUTE_UPPORT | .ROUTE_DOWNPORT => new ≠ old && s.fld F.ROUTE_BANK_STATE (tableBank r i) ≠ 0
  | .ROUTE_RSET => new ≠ old && fldOf new F.ROUTE_RSET_RULE = 1 && !within 1 64 (fldOf new F.ROUTE_RSET_NSPINE)
  | .SCHED_COLL => let d := collDesc (fun _ => new.toNat); s.fmtBad 0 i [d.fin, d.fout]
  | .SCHED_XLAYER => let d := xlayerDesc (fun _ => new.toNat); s.fmtBad 1 i [d.rfmt, d.ofmt, d.cfmt]
  | .SCHED_UNLOAD => v.getLsbD 3 && !s.canUnload (wbits new 0 3)
  | .SCHED_PLACE => s.openSteps.any (fun st => s.placeBank st = some (i / 65536))
  | .SCHED_PLACE_EFF => new ≠ old && s.stepsSoFar.any (fun st => (s.setReg r i new).placeBank st = some i)
  | .MEMREG_CFG => badTo F.MEMREG_CFG_FTIMEOUT 1 1000000 old new || badTo F.MEMREG_CFG_WINDOW 10 10000 old new
  | .MEMREG_RANGE => new ≠ old && new.getLsbD 63 && !s.rangeOk i new
  | .MEMREG_CTL => badTo F.MEMREG_CTL_MODE 0 3 old new
  | .TALLY_TELE_CFG => badTo F.TALLY_TELE_CFG_PERIOD 100 1000000 old new
  | .AUDIT_RECHK =>
    v.getLsbD 3 && (s.bit F.AUDIT_RECHK_BUSY 0 || (s.brews.lk none (wbits new 0 3)).isNone)
  | _ => false

/-- R7: why a write of v to r(i) is rejected; none where it is applied. -/
def State.ctlCheck (s : State) (w : Option Who) (r : Reg) (i : Nat) (v : Word) : Option CtlRej :=
  let old := ctlRead s r i
  if oobBad w r i old v then some .oobw
  else if s.brewBad w r i old v then some .breww
  else if s.regReserved r i || s.valueBad r i old (ctlNew r i old v) v then some .value
  else none

-- What a write does ------------------------------------------------------------------------------------------------------------------

/-- The bits of a register that command something and read as zero. -/
def cmdBits (r : Reg) : Word :=
  match r with
  | .GLOBAL_REJ_CLR | .GLOBAL_STRICT_CLR | .PORT_FRCLR | .ROUTE_TALLY_CLR | .SCHED_BREACH_CLR | .SCHED_EXP_CLR | .CADDY_CLR | .MEMREG_CLR | .CBOARD_CLR => 1
  | .GLOBAL_UNITCMD => 0x800
  | .KETTLE_PWR_CMD => 4
  | .KETTLE_HEALTH_CLR => 0xF
  | .PORT_EGCFG => 0x100
  | .SCHED_UNLOAD => 8
  | .SCHED_COLL_CLR | .SCHED_SAMP_CLR => 0x3FF
  | .ROD_CTRL => 6
  | .BEAD_TALLY_CLR => 0xFF
  | .AUDIT_RECHK => 8
  | _ => 0

/-- A count of BEAD_TALLY or of the speculation counters is cleared: what has been reported of it is taken back (Table 13.17). -/
def rebase (i : Nat) (s : State) : State :=
  let n : Int := s.counted i
  let upd (m : SMap Int) (j : Nat) : SMap Int := m.put 0 j (m.lk 0 j - n)
  { s with kettle := { s.kettle with numBase := upd (upd s.kettle.numBase i) (16 + i) } }

/-- BEAD_TALLY_CLR. -/
def beadClear (v : Word) (s : State) : State :=
  eachDo ((List.range 8).filter (fun k => v.getLsbD k)) (fun k s => (rebase k s).setReg .BEAD_TALLY k 0) s

/-- SCHED_EXP_CLR (R176). -/
def expClear (s : State) : State :=
  let s := eachDo [8, 9, 10, 11, 12] rebase s
  clearRegs .SCHED_EXP_EVT (clearRegs .SCHED_EXP_SQ (clearRegs .SCHED_EXP_SPEC (clearRegs .SCHED_EXP_TOK (clearRegs .SCHED_EXP_DROP s))))

/-- SCHED_COLL_CLR (R141). -/
def collClear (v : Word) (s : State) : State :=
  eachDo ((List.range 10).filter (fun g => v.getLsbD g)) (fun g s =>
    ((s.setReg .SCHED_COLL_DROP g 0).setReg .SCHED_COLL_END g 0).setReg .SCHED_COLL_SPARSE g 0) s

/-- SCHED_SAMP_CLR (R198). -/
def sampClear (v : Word) (s : State) : State :=
  eachDo ((List.range 10).filter (fun g => v.getLsbD g)) (fun g s => s.setReg .SCHED_SAMP_EVT g 0) s

/-- PORT_FRCLR. -/
def frClear (p : Nat) (s : State) : State := ((s.setReg .PORT_RXFRAME p 0).setReg .PORT_RXREJ p 0).setReg .PORT_LINKERR p 0

/-- PORT_EGCFG.QCLR (R270). -/
def qClear (p : Nat) (s : State) : State := eachDo (List.range 32) (fun q s => s.setFld F.PORT_QSTAT_MAXDEPTH (32 * p + q) 0) s

/-- ROUTE_TALLY_CLR (R251). -/
def routeClear (s : State) : State :=
  clearRegs .MCAST_TALLY (clearRegs .ROUTE_RESEQ_TALLY (clearRegs .ROUTE_PATH_TALLY (clearRegs .ROUTE_FWD_TALLY s)))

/-- CADDY_CLR (R264). A PEAK is the largest since the clear (Tables 9.6 and 9.9), and so begins with what is charged at the clear (log entry 89). -/
def caddyClear (s : State) : State :=
  let s := clearRegs .CADDY_EVT (clearRegs .CADDY_PSTAT (clearRegs .CADDY_QTALLY s))
  let s := eachDo (List.range 384) (fun r s => s.setFld F.CADDY_QUSE_PEAK r (s.fld F.CADDY_QUSE_USED r)) s
  eachDo s.partList (fun (x : Nat × Part) s => s.setFld F.CADDY_PSTAT_PEAK x.1 (heldCells x.2.use)) s

/-- MEMREG_CLR (R302). -/
def memregClear (s : State) : State :=
  eachDo (List.range 4096) (fun i s => s.setFld F.MEMREG_FSTAT_COUNT i 0) (clearRegs .MEMREG_ERR (clearRegs .MEMREG_TALLY s))

/-- A command to a unit (R339). -/
def unitCmd (w : Word) (s : State) : State :=
  let n := fldOf w F.GLOBAL_UNITCMD_INDEX
  let remove : Bool := fldOf w F.GLOBAL_UNITCMD_ACTION = 1
  match fldOf w F.GLOBAL_UNITCMD_KIND with
  | 0 => if remove then portRemove n s else portReturn n s
  | 1 => if remove then coreRemove n s else coreReturn n s
  | _ => if remove then stackRemove n s else stackReturn n s

/-- A command to the power manager (R392). -/
def pwrCmd (w : Word) (s : State) : State :=
  match wbits w 0 2 with
  | 0 => pwrRun s
  | 1 => pwrIdle s
  | _ => pwrKettleOnly s

/-- A bank becomes ARMED: the switch-facing ports leave keepalive (R238). -/
def bankArm (s : State) : State :=
  eachDo (s.portList.filter (fun p => !(s.port p).edge && (s.lstate p = 6 || (s.port p).ka = .entering))) kaLeave s

/-- Bank b becomes CURRENT: the other one drains, and HELD ports become UP (R238, R340). -/
def bankCurrent (b : Nat) (s : State) : State :=
  let s := (s.setFld F.ROUTE_BANK_STATE (1 - b) 3).setFld F.ROUTE_BANK_DRAINLEFT (1 - b) 200
  let s := { s with net := { s.net with drainAt := s.now } }
  eachDo (s.portList.filter (fun p => s.lstate p = 4)) portUp s

/-- ROD_CTRL(c): the clears, and HALT (R428). -/
def rodCtrl (c : Nat) (old v : Word) (s : State) : State :=
  let s := if v.getLsbD 1 then s.setReg .ROD_HAZ_CNT c 0 else s
  let s := if v.getLsbD 2 then s.setReg .ROD_CMD_TALLY c 0 else s
  if v.getLsbD 0 && !old.getLsbD 0 then haltSet c s else if !v.getLsbD 0 && old.getLsbD 0 then haltClear c s else s

/-- Descriptors whose instances or later instances are open now because they were written while one ran (R105, R189, R308). -/
def taintColl (p : Bool → Nat → CDesc → Bool) (running : Bool) (ds : List (Bool × Nat)) (s : State) : State :=
  let hit (x : Bool × Nat) : Bool := p x.1 x.2 (s.desc x.1 x.2) && (!running || s.coll.insts.any (fun y => y.samp = x.1 && y.desc = x.2))
  let new := ds.filter (fun x => hit x && !s.coll.tainted.contains x)
  { s with coll := { s.coll with
      tainted := s.coll.tainted ++ new
      insts := s.coll.insts.map (fun y => if new.contains (y.samp, y.desc) then { y with undef := true } else y) } }

/-- As taintColl, for layer descriptors (R145). -/
def taintExp (p : Nat → XDesc → Bool) (s : State) : State :=
  let new := ((s.exp.layers.map Layer.desc).eraseDups).filter (fun d => p d (s.xdesc d) && !s.exp.tainted.contains d)
  let s := expUndef (fun l => new.contains l.desc) s
  { s with exp := { s.exp with tainted := s.exp.tainted ++ new } }

/-- The descriptors of open instances. -/
def State.openDescs (s : State) : List (Bool × Nat) := (s.coll.insts.map (fun x => (x.samp, x.desc))).eraseDups

/-- n entries from base on hold entry e. -/
def holds (base n e : Nat) : Bool := decide (base ≤ e) && decide (e < base + n)

/-- The core waits between steps: in STEPWAIT or LOADED, or in a quiz or a HALT that it entered from there (R69, R308, R428). -/
def Core.between (k : Core) : Bool :=
  let st := if k.st = .quiz || k.st = .halted then k.prior else k.st
  st = .stepwait || st = .loaded

/-- A write to a descriptor, a member, owner, block map or combine map entry while work that uses it is open, or to a seed in mid-step (R105, R145, R189,
R308). The entries are those that the write changes. A seed that is written between steps stays in force as it was until the next release; sampling instances that use it and
are open then are instances whose seed table was written while they ran (R189). -/
def taint (r : Reg) (i : Nat) (old new : Word) (s : State) : State :=
  let changed (lo n : Nat) : Bool := wbits old lo n ≠ wbits new lo n
  match r with
  | .SCHED_COLL => s.when (old ≠ new) (taintColl (fun m d _ => !m && d = i / 8) true s.openDescs)
  | .SCHED_SAMPLE => s.when (old ≠ new) (taintColl (fun m d _ => m && d = i / 8) true s.openDescs)
  | .SCHED_XLAYER => s.when (old ≠ new) (taintExp (fun d _ => d = i / 8))
  | .SCHED_MEMBER =>
    let es := ((List.range 4).filter (fun j => changed (16 * j) 16)).map (· + 4 * i)
    taintExp (fun _ d => es.any (holds d.otbase d.otcount)) (taintColl (fun _ _ d => es.any (holds d.mtbase d.mcount)) true s.openDescs s)
  | .SCHED_BMAP =>
    let es := ((List.range 2).filter (fun j => changed (32 * j) 32)).map (· + 2 * i)
    taintExp (fun _ d => es.any (fun e => holds d.cmbase d.cmcount e || holds d.rmbase ((d.nexp + 31) / 32) e))
      (taintColl (fun _ _ d => es.any (holds d.bmbase (2 * d.window))) true s.openDescs s)
  | .SCHED_SEED =>
    match s.brews.lk none (i / 256) with
    | none => s
    | some b =>
      let between : Bool := b.cores.all (fun c => (s.core c).between)
      let ds := (b.entries 0).map (fun d => (false, d)) ++ (b.entries 2).map (fun d => (true, d))
      if old = new then s
      else if between then
        let j := i % 256
        let s := taintColl (fun m _ d => m && d.seedidx = j) true ds s
        if (b.seedOld.lk none j).isSome then s
        else { s with brews := s.brews.put none (i / 256) (some { b with seedOld := b.seedOld.put none j (some old) }) }
      else taintColl (fun m _ d => (m || d.audit) && d.seedidx = i % 256) false ds s
  | _ => s

/-- The effect of an accepted write of v, by which r(i) goes from old to new, beyond storing the value. -/
def ctlEffect (r : Reg) (i : Nat) (old new v : Word) (s : State) : State :=
  match r with
  | .GLOBAL_MODE => s.when (old.getLsbD 0 != new.getLsbD 0) (addRec 0x14 dieAll [if new.getLsbD 0 then 1 else 0])
  | .GLOBAL_REJ_CLR => s.when (v.getLsbD 0) (clearRegs .GLOBAL_REJ)
  | .GLOBAL_STRICT_CLR => s.when (v.getLsbD 0) (clearRegs .GLOBAL_STRICT_TALLY)
  | .GLOBAL_UNITCMD => s.when (v.getLsbD 11) (unitCmd new)
  | .KETTLE_PWR_CMD => s.when (v.getLsbD 2) (pwrCmd new)
  | .KETTLE_HEALTH_CLR => healthClear v s
  | .PORT_FRCLR => s.when (v.getLsbD 0) (frClear i)
  | .PORT_EGCFG => s.when (v.getLsbD 8) (qClear i)
  | .ROUTE_TALLY_CLR => s.when (v.getLsbD 0) routeClear
  | .ROUTE_BANK =>
    if wbits old 0 2 = 0 && wbits new 0 2 = 1 then bankArm s
    else if wbits old 0 2 = 1 && wbits new 0 2 = 2 then bankCurrent i s
    else s
  | .SCHED_UNLOAD => s.when (v.getLsbD 3) (startUnload (wbits new 0 3) none)
  | .SCHED_REWIND_CMD => rewindWrite i v s
  | .SCHED_BREACH_CLR => s.when (v.getLsbD 0) (clearRegs .SCHED_BREACH)
  | .SCHED_COLL_CLR => collClear v s
  | .SCHED_EXP_CLR => s.when (v.getLsbD 0) expClear
  | .SCHED_SAMP_CLR => sampClear v s
  | .SCHED_PLACE => s.setReg .SCHED_PLACE_EFF (i / 65536) (BitVec.allOnes 64)
  | .CADDY_CLR => s.when (v.getLsbD 0) caddyClear
  | .ROD_CTRL => rodCtrl i old v s
  | .BEAD_TALLY_CLR => beadClear v s
  | .MEMREG_CLR => s.when (v.getLsbD 0) memregClear
  | .CBOARD_CLR => s.when (v.getLsbD 0) (clearRegs .CBOARD_TALLY)
  | .TALLY_TELE_CFG =>
    let s := s.setFld F.TALLY_TELE_CFG_REPLAY 0 (if old.getLsbD 21 then 1 else 0)
    s.when (v.getLsbD 21 && !old.getLsbD 21) replayStart
  | .LANE_PMAP => pmapHold i old s
  | .LANE_CFG => match s.lanePort i with
    | some p => laneCfgHold p i old s
    | none => s
  | .AUDIT_RECHK => s.when (v.getLsbD 3) (fun s => { s.setFld F.AUDIT_RECHK_BUSY 0 1 with board := { s.board with recheck := wbits new 0 3 } })
  | _ => taint r i old new s

/-- The register with the value that an accepted write of v stores. -/
def storeReg (r : Reg) (i : Nat) (v : Word) (s : State) : State := s.setReg r i (ctlNew r i (s.reg r i) v &&& ~~~ cmdBits r)

/-- An accepted write. -/
def ctlApply (r : Reg) (i : Nat) (v : Word) (s : State) : State :=
  let old := ctlRead s r i
  ctlEffect r i old (ctlNew r i old v) v (storeReg r i v s)

/-- The field of GLOBAL_REJ that counts a rejection (R426). -/
def CtlRej.fld : CtlRej → Fld
  | .oobw => F.GLOBAL_REJ_OOBW | .breww => F.GLOBAL_REJ_BREWW | .value => F.GLOBAL_REJ_VALUE

/-- A write that has been admitted to control space: whether R7 accepts it, and the state after it. -/
def ctlWrite (w : Option Who) (r : Reg) (i : Nat) (v : Word) (s : State) : Bool × State :=
  match s.ctlCheck w r i v with
  | some x => (false, s.bump x.fld 0)
  | none => (true, ctlApply r i v s)

/-- The operator writes the register at a control offset: whether it is accepted, and the state after it. -/
def oobWriteAt (off : Nat) (v : Word) (s : State) : Bool × State :=
  match Reg.at? off with
  | none => (false, s.bump F.GLOBAL_REJ_VALUE 0)
  | some (r, i) => ctlWrite none r i v s

/-- A fabric access refused before R7 judges it: for source, alignment or a reserved offset (R422, R423, R426). -/
def formReject (status : Nat) (s : State) : State := (countErr status s).bump F.GLOBAL_REJ_FORM 0

/-- A party's write to control space, tested in the order of R278 (R421, R422, R423). -/
def partyWrite (by_ : Party) (off : Nat) (v : Word) (s : State) : State :=
  match by_ with
  | .oob => (oobWriteAt off v s).2
  | .fnid n =>
    if !s.controlOpen ⟨n, none⟩ false then formReject 5 s
    else if off % 8 ≠ 0 then formReject 3 s
    else match Reg.at? off with
      | none => formReject 2 s
      | some (r, i) =>
        let (ok, s) := ctlWrite (some ⟨n, none⟩) r i v s
        if ok then s else countErr 5 s

/-- CONTROL_REGISTER_WRITE (R7, R422). -/
def execControlRegisterWrite (by_ : Party) (off : BitVec 32) (v : Word) (s : State) : Host.Outcome State Fault Refusal :=
  actIf s.kettleOn (partyWrite by_ off.toNat v) s

/-- A write to r(i) whose value asks for what the row names. -/
def regRow (ask : State → Bool) (by_ : Party) (r : Reg) (i : Nat) (v : Word) (s : State) : Host.Outcome State Fault Refusal :=
  actIf (s.kettleOn && ask s) (partyWrite by_ (r.off i) v) s

/-- ROD_HALT_SET (R428). -/
def execRodHaltSet (by_ : Party) (c : CoreId) (v : Word) (s : State) : Host.Outcome State Fault Refusal :=
  regRow (fun s => v.getLsbD 0 && !s.bit F.ROD_CTRL_HALT c) by_ .ROD_CTRL c v s

/-- ROD_HALT_CLEAR (R428). -/
def execRodHaltClear (by_ : Party) (c : CoreId) (v : Word) (s : State) : Host.Outcome State Fault Refusal :=
  regRow (fun s => !v.getLsbD 0 && s.bit F.ROD_CTRL_HALT c) by_ .ROD_CTRL c v s

/-- HAZCLR (Table 3.14). -/
def execHazclr (by_ : Party) (c : CoreId) (v : Word) (s : State) : Host.Outcome State Fault Refusal :=
  regRow (fun _ => v.getLsbD 1) by_ .ROD_CTRL c v s

/-- TALCLR (Table 3.14). -/
def execTalclr (by_ : Party) (c : CoreId) (v : Word) (s : State) : Host.Outcome State Fault Refusal :=
  regRow (fun _ => v.getLsbD 2) by_ .ROD_CTRL c v s

/-- PLACEMENT_WRITE (R153). -/
def execPlacementWrite (by_ : Party) (i : Fin 131072) (v : Word) (s : State) : Host.Outcome State Fault Refusal :=
  regRow (fun _ => true) by_ .SCHED_PLACE i v s

/-- PLACEMENT_EFFSTEP_WRITE (R153). -/
def execPlacementEffstepWrite (by_ : Party) (b : Fin 2) (v : Word) (s : State) : Host.Outcome State Fault Refusal :=
  regRow (fun _ => true) by_ .SCHED_PLACE_EFF b v s

/-- ROUTE_BANK_ARM (R238). -/
def execRouteBankArm (by_ : Party) (b : Fin 2) (v : Word) (s : State) : Host.Outcome State Fault Refusal :=
  regRow (fun s => s.fld F.ROUTE_BANK_STATE b = 0 && wbits v 0 2 = 1) by_ .ROUTE_BANK b v s

/-- ROUTE_BANK_DISARM (R238). -/
def execRouteBankDisarm (by_ : Party) (b : Fin 2) (v : Word) (s : State) : Host.Outcome State Fault Refusal :=
  regRow (fun s => s.fld F.ROUTE_BANK_STATE b = 1 && wbits v 0 2 = 0) by_ .ROUTE_BANK b v s

/-- ROUTE_BANK_MAKE_CURRENT (R238, R340). -/
def execRouteBankMakeCurrent (by_ : Party) (b : Fin 2) (v : Word) (s : State) : Host.Outcome State Fault Refusal :=
  regRow (fun s => s.fld F.ROUTE_BANK_STATE b = 1 && wbits v 0 2 = 2) by_ .ROUTE_BANK b v s

/-- What ROUTE_BANK_DRAIN_END changes. -/
def routeBankDrainEndEffect (b : Fin 2) (s : State) : State := (s.setFld F.ROUTE_BANK_STATE b 0).setFld F.ROUTE_BANK_DRAINLEFT b 0

/-- ROUTE_BANK_DRAIN_END (R238): 200 µs after DRAINING began. -/
def execRouteBankDrainEnd (b : Fin 2) (s : State) : Host.Outcome State Fault Refusal :=
  actIf (s.fld F.ROUTE_BANK_STATE b = 3) (routeBankDrainEndEffect b) s

/-- QCLR (Table 9.16). -/
def execQclr (by_ : Party) (p : PortId) (v : Word) (s : State) : Host.Outcome State Fault Refusal :=
  regRow (fun _ => v.getLsbD 8) by_ .PORT_EGCFG p v s

/-- CADDY_CLR (R264). A PEAK is the largest since the clear (Tables 9.6 and 9.9), and so begins with what is charged at the clear (log entry 89). -/
def execCaddyClr (by_ : Party) (v : Word) (s : State) : Host.Outcome State Fault Refusal := regRow (fun _ => v.getLsbD 0) by_ .CADDY_CLR 0 v s

/-- BEAD_TALLY_CLR. -/
def execBeadTallyClr (by_ : Party) (v : Word) (s : State) : Host.Outcome State Fault Refusal :=
  regRow (fun _ => wbits v 0 8 ≠ 0) by_ .BEAD_TALLY_CLR 0 v s

/-- SCHED_COLL_CLR (R141). -/
def execSchedCollClr (by_ : Party) (v : Word) (s : State) : Host.Outcome State Fault Refusal :=
  regRow (fun _ => wbits v 0 10 ≠ 0) by_ .SCHED_COLL_CLR 0 v s

/-- SCHED_EXP_CLR (R176). -/
def execSchedExpClr (by_ : Party) (v : Word) (s : State) : Host.Outcome State Fault Refusal :=
  regRow (fun _ => v.getLsbD 0) by_ .SCHED_EXP_CLR 0 v s

/-- SCHED_SAMP_CLR (R198). -/
def execSchedSampClr (by_ : Party) (v : Word) (s : State) : Host.Outcome State Fault Refusal :=
  regRow (fun _ => wbits v 0 10 ≠ 0) by_ .SCHED_SAMP_CLR 0 v s

/-- PORT_FRCLR (Table 7.20). -/
def execPortFrclr (by_ : Party) (p : PortId) (v : Word) (s : State) : Host.Outcome State Fault Refusal :=
  regRow (fun _ => v.getLsbD 0) by_ .PORT_FRCLR p v s

/-- ROUTE_TALLY_CLR (R251). -/
def execRouteTallyClr (by_ : Party) (v : Word) (s : State) : Host.Outcome State Fault Refusal :=
  regRow (fun _ => v.getLsbD 0) by_ .ROUTE_TALLY_CLR 0 v s

/-- SCHED_BREACH_CLR (Table 9.23). -/
def execSchedBreachClr (by_ : Party) (v : Word) (s : State) : Host.Outcome State Fault Refusal :=
  regRow (fun _ => v.getLsbD 0) by_ .SCHED_BREACH_CLR 0 v s

/-- GLOBAL_STRICT_CLR (R314). -/
def execGlobalStrictClr (by_ : Party) (v : Word) (s : State) : Host.Outcome State Fault Refusal :=
  regRow (fun _ => v.getLsbD 0) by_ .GLOBAL_STRICT_CLR 0 v s

/-- MEMREG_CLR (R302). -/
def execMemregClr (by_ : Party) (v : Word) (s : State) : Host.Outcome State Fault Refusal := regRow (fun _ => v.getLsbD 0) by_ .MEMREG_CLR 0 v s

/-- CBOARD_CLR (R302). -/
def execCboardClr (by_ : Party) (v : Word) (s : State) : Host.Outcome State Fault Refusal := regRow (fun _ => v.getLsbD 0) by_ .CBOARD_CLR 0 v s

/-- GLOBAL_REJ_CLR (R426). -/
def execGlobalRejClr (by_ : Party) (v : Word) (s : State) : Host.Outcome State Fault Refusal :=
  regRow (fun _ => v.getLsbD 0) by_ .GLOBAL_REJ_CLR 0 v s

/-- REWIND_CMD_WRITE (R336). -/
def execRewindCmdWrite (by_ : Party) (k : SlotId) (v : Word) (s : State) : Host.Outcome State Fault Refusal :=
  regRow (fun _ => true) by_ .SCHED_REWIND_CMD k v s

/-- UNLOAD_WRITE (R383). -/
def execUnloadWrite (by_ : Party) (v : Word) (s : State) : Host.Outcome State Fault Refusal := regRow (fun _ => v.getLsbD 3) by_ .SCHED_UNLOAD 0 v s

/-- STRICT_WRITE (R310): GLOBAL_MODE.STRICT is written with another value. -/
def execStrictWrite (by_ : Party) (v : Word) (s : State) : Host.Outcome State Fault Refusal :=
  regRow (fun s => v.getLsbD 0 != s.strict) by_ .GLOBAL_MODE 0 v s

/-- AUDIT_RECHECK_GO (R322). -/
def execAuditRecheckGo (by_ : Party) (v : Word) (s : State) : Host.Outcome State Fault Refusal :=
  regRow (fun _ => v.getLsbD 3) by_ .AUDIT_RECHK 0 v s

/-- A write to GLOBAL_UNITCMD that asks for a unit's action (R339): kind 0 port, 1 core, 2 stack. -/
def unitRow (kind : Nat) (remove : Bool) (by_ : Party) (v : Word) (s : State) : Host.Outcome State Fault Refusal :=
  regRow (fun _ => v.getLsbD 11 && v.getLsbD 10 == remove && wbits v 8 2 = kind) by_ .GLOBAL_UNITCMD 0 v s

/-- PORT_REMOVE (R339). -/
def execPortRemove (by_ : Party) (v : Word) (s : State) : Host.Outcome State Fault Refusal := unitRow 0 true by_ v s

/-- PORT_RETURN (R339). -/
def execPortReturn (by_ : Party) (v : Word) (s : State) : Host.Outcome State Fault Refusal := unitRow 0 false by_ v s

/-- CORE_REMOVE (R339). -/
def execCoreRemove (by_ : Party) (v : Word) (s : State) : Host.Outcome State Fault Refusal := unitRow 1 true by_ v s

/-- CORE_RETURN (R339). -/
def execCoreReturn (by_ : Party) (v : Word) (s : State) : Host.Outcome State Fault Refusal := unitRow 1 false by_ v s

/-- STACK_REMOVE (R339). -/
def execStackRemove (by_ : Party) (v : Word) (s : State) : Host.Outcome State Fault Refusal := unitRow 2 true by_ v s

/-- STACK_RETURN (R339). -/
def execStackReturn (by_ : Party) (v : Word) (s : State) : Host.Outcome State Fault Refusal := unitRow 2 false by_ v s

/-- SHADOW_CLEAR (Table 13.8). -/
def execShadowClear (by_ : Party) (v : Word) (s : State) : Host.Outcome State Fault Refusal :=
  regRow (fun _ => v.getLsbD 3) by_ .KETTLE_HEALTH_CLR 0 v s

/-- EYE_CLEAR (Table 13.8). -/
def execEyeClear (by_ : Party) (v : Word) (s : State) : Host.Outcome State Fault Refusal :=
  regRow (fun _ => v.getLsbD 2) by_ .KETTLE_HEALTH_CLR 0 v s

/-- SLACK_CLEAR (Table 13.8). -/
def execSlackClear (by_ : Party) (v : Word) (s : State) : Host.Outcome State Fault Refusal :=
  regRow (fun _ => v.getLsbD 1) by_ .KETTLE_HEALTH_CLR 0 v s

/-- TEMP_CLEAR (Table 13.8). -/
def execTempClear (by_ : Party) (v : Word) (s : State) : Host.Outcome State Fault Refusal :=
  regRow (fun _ => v.getLsbD 0) by_ .KETTLE_HEALTH_CLR 0 v s

/-- JOURNAL_REPLAY (R362). -/
def execJournalReplay (by_ : Party) (v : Word) (s : State) : Host.Outcome State Fault Refusal :=
  regRow (fun s => v.getLsbD 21 && !s.bit F.TALLY_TELE_CFG_REPLAY 0) by_ .TALLY_TELE_CFG 0 v s

/-- A write to KETTLE_PWR_CMD that asks for a state (R392). -/
def pwrRow (target : Nat) (by_ : Party) (v : Word) (s : State) : Host.Outcome State Fault Refusal :=
  regRow (fun _ => v.getLsbD 2 && wbits v 0 2 = target) by_ .KETTLE_PWR_CMD 0 v s

/-- PWR_CMD_RUN. -/
def execPwrCmdRun (by_ : Party) (v : Word) (s : State) : Host.Outcome State Fault Refusal := pwrRow 0 by_ v s

/-- PWR_CMD_IDLE. -/
def execPwrCmdIdle (by_ : Party) (v : Word) (s : State) : Host.Outcome State Fault Refusal := pwrRow 1 by_ v s

/-- PWR_CMD_KETTLE_ONLY. -/
def execPwrCmdKettleOnly (by_ : Party) (v : Word) (s : State) : Host.Outcome State Fault Refusal := pwrRow 2 by_ v s

end Sys2Proof.Machine
end

