-- ==== Sys2Proof/Machine/Boot.lean ====
section
/-!
DEFINITION. Images and the boot sequence (R29, R201, R367 to R375).
-/
namespace Sys2Proof.Machine

open Sys2Proof

-- Images in flash (R367 to R369) ----------------------------------------------------------------------------------------------------

/-- The flash offset of an image slot: 0 A, 1 B (Table 14.1). -/
def slotBase (n : Nat) : Nat := if n = 0 then 0 else 0x01800000

/-- n bytes at an offset of image slot k. -/
def State.img (s : State) (k a n : Nat) : List Byte := Mem.rd s.kettle.flash 0xFF (slotBase k + a) n

/-- Word i of the header of image slot k (Table 14.2). -/
def State.imgWord (s : State) (k i : Nat) : Nat := natLE (s.img k (8 * i) 8)

/-- LENGTH. -/
def State.imgLength (s : State) (k : Nat) : Nat := bitsOf (s.imgWord k 1) 0 32
/-- SVN. -/
def State.imgSvn (s : State) (k : Nat) : Nat := bitsOf (s.imgWord k 0) 8 8
/-- ADVANCE. -/
def State.imgAdvance (s : State) (k : Nat) : Bool := bitsOf (s.imgWord k 0) 7 1 = 1
/-- NSECT. -/
def State.imgNsect (s : State) (k : Nat) : Nat := bitsOf (s.imgWord k 0) 0 7

/-- A directory entry (Table 14.3): STYPE, SOFF, SLEN, SCRC. -/
structure Sect where
  typ : Nat
  off : Nat
  len : Nat
  crc : Nat
deriving DecidableEq, Repr

/-- The directory of image slot k. -/
def State.imgSects (s : State) (k : Nat) : List Sect :=
  (List.range (s.imgNsect k)).map (fun i =>
    let w0 := natLE (s.img k (128 + 16 * i) 8)
    let w1 := natLE (s.img k (136 + 16 * i) 8)
    ⟨bitsOf w0 0 16, bitsOf w0 32 32, bitsOf w1 0 32, bitsOf w1 32 32⟩)

/-- The pairs of control offset and value of the REGINIT section (R369). -/
def State.regInit (s : State) (k : Nat) : List (Nat × Word) :=
  match (s.imgSects k).find? (fun x => x.typ = 8) with
  | none => []
  | some x => (List.range (x.len / 16)).map (fun i => (natLE (s.img k (x.off + 16 * i) 8), BitVec.ofNat 64 (natLE (s.img k (x.off + 16 * i + 8) 8))))

-- Loading (R29, R201, R369) ---------------------------------------------------------------------------------------------------------------

/-- The bits of register r(i) that the sections of an image set: fields alone, and of the IMG fields only those that R369 names. The others, RDOPEN, PORT_FWDMODE,
PORT_KA and CAPW among them, keep zero unless REGINIT sets them. -/
def imgMask (r : Reg) (i : Nat) : Word :=
  match r with
  | .GLOBAL_MODE => 0x1
  | .LANE_PMAP => 0x3
  | .GLOBAL_MEPOCH => 0xFFFF
  | .GLOBAL_AUTH => 0x1FFFF
  | .PORT_EGCFG => 0xFFFF000000FF
  | .PORT_QMAP => 0xFFFFFFFFFF
  | .PORT_VCCRED => 0x3FFFF
  | .PORT_QSHAPE => if within 1 19 (i % 32) then 0x80FFFFFF001FFFFF else 0
  | .LANE_CFG => 0x3FFFFFFFF
  | .ROUTE_ADAPT_CFG => 0xFFFF0FFF
  | .ROUTE_BANK => if i = 0 then 0x300 else 0
  | .ROUTE_UPMASK => if i < 128 then BitVec.allOnes 64 else 0
  | .ROUTE_DOWNPORT => if i < 128 then 0xFF else 0
  | .ROUTE_UPPORT => if i < 64 then 0xFF else 0
  | .ROUTE_RSET => if i = 0 then 0x7FBF else 0
  | .CADDY_POOL => 0xFFFFFFFF
  | .CADDY_HBM => BitVec.allOnes 64
  | .CADDY_QUOTA => 0x3FFFF0003FFFF
  | .MEMREG_RANGE => 0x803FFFFFFFFFFFFF
  | .MEMREG_CTL => 0xFFFFFFFFFFFFFF0F
  | .TALLY_TELE_CFG => 0x1FFFFF
  | _ => 0

/-- One register of the image. -/
def loadReg (x : BitVec 32 × Word) (s : State) : State :=
  match Reg.at? x.1.toNat with
  | none => s
  | some (r, i) =>
    let m := imgMask r i
    if s.regReserved r i then s else s.setReg r i ((s.reg r i &&& ~~~ m) ||| (x.2 &&& m))

/-- The leaf of a port with a down-port coordinate: the switch's own at a leaf; at a single switch LEAF 0 for the 64 lowest-numbered endpoint ports and LEAF
1 for the others (R29). -/
def portLeaf (c : ImageContent) (p : PortSpec) : Nat :=
  if c.tier = .single then
    (if (c.ports.filter (fun (q : PortSpec) => q.coord.isSome && decide (q.port.val < p.port.val))).length < 64 then 0 else 1)
  else bitsOf c.fnid.toNat 8 7

/-- The port that a port map describes. -/
def portOf (c : ImageContent) (p : PortSpec) : Port :=
  { present := true, wide := p.wide, coord := p.coord.map BitVec.toNat, faces := p.faces, leaf := portLeaf c p, required := p.required, kaok := p.kaok, pmd := p.pmd }

/-- The fields that an image gives are loaded, and bank 0 is made CURRENT (R369). -/
def loadImage (c : ImageContent) (s : State) : State :=
  let s := { s with
    net := { s.net with fnid := c.fnid, tier := c.tier, ports := c.ports.foldl (fun m p => SMap.put m {} p.port.val (portOf c p)) [] }
    brewAuth := c.brewAuth }
  (eachDo c.regs loadReg s).setFld F.ROUTE_BANK_STATE 0 2

-- Verification (R370) -----------------------------------------------------------------------------------------------------------------------

/-- Check 1: MAGIC, VERSION, and LENGTH + 96 within the slot. -/
def State.imgHeaderOk (s : State) (k : Nat) : Bool :=
  bitsOf (s.imgWord k 0) 32 32 = 0x56464C49 && bitsOf (s.imgWord k 0) 16 16 = 1 && decide (s.imgLength k + 96 ≤ 0x01800000) && s.imgLength k % 8 = 0

/-- Check 2: every section within the image, no two that overlap, every SCRC correct. -/
def State.imgSectsOk (s : State) (k : Nat) : Bool :=
  let l := s.imgSects k
  let n := s.imgNsect k
  within 1 16 n && l.all (fun x => x.off % 8 = 0 && decide (128 + 16 * n ≤ x.off) && decide (x.off + x.len ≤ s.imgLength k) &&
      (crc32 (s.img k x.off x.len)).toNat = x.crc) &&
    (List.range n).all (fun i => (List.range i).all (fun j =>
      match l[i]?, l[j]? with
      | some a, some b => !rangesMeet a.off a.len b.off b.len
      | _, _ => true))

/-- The types of the sections (R369). -/
def sectTypesOk (l : List Sect) : Bool :=
  let n (t : Nat) : Nat := (l.filter (fun x => x.typ = t)).length
  [1, 3, 4, 6, 7].all (fun t => n t = 1) && [2, 5, 8].all (fun t => decide (n t ≤ 1)) && l.all (fun x => within 1 8 x.typ)

/-- R29, R201, R369: a port has a down-port coordinate or a switch that it faces: a leaf faces spines, and a spine leaves. -/
def faceOk (c : ImageContent) (p : PortSpec) : Bool :=
  match p.coord, p.faces with
  | some _, none => true
  | none, some f =>
    (match c.tier with
      | .single => false
      | .leaf => fnidValid f && fnidSpine f
      | .spine => fnidValid f && fnidLeafSwitch f)
  | _, _ => false

/-- R17, R29, R201: the port map and the switch's FNID; each pair of quads is one wide port or two ports. -/
def portMapOk (c : ImageContent) : Bool :=
  let used (p : Nat) : Bool := c.ports.any (fun q => q.port.val = p)
  (match c.tier with
    | .single => c.fnid = 0x8000
    | .leaf => fnidValid c.fnid && fnidLeafSwitch c.fnid
    | .spine => fnidValid c.fnid && fnidSpine c.fnid && c.ports.all (fun (p : PortSpec) => p.coord.isNone)) &&
    c.ports.all (fun (p : PortSpec) => faceOk c p &&
      (c.ports.filter (fun (q : PortSpec) => q.port = p.port)).length = 1 && (!p.wide || (p.port.val % 2 = 0 && !used (p.port.val + 1))) &&
        (p.coord.isNone || (c.ports.filter (fun (q : PortSpec) => q.coord = p.coord && portLeaf c q = portLeaf c p)).length = 1)) &&
    (List.range 64).all (fun n => used (2 * n) && (used (2 * n + 1) || c.ports.any (fun (p : PortSpec) => p.port.val = 2 * n && p.wide)))

/-- R218, R265, R267: the registers of port p. -/
def State.portRegsOk (s : State) (p : Nat) : Bool :=
  (List.range 15).all (fun v => let n := s.fld F.PORT_VCCRED_LIMIT (16 * p + v + 1); n = 0 || decide (17 ≤ n)) &&
    (List.range 3).all (fun v => s.qmapOk (3 * p + v) 0 (s.reg .PORT_QMAP (3 * p + v)) &&
      (List.range 8).all (fun tc => within 1 19 (qmapQ (s.reg .PORT_QMAP (3 * p + v)) tc))) &&
    (List.range 19).all (fun q => within 10 1600000 (s.fld F.PORT_QSHAPE_RATE (32 * p + q + 1)))

/-- Check 6: the sections meet R369 and the conditions of R201, R218, R232, R238, R252, R254, R257, R265, R267 and R291. -/
def State.imgContentOk (s : State) (k : Nat) (c : ImageContent) : Bool :=
  let t := loadImage c { s with regs := [], net := {} }
  let pool (i : Nat) : Nat := t.fld F.CADDY_POOL_COUNT i
  sectTypesOk (s.imgSects k) && portMapOk c && decide (c.brewAuth.length ≤ 16) && decide (c.keys.length ≤ 4) &&
    c.ports.all (fun (p : PortSpec) => t.portRegsOk p.port.val) &&
    (t.fld F.ROUTE_RSET_RULE 0 = 0 || within 1 64 (t.fld F.ROUTE_RSET_NSPINE 0)) &&
    (List.range 4).all (fun d => decide (((List.range 4).map (fun j => pool (4 * d + j) * poolCells j)).sum ≤ 249536)) &&
    decide (pool 16 * 65536 + pool 17 * 1048576 ≤ t.caddyHi - t.caddyLo) &&
    decide (t.fld F.CADDY_HBM_BASEMB 0 + t.fld F.CADDY_HBM_SIZEMB 0 ≤ 442368) &&
    ((c.ports.map (fun (p : PortSpec) => p.port.val)) ++ (List.range 256).map (· + 128)).all (fun r => t.quotaOk r) &&
    (List.range 4096).all (fun i => !t.bit F.MEMREG_RANGE_VALID i || t.rangeOk i (t.reg .MEMREG_RANGE i))

/-- The number of the first check of R370 that slot k fails; 0 where it passes. -/
def State.imgCheck (s : State) (k : Nat) (c : ImageContent) : Nat :=
  let key := s.img k 16 96
  if !s.imgHeaderOk k then 1
  else if !s.imgSectsOk k then 2
  else if sha384 key ≠ s.fuses.keyHash then 3
  else if !sigOk (natBE (key.take 48)) (natBE (key.drop 48)) (s.img k 0 (s.imgLength k)) (s.img k (s.imgLength k) 96) then 4
  else if s.imgSvn k < s.fuses.svn then 5
  else if !s.imgContentOk k c then 6
  else 0

/-- Slot k boots. -/
def chooseSlot (k : Nat) (fallback : Bool) (c : ImageContent) (s : State) : State :=
  let s := ((s.setFld F.KETTLE_BOOT_SLOT 0 k).setFld F.KETTLE_BOOT_FALLBACK 0 (if fallback then 1 else 0)).setFld F.KETTLE_BOOT_SVN 0 (s.imgSvn k)
  { s with kettle := { s.kettle with chosen := some c, phase := .verified } }

/-- The number of a failed check is recorded. -/
def noteFail (k n : Nat) (s : State) : State := s.setFld (if k = 0 then F.KETTLE_BOOT_FAILA else F.KETTLE_BOOT_FAILB) 0 n

/-- What IMAGE_VERIFY_DONE changes. -/
def imageVerifyDoneEffect (a b : ImageContent) (s : State) : State :=
  let k : Nat := if s.bit F.KETTLE_BOOT_PREFV 0 then s.fld F.KETTLE_BOOT_PREF 0 else if s.kettle.straps.bootsel then 1 else 0
  let c (k : Nat) : ImageContent := if k = 0 then a else b
  let n := s.imgCheck k (c k)
  if n = 0 then chooseSlot k false (c k) s
  else
    let m := s.imgCheck (1 - k) (c (1 - k))
    let s := noteFail k n s
    if m = 0 then chooseSlot (1 - k) true (c (1 - k)) s
    else
      let s := kettleOnly (noteFail (1 - k) m s)
      { s.setFld F.KETTLE_BOOT_RECOV 0 (if s.kettle.straps.recov then 1 else 0) with kettle := { s.kettle with noImage := true } }

/-- IMAGE_VERIFY_DONE (R370 to R372): the preferred slot, the other, or KETTLE-ONLY. -/
def execImageVerifyDone (a b : ImageContent) (s : State) : Host.Outcome State Fault Refusal :=
  actAllIf (decide (s.kettle.phase = .booting)) (imageVerifyDoneEffect a b) s

-- READY (R349, R374) --------------------------------------------------------------------------------------------------------------------------

/-- Where control space begins in the address map: control offsets count from there (R420, Table 16.1). -/
def ctlBase : Nat := 0x00FF00000000

/-- The operator writes the register at a full control offset (Tables 14.8 and 16.1). -/
def oobWriteFull (a : Nat) (v : Word) (s : State) : Bool × State :=
  if a < ctlBase then (false, s.bump F.GLOBAL_REJ_VALUE 0) else oobWriteAt (a - ctlBase) v s

/-- A BOOT record: KETTLE_BOOT with its cause, KETTLE_ID, and a position whose ID changed. -/
def bootRec (pos : Nat) (s : State) : State :=
  addRec 0x02 dieAll [ctlRead s .KETTLE_BOOT 0, ctlRead s .KETTLE_ID 0, BitVec.ofNat 64 pos] s

/-- R349: a die whose ID differs from the one its lifetime figures belong to starts new figures. -/
def lifeCheck (d : Nat) (s : State) : State :=
  let id := s.reg .KETTLE_DIEID d
  let l := s.kettle.life.lk {} d
  if id = 0 || id = l.id then s
  else if l.id = 0 then modLife d (fun l => { l with id := id }) s
  else
    let s := bootRec d (modLife d (fun _ => { id := id }) s)
    s.setFld F.KETTLE_TEMP_TLIFE d 0x8000

/-- A stack at the end of its training: in service, or out with STACKOUT set. -/
def bootStack (trained : List StackTrain) (k : Nat) (s : State) : State :=
  match trained.find? (fun t => t.stack.val = k) with
  | some t =>
    if t.ok then stackIn t s
    else (raiseFault F.GLOBAL_FAULT_STACKOUT (12 + k) s.freeVal 0xFF (stackOut k (stackTrained t s))).freed
  | none => (raiseFault F.GLOBAL_FAULT_STACKOUT (12 + k) s.freeVal 0xFF (stackOut k s)).freed

/-- The fused counter is to rise to the SVN of an image with ADVANCE, and has 64 fuses (R371); time blows them (log entry 96). -/
def fuseAdvance (s : State) : State :=
  let k := s.fld F.KETTLE_BOOT_SLOT 0
  if s.imgAdvance k then { s with kettle := { s.kettle with blow := min 64 (s.imgSvn k) } } else s

/-- What BOOT_READY changes. -/
def bootReadyEffect (trained : List StackTrain) (pllOk : Bool) (c : ImageContent) (s : State) : State :=
  if !pllOk then failStop s
  else
    let s := addLife s
    let s := loadImage c { s with kettle := { s.kettle with image := some c } }
    let s := eachDo (List.range 12) (fun d s => s.setReg .KETTLE_DIEID d (s.fuses.dieId.getD d 0)) s
    let s := eachDo (s.regInit (s.fld F.KETTLE_BOOT_SLOT 0)) (fun (x : Nat × Word) s => (oobWriteFull x.1 x.2 s).2) s
    let s := eachDo (List.range 12) (bootStack trained) s
    let s := bootRec 0xFF (eachDo (List.range 24) lifeCheck s)
    let s := { s.setFld F.KETTLE_PWR_STAT_STATE 0 0 with kettle := { s.kettle with phase := .up, readyAt := s.now } }
    let s := eachDo c.ports (fun p s => s.setLstate p.port (if p.disabled then 0 else 2)) s
    fuseAdvance s

/-- BOOT_READY (Table 14.5): the image is loaded and REGINIT applied, the stacks are trained, READY is asserted with a BOOT record, and training begins. -/
def execBootReady (trained : List StackTrain) (pllOk : Bool) (s : State) : Host.Outcome State Fault Refusal :=
  match s.kettle.chosen with
  | none => .next s
  | some c =>
    actAllIf (decide (s.kettle.phase = .verified)) (bootReadyEffect trained pllOk c) s

end Sys2Proof.Machine
end

