-- ==== Sys2Proof/Machine/Request.lean ====
section
/-!
DEFINITION. Memory requests and SYNC requests that the switch executes (R278 to R285, R292 to R300), and the grants of log room and of Caddy's buffers to what waits.
-/
namespace Sys2Proof.Machine

open Sys2Proof

-- Order (R286) ------------------------------------------------------------------------------------------------------------------------------

/-- A request with ORD waits while an earlier-sequenced request of its pair still waits at this switch (R286). -/
def State.ordHeld (s : State) (i : Nat) (f : Frame) : Bool :=
  f.ord && s.net.inbox.any (fun j => j ≠ i && (match s.buf j with
    | some b => b.frame.src = f.src && b.frame.dst = f.dst && sequenced b.frame && decide ((f.seq + 2 ^ 24 - b.frame.seq) % 2 ^ 24 < 2 ^ 23)
    | none => false))

/-- What a request that waits counts: nothing where it waits for an earlier one. -/
def memWait (w : Nat → Frame → State → State) (i : Nat) (f : Frame) (s : State) : State := if s.ordHeld i f then s else w i f s

/-- A memory request whose op code satisfies p: in its order, refused by tests 1 to 5 of R278, or handled. -/
def memUnit (p : Nat → Bool) (body : Nat → Frame → State → Option State) (wait : Nat → Frame → State → State) : Unit where
  takes f _ := f.kind = 1 && p f.opc
  use i f s :=
    if s.ordHeld i f then none
    else match s.refusal f (s.sender i f) with
      | some r => refuse i f r s
      | none => (goHome i f s).bind (body i f)
  wait := memWait wait

-- LOAD and STORE ------------------------------------------------------------------------------------------------------------------------------

/-- The bytes that an accepted LOAD reads. -/
def State.loadBytes (s : State) (f : Frame) : List Byte :=
  match placeOf f.offset with
  | .board n o => ((s.objBytes n).drop o).take f.rlen
  | .region i _ => bytesLE 8 (s.reg .MEMREG_CTL i).toNat
  | .control o => match Reg.at? o with
    | some (r, i) => bytesLE 8 (ctlRead s r i).toNat
    | none => []
  | _ => s.memRd f.offset f.rlen

/-- An accepted LOAD: UNAVAIL and UE of HBM (R279), foreign accesses (R292); a Rod window wakes the core's island. -/
def loadUse (i : Nat) (f : Frame) (s : State) : Option State :=
  match placeOf f.offset with
  | .hbm o =>
    if s.hbmGone o then refuse i f .unavail s
    else if s.hbmUeIn o f.rlen then refuse i f .ue s
    else
      let (foreign, t) := hbmAccess f.src false o f.rlen s
      reply i (statusWord 0 foreign false) (s.loadBytes f) t
  | .rod c a =>
    let s := windowDo c [(a, f.rlen, false)] id (s.wakeIsland (c / 4))
    reply i 0 (s.loadBytes f) s
  | .imem c _ => reply i 0 (s.loadBytes f) (s.wakeIsland (c / 4))
  | _ => reply i 0 (s.loadBytes f) s

/-- MREQ_LOAD (R278, R281). Requests with a reserved op code, or with one that belongs to another KIND, belong here too: BADOP refuses them (R280). -/
def execMreqLoad (f : Src) (s : State) : Host.Outcome State Fault Refusal :=
  consume (memUnit (fun op => op ≠ 2 && !isAtomicOp op) loadUse reqWait) f s

/-- A store of n bytes at an offset of HBM writes part of a bad ECC word (R279). -/
def State.storeUe (s : State) (o n : Nat) : Bool :=
  (eccWords o n).any (fun w => s.hbmUe.lk false w && !(decide (o ≤ 32 * w) && decide (32 * w + 32 ≤ o + n)))

/-- An accepted STORE (R63, R279, R292, R422): applied or refused, and named in an ACK (R282). -/
def storeUse (i : Nat) (f : Frame) (s : State) : Option State :=
  match placeOf f.offset with
  | .hbm o =>
    if s.hbmGone o then refuse i f .unavail s
    else if s.storeUe o f.len then refuse i f .ue s
    else some (ackStore i 0 (memWr f.offset f.operand (hbmAccess f.src true o f.len s).2))
  | .rod c _ => some (ackStore i 0 (windowWr f.offset f.operand (s.wakeIsland (c / 4))))
  | .imem c _ =>
    if s.imemLocked c then refuse i f .denied s
    else some (ackStore i 0 (memWr f.offset f.operand (s.wakeIsland (c / 4))))
  | .control o =>
    match Reg.at? o with
    | some (r, j) =>
      let (ok, t) := ctlWrite (some (s.sender i f)) r j (BitVec.ofNat 64 f.k) s
      if ok then some (ackStore i 0 t) else some (ackStore i 5 (countErr 5 t))
    | none => refuse i f .range s
  | _ => refuse i f .badop s

/-- MREQ_STORE (R278, R282). -/
def execMreqStore (f : Src) (s : State) : Host.Outcome State Fault Refusal := consume (memUnit (· = 2) storeUse reqWait) f s

-- Atomics (R283 to R285, R293) --------------------------------------------------------------------------------------------------------------

/-- An atomic is applied: m becomes new m x, where x is the operand read as one number; the reply data are the old m. -/
def atomicApply (f : Frame) (new : Nat → Nat → Nat) (s : State) : (Nat × List Byte) × State :=
  let w := atomicWidth f.opc
  let x := natLE f.operand
  match placeOf f.offset with
  | .hbm o =>
    if s.hbmUeIn o w then ((6, []), countErr 6 s)
    else
      let old := s.memRd f.offset w
      let (foreign, t) := hbmAccess f.src true o w s
      ((statusWord 0 foreign false, old), memWr f.offset (bytesLE w (new (natLE old) x)) t)
  | .region j _ =>
    let m := (s.reg .MEMREG_CTL j).toNat
    ((0, bytesLE w m), s.setReg .MEMREG_CTL j (BitVec.ofNat 64 (new m x)))
  | _ => ((4, []), s)

/-- An accepted atomic: STRICTREJ (R285, R311), UNAVAIL, then the replay log (R294, R295). -/
def atomicUse (new : Nat → Nat → Nat) (i : Nat) (f : Frame) (s : State) : Option State :=
  let gone : Bool := match placeOf f.offset with
    | .hbm o => s.hbmGone o
    | _ => false
  if f.opc = 0x1D && s.strict then refuse i f .strictrej (s.bump F.GLOBAL_STRICT_TALLY_FADDREJ 0)
  else if gone then refuse i f .unavail s
  else loggedUse i f none (atomicApply f new) s

/-- A row of Table 10.3. -/
def atomicRow (op : Nat) (new : Nat → Nat → Nat) (f : Src) (s : State) : Host.Outcome State Fault Refusal :=
  consume (memUnit (· = op) (atomicUse new) loggedWait) f s

/-- ADD32. -/
def execAdd32 (f : Src) (s : State) : Host.Outcome State Fault Refusal := atomicRow 0x10 (fun m x => (m + x) % 2 ^ 32) f s

/-- ADD64. -/
def execAdd64 (f : Src) (s : State) : Host.Outcome State Fault Refusal := atomicRow 0x11 (fun m x => (m + x) % 2 ^ 64) f s

/-- BEADADD: the sum modulo 2^96 in the memory form of R48. -/
def execBeadadd (f : Src) (s : State) : Host.Outcome State Fault Refusal :=
  atomicRow 0x12 (fun m x => ((BitVec.ofNat 96 (m + x)).signExtend 128).toNat) f s

/-- MINS64. -/
def execMins64 (f : Src) (s : State) : Host.Outcome State Fault Refusal := atomicRow 0x13 (fun m x => if sext m 64 ≤ sext x 64 then m else x) f s

/-- MAXS64. -/
def execMaxs64 (f : Src) (s : State) : Host.Outcome State Fault Refusal := atomicRow 0x14 (fun m x => if sext m 64 ≤ sext x 64 then x else m) f s

/-- MINU64. -/
def execMinu64 (f : Src) (s : State) : Host.Outcome State Fault Refusal := atomicRow 0x15 (fun m x => min m x) f s

/-- MAXU64. -/
def execMaxu64 (f : Src) (s : State) : Host.Outcome State Fault Refusal := atomicRow 0x16 (fun m x => max m x) f s

/-- AND64. -/
def execAnd64 (f : Src) (s : State) : Host.Outcome State Fault Refusal := atomicRow 0x17 (fun m x => m &&& x) f s

/-- OR64. -/
def execOr64 (f : Src) (s : State) : Host.Outcome State Fault Refusal := atomicRow 0x18 (fun m x => m ||| x) f s

/-- XOR64. -/
def execXor64 (f : Src) (s : State) : Host.Outcome State Fault Refusal := atomicRow 0x19 (fun m x => m ^^^ x) f s

/-- SWAP64. -/
def execSwap64 (f : Src) (s : State) : Host.Outcome State Fault Refusal := atomicRow 0x1A (fun _ x => x) f s

/-- CAS64, on HBM or on a region control word. -/
def execCas64 (f : Src) (s : State) : Host.Outcome State Fault Refusal :=
  atomicRow 0x1B (fun m x => if m = x % 2 ^ 64 then x / 2 ^ 64 else m) f s

/-- CAS128. -/
def execCas128 (f : Src) (s : State) : Host.Outcome State Fault Refusal :=
  atomicRow 0x1C (fun m x => if m = x % 2 ^ 128 then x / 2 ^ 128 else m) f s

/-- FADD32 (R285). -/
def execFadd32 (f : Src) (s : State) : Host.Outcome State Fault Refusal := atomicRow 0x1D fp32Add f s

-- SYNC requests (R298, Table 10.7) ----------------------------------------------------------------------------------------------------------

/-- The objects whose ARRIVE has a row of its own (R330, R384). -/
def arriveRowOf (n : Nat) : Bool :=
  n = 0xFFD0 || (decide (0xFFD8 ≤ n) && decide (n ≤ 0xFFDF)) || (decide (0xFFE0 ≤ n) && decide (n ≤ 0xFFE7)) ||
    (decide (0xFFF0 ≤ n) && decide (n ≤ 0xFFF7)) || n = 0xFFFF

/-- A logged request that changes object n: it is answered with COUNT and GENERATION as they then stand (R298). -/
def objUse (change : Frame → State → State) (i : Nat) (f : Frame) (s : State) : Option State :=
  loggedUse i f none (fun s => ((0, (change f s).syncData f.object), change f s)) s

/-- SYNC_ARRIVE. -/
def execSyncArrive (f : Src) (s : State) : Host.Outcome State Fault Refusal :=
  consume (syncUnit (· = 0x30) (fun n => !arriveRowOf n) (objUse (fun f => objArrive f.object f.k f.src)) loggedWait) f s

/-- SYNC_WAIT (R299). -/
def execSyncWait (f : Src) (s : State) : Host.Outcome State Fault Refusal :=
  consume (syncUnit (· = 0x31) (fun _ => true) (fun i f s => waitUse i f.object f s) reqWait) f s

/-- SYNC_ADD. -/
def execSyncAdd (f : Src) (s : State) : Host.Outcome State Fault Refusal :=
  consume (syncUnit (· = 0x32) (fun _ => true) (objUse (fun f => objAdd f.object f.k f.src)) loggedWait) f s

/-- SYNC_RESET. -/
def execSyncReset (f : Src) (s : State) : Host.Outcome State Fault Refusal :=
  consume (syncUnit (· = 0x33) (fun _ => true) (objUse (fun f => objReset f.object (leAt f.operand 0 8) (leAt f.operand 8 8))) loggedWait) f s

/-- The 64 bytes that a READ returns: of a system object of membership and replay, COUNT and GENERATION live and every other word zero (R330). -/
def State.readBytes (s : State) (n : Nat) : List Byte :=
  let live (c g : Nat) : List Byte := (([c, 0, 0, g, 0, 0, 0, 0] : List Nat).map (bytesLE 8)).flatten
  if n = 0xFFFF then live (s.fld F.GLOBAL_MEPOCH_MEPOCH 0) s.board.epochGen
  else if 0xFFF0 ≤ n && n ≤ 0xFFF7 then live (s.reg .GLOBAL_AUTH (n - 0xFFF0)).toNat s.board.authGen
  else if 0xFFE0 ≤ n && n ≤ 0xFFE7 then live (s.brewStep (n - 0xFFE0)).toNat (s.board.rewGen.lk 0 (n - 0xFFE0))
  else s.objBytes n

/-- SYNC_READ. SYNC requests with a reserved op code, or with one that belongs to another KIND, belong here too: BADOP refuses them (R280). -/
def execSyncRead (f : Src) (s : State) : Host.Outcome State Fault Refusal :=
  consume (syncUnit (fun op => op ≠ opRelease && !(decide (0x30 ≤ op) && decide (op ≤ 0x33))) (fun _ => true)
    (fun i f s => reply i 0 (s.readBytes f.object) s) reqWait) f s

-- What waits (R256, R294) -------------------------------------------------------------------------------------------------------------------

/-- A row of the table that consumes a frame. -/
abbrev RxRow := Src → State → Host.Outcome State Fault Refusal

/-- The rows of requests that the replay log holds (R294). -/
def loggedRows : List RxRow :=
  [execAdd32, execAdd64, execBeadadd, execMins64, execMaxs64, execMinu64, execMaxu64, execAnd64, execOr64, execXor64, execSwap64, execCas64, execCas128,
   execFadd32, execSyncArrive, execSyncAdd, execSyncReset, execEpochArrive, execAuthArrive, execRewindArrive, execCommitArrive, execUnloadArrive]

/-- The rows of the other requests. -/
def plainRows : List RxRow := [execMreqLoad, execMreqStore, execSyncWait, execSyncRead]

/-- The rows of frames that partitions take. -/
def unitRows : List RxRow :=
  [execCollContribRx, execCollExpsumRx, execCollGexpRx, execCollPartialRx, execCollLtallyRx, execCollResultRx, execCollStatusRx, execActRx, execTendRx,
   execExpoutRx]

/-- The state that a row of its own would leave, with what it sends beside what has been sent. -/
def rowThen (r : RxRow) (k : Nat) (s : State) : State :=
  match r (.inbox k) { s with out := [] } with
  | .next t => { t with out := s.out ++ t.out }
  | _ => s

/-- Stored frame i is handed to the row that takes it. -/
def retry (rows : List RxRow) (i : Nat) (s : State) : State :=
  eachDo rows (fun r s =>
    match s.net.inbox.findIdx? (· = i) with
    | some k => rowThen r k s
    | none => s) s

/-- Stored frame i is one of the kinds. -/
def State.waitKind (s : State) (kinds : List Nat) (i : Nat) : Bool :=
  match s.buf i with
  | some b => kinds.contains b.frame.kind
  | none => false

/-- A request that the log holds, waiting where the log had no room. -/
def State.awaitsLog (s : State) (i : Nat) : Bool :=
  match s.buf i with
  | some b => (b.frame.kind = 1 && isAtomicOp b.frame.opc) || (b.frame.kind = 5 && ([0x30, 0x32, 0x33].contains b.frame.opc))
  | none => false

/-- LOG_ROOM_GRANT (R294): the request that has waited longest is applied. -/
def execLogRoomGrant (s : State) : Host.Outcome State Fault Refusal :=
  match s.net.inbox.find? s.awaitsLog with
  | none => .next s
  | some i => actIf (!s.logFull) (retry loggedRows i) s

/-- Frames that were formed and wait for one thing leave in order, as far as it has cells. -/
def grantFormed (l : Line) (s : State) : State :=
  let mine (x : Formed) : Bool := x.line = l
  let (r, s) := formDrain (s.net.formed.filter mine) [] { s with net := { s.net with formed := s.net.formed.filter (fun x => !mine x) } }
  { s with net := { s.net with formed := s.net.formed ++ r } }

/-- Replies that were formed for slot r, an ingress port, and its requests that wait for cells are tried again. -/
def grantPort (r : Nat) (s : State) : State :=
  let s := grantFormed (.slot r) s
  eachDo (s.net.inbox.filter (fun i => s.waitKind [1, 5] i && (match s.buf i with
    | some b => b.inPort = some r
    | none => false))) (retry (plainRows ++ loggedRows)) s

/-- The requests of the fabric engine of core c that wait for cells are tried again. -/
def grantCore (c : Nat) (s : State) : State :=
  match (s.core c).fqSending with
  | none => s
  | some f =>
    (match cwOpc f.cmd.w with
      | 0x01 => fsendNext c s
      | 0x03 => requestNext c (fmemUnit c) f s
      | 0x04 => requestNext c (fsyncUnit c) f s
      | _ => none).getD s

/-- The partition that stored frame i asks for buffers: CPART of its descriptor; one of no descriptor asks for none, and comes last. -/
def State.partOf (s : State) (i : Nat) : Nat :=
  match s.buf i with
  | none => 256
  | some b =>
    if b.frame.kind = 3 then
      match s.findDesc b.frame.inst with
      | some (_, samp, k) => (s.desc samp k).cpart
      | none => 256
    else match s.findLayer b.frame.inst with
      | some (_, k) => (s.xdesc k).cpart
      | none => 256

/-- Frames that wait for partition p are tried: those that units formed, then those that arrived, oldest first. -/
def grantPart (p : Nat) (s : State) : State :=
  eachDo (s.net.inbox.filter (fun i => s.waitKind [3, 4, 6] i && s.partOf i = p)) (retry unitRows) (grantFormed (.part p) s)

/-- The partitions that something waits for, in ascending number. -/
def State.partsAsked (s : State) : List Nat :=
  ((s.net.formed.filterMap (fun x => match x.line with
    | .part i => some i
    | _ => none) ++ (s.net.inbox.filter (s.waitKind [3, 4, 6])).map s.partOf).eraseDups).mergeSort (fun a b => decide (a ≤ b))

/-- What CADDY_WAIT_GRANT changes: requests of ports, then what cores wait for, requests of this switch, partitions in ascending number, frames that
neither stands behind, frames between dies, and frames that wait for an FRECV of another die. -/
def caddyGrantEffect (s : State) : State :=
  let s := eachDo (List.range 128) grantPort s
  let s := eachDo (List.range 256) grantCore s
  let s := eachDo (s.net.inbox.filter (fun i => s.waitKind [1, 5] i && (match s.buf i with
    | some b => b.inPort = none
    | none => false))) (retry (plainRows ++ loggedRows)) s
  frecvAgain (crossDrain (eachDo (List.range 4) (fun d s => grantFormed (.loose d) s) (eachDo s.partsAsked grantPart s)))

/-- CADDY_WAIT_GRANT (R256): whatever waits for buffers is tried again, requester slots in ascending order before partitions. -/
def execCaddyWaitGrant (s : State) : Host.Outcome State Fault Refusal := act caddyGrantEffect s

end Sys2Proof.Machine
end

