-- ==== Sys2Proof/Machine/Oob.lean ====
section
/-!
DEFINITION. The management port (R377 to R379): control messages, ICMPv6 echo and neighbour discovery; and the test access port (R412).
-/
namespace Sys2Proof

open Machine

/-- MOP (Table 14.8). -/
def CtlMsg.mop (m : CtlMsg) : Nat := wbits m.w0 32 8
/-- KEYID. -/
def CtlMsg.keyId (m : CtlMsg) : Nat := wbits m.w0 28 4
/-- ARG. -/
def CtlMsg.arg (m : CtlMsg) : Nat := m.w3.toNat
/-- SEQ. -/
def CtlMsg.seq (m : CtlMsg) : Nat := m.w2.toNat

/-- The datagram is a control message: MAGIC, VERSION 1, and as many data bytes as DLEN says (log entry 31). -/
def CtlMsg.formed (m : CtlMsg) : Bool :=
  wbits m.w0 48 16 = 0x4A4D && wbits m.w0 40 8 = 1 && wbits m.w0 0 16 = m.data.length && decide (m.data.length ≤ 1024)

/-- What the signature covers: header and data. -/
def CtlMsg.signed (m : CtlMsg) : List Byte := Machine.wordsToBytes [m.w0, m.w1, m.w2, m.w3] ++ m.data

end Sys2Proof

namespace Sys2Proof.Machine

open Sys2Proof

/-- What the management port or the test access port sends. -/
def sends (o : Out) (s : State) : State := s.emit o

-- Control messages (R377 to R379) -----------------------------------------------------------------------------------------------------------

/-- Recovery (R372): neither slot verified, and the recovery strap is set. -/
def State.recovery (s : State) : Bool := s.kettle.noImage && s.kettle.straps.recov

/-- The operator key that a message is verified with: that of its KEYID in the running image's SECURITY section; in recovery the first 96 data bytes, where
their hash is the fused one; none without an image and without recovery. -/
def State.opKey (s : State) (m : CtlMsg) : Option (Nat × Nat) :=
  if s.recovery then
    if 96 ≤ m.data.length && sha384 (m.data.take 96) = s.fuses.keyHash then some (natBE (m.data.take 48), natBE ((m.data.take 96).drop 48)) else none
  else if s.kettle.noImage then none
  else match s.kettle.image with
    | none => none
    | some c => (c.keys.find? (fun (x : Nat × Nat × Nat) => x.1 = m.keyId)).map Prod.snd

/-- R378: BNONCE, SEQ and the signature. -/
def State.authentic (s : State) (m : CtlMsg) : Bool :=
  decide (m.keyId < 4) && m.w1 = s.kettle.bnonce &&
  (match s.kettle.seqs.lk none m.keyId with
    | none => true
    | some n => decide (n < m.seq)) &&
  (match s.opKey m with
    | some (x, y) => sigOk x y m.signed m.sig
    | none => false)

/-- The data of a message's operation: in recovery they follow the key. -/
def State.opData (s : State) (m : CtlMsg) : List Byte := if s.recovery then m.data.drop 96 else m.data

/-- The answer of one datagram, from the device's own address (R377, Table 14.8). Its SEQ and ARG are free values, and it carries no signature: the device holds no private key. -/
def oobReply (m : CtlMsg) (status : Nat) (data : List Byte) (s : State) : State :=
  let w0 := mkWord [(0x4A4D, 48), (status, 40), ((m.mop + 0x80) % 256, 32), (m.keyId, 28), (data.length, 0)]
  let w2 := Config.freeWord s.free
  let w3 := Config.freeWord (s.free + 1)
  sends (.udp s.ownAddr m.fromAddr m.fromPort.toNat (wordsToBytes [w0, s.kettle.bnonce, w2, w3] ++ data)) { s with free := s.free + 2 }

/-- A message is answered, and counted by its status (Table 14.25); one answered BUSY is in none of its counts. -/
def oobAnswer (m : CtlMsg) (status : Nat) (data : List Byte) (s : State) : State :=
  oobReply m status data (match status with
    | 0 => s.bump F.KETTLE_OOB_STAT_ACCEPTED 0
    | 1 => s.bump F.KETTLE_OOB_STAT_AUTHFAIL 0
    | 4 => s
    | _ => s.bump F.KETTLE_OOB_STAT_REJECT 0)

/-- A message of an operation: AUTH where it fails R378; otherwise its SEQ is the last accepted, and the operation gives a status, data and a state. -/
def oobDo (m : CtlMsg) (op : List Byte → State → Nat × List Byte × State) (s : State) : State :=
  if s.authentic m then
    let s := { s with kettle := { s.kettle with seqs := s.kettle.seqs.put none m.keyId (some m.seq) } }
    let (status, data, t) := op (s.opData m) s
    oobAnswer m status data t
  else oobAnswer m 1 [] s

/-- A row of Table 14.9. -/
def oobRow (mop : Nat) (m : CtlMsg) (op : List Byte → State → Nat × List Byte × State) (s : State) : Host.Outcome State Fault Refusal :=
  actIf (s.kettleOn && m.formed && m.mop = mop) (oobDo m op) s

/-- HELLO: unsigned. -/
def execHello (m : CtlMsg) (s : State) : Host.Outcome State Fault Refusal :=
  actIf (s.kettleOn && m.formed && m.mop = 0) (fun s =>
    oobAnswer m 0 (wordsToBytes [s.kettle.bnonce, ctlRead s .KETTLE_ID 0, ctlRead s .KETTLE_DIEID 0]) s) s

/-- The register at a full control offset; a reserved one reads as zero (R421). -/
def State.oobReadAt (s : State) (a : Nat) : Word :=
  if a < ctlBase then 0
  else match Reg.at? (a - ctlBase) with
    | some (r, i) => ctlRead s r i
    | none => 0

/-- OOB_READ: REJECT where ARG is not a multiple of 8 (R5). -/
def execOobRead (m : CtlMsg) (s : State) : Host.Outcome State Fault Refusal :=
  oobRow 1 m (fun _ s => if m.arg % 8 = 0 then (0, wordsToBytes [s.oobReadAt m.arg], s) else (2, [], s)) s

/-- OOB_WRITE: OK, or REJECT where R7 refuses the write (R423). -/
def execOobWrite (m : CtlMsg) (s : State) : Host.Outcome State Fault Refusal :=
  oobRow 2 m (fun d s =>
    if d.length ≠ 8 then (2, [], s)
    else
      let (ok, t) := oobWriteFull m.arg (BitVec.ofNat 64 (natLE d)) s
      (if ok then 0 else 2, [], t)) s

/-- OOB_RESET: the answer, then a device reset with cause OOB. -/
def execOobReset (m : CtlMsg) (s : State) : Host.Outcome State Fault Refusal :=
  actIf (s.kettleOn && m.formed && m.mop = 3) (fun s =>
    let t := oobDo m (fun _ s => (0, [], s)) s
    if s.authentic m then
      let t := deviceReset 3 (if s.kettle.phase = .brownout then .brownout else .inReset) t
      if t.kettle.pwrok then t else t.setFld F.KETTLE_PWR_STAT_STATE 0 3
    else t) s

/-- n bytes at a flash offset lie in an image slot that messages may reach: the one that did not supply the running image, in recovery either (R379). -/
def State.slotOpen (s : State) (a n : Nat) : Bool :=
  let inSlot (k : Nat) : Bool := decide (slotBase k ≤ a) && decide (a + n ≤ slotBase k + 0x01800000)
  if s.recovery then inSlot 0 || inSlot 1 else inSlot (1 - s.fld F.KETTLE_BOOT_SLOT 0)

/-- An image message: an authentic one that finds the flash in use is answered BUSY, and its SEQ is not used, so that it may be sent again (R379, log entry 100). -/
def imageRow (mop : Nat) (m : CtlMsg) (op : List Byte → State → Nat × List Byte × State) (s : State) : Host.Outcome State Fault Refusal :=
  if m.busy && s.authentic m then actIf (s.kettleOn && m.formed && m.mop = mop) (oobAnswer m 4 []) s
  else oobRow mop m op s

/-- IMGERASE. -/
def execImgerase (m : CtlMsg) (s : State) : Host.Outcome State Fault Refusal :=
  imageRow 4 m (fun _ s =>
    if s.slotOpen m.arg 1 then (0, [], { s with kettle := { s.kettle with flash := flashErase m.arg s.kettle.flash } })
    else (3, [], s)) s

/-- IMGWRITE: data that do not lie within one page are refused with REJECT. -/
def execImgwrite (m : CtlMsg) (s : State) : Host.Outcome State Fault Refusal :=
  imageRow 5 m (fun d s =>
    if !s.slotOpen m.arg d.length then (3, [], s)
    else if 256 < m.arg % 256 + d.length then (2, [], s)
    else (0, [], { s with kettle := { s.kettle with flash := flashProg m.arg d s.kettle.flash } })) s

/-- The records of the book in the 16 slots from number n on; slots are numbered 64 to a sector. -/
def State.bookFrom (s : State) (n : Nat) : List Byte :=
  (((List.range 16).map (· + n)).map (fun i => if i < 2048 * 64 then s.slotBytes (i / 64) (i % 64) else [])).filter (fun bs => bs.any (· ≠ 0xFF))
    |>.flatten

/-- BOOKREAD. -/
def execBookread (m : CtlMsg) (s : State) : Host.Outcome State Fault Refusal := oobRow 6 m (fun _ s => (0, s.bookFrom m.arg, s)) s

/-- RESERVED_MOP: REJECT (Table 14.10). -/
def execReservedMop (m : CtlMsg) (s : State) : Host.Outcome State Fault Refusal :=
  actIf (s.kettleOn && m.formed && decide (7 ≤ m.mop)) (oobDo m (fun _ s => (2, [], s))) s

-- ICMPv6 (R377) -----------------------------------------------------------------------------------------------------------------------------

/-- The addresses of the management port: its link-local one, and that of MGMT once an image has been loaded. -/
def State.myAddr (s : State) (a : BitVec 128) : Bool :=
  a = Config.linkLocal || (match s.kettle.image with
    | some c => a = c.mgmtAddr
    | none => false)

/-- The address of all nodes of the link. -/
def allNodes : BitVec 128 := 0xFF020000000000000000000000000001

/-- The sum of the 16-bit words of bytes, most significant byte first, padded with a zero byte where their number is odd. -/
def sum16 : List Byte → Nat
  | a :: b :: t => 256 * a.toNat + b.toNat + sum16 t
  | [a] => 256 * a.toNat
  | [] => 0

/-- The checksum of an ICMPv6 message whose checksum bytes are zero: the complement of the ones' complement sum over its pseudo-header and the message
(PRESUMED, log entry 102). -/
def icmpSum (src dst : BitVec 128) (bytes : List Byte) : Nat :=
  let t := sum16 (bytesBE 16 src.toNat ++ bytesBE 16 dst.toNat ++ bytesBE 4 bytes.length ++ bytesBE 4 58 ++ bytes)
  if t % 65535 = 0 then 0 else 65535 - t % 65535

/-- An ICMPv6 message with its type, code 0, its checksum and its body. -/
def icmpMsg (src dst : BitVec 128) (typ : Byte) (body : List Byte) : Out :=
  .icmp src dst (typ :: 0 :: (bytesBE 2 (icmpSum src dst (typ :: 0 :: 0 :: 0 :: body)) ++ body))

/-- ICMPV6_ECHO_REQUEST: a request to an address of the port, or to all nodes, is answered with the identifier, number and data that it carries; from the
address it was sent to, or from the device's own. -/
def execIcmpv6EchoRequest (src : IcmpEnds) (body : List Byte) (s : State) : Host.Outcome State Fault Refusal :=
  actIf (s.kettleOn && (s.myAddr src.dst || src.dst = allNodes)) (fun s =>
    sends (icmpMsg (if src.dst = allNodes then s.ownAddr else src.dst) src.src 129 body) s) s

/-- NEIGHBOUR_SOLICITATION: an advertisement for an address of the port, from it, to the solicitor, or to all nodes where the source is unspecified. -/
def execNeighbourSolicitation (src target : BitVec 128) (s : State) : Host.Outcome State Fault Refusal :=
  actIf (s.kettleOn && s.myAddr target) (fun s =>
    let anon : Bool := src = 0
    let flags : Byte := if anon then 0x20 else 0x60
    let body : List Byte := ([flags, 0, 0, 0] : List Byte) ++ bytesBE 16 target.toNat ++ ([2, 1] : List Byte) ++ bytesBE 6 Config.macAddr.toNat
    sends (icmpMsg target (if anon then allNodes else src) 136 body) s) s

-- The test access port (R412) -----------------------------------------------------------------------------------------------------------------

/-- An instruction of the test access port comes into force. -/
def setTap (j : JtagIr) (s : State) : State := { s with kettle := { s.kettle with jtagIr := j } }

/-- JTAG_BYPASS: what is shifted in leaves one bit later; the bypass register captures 0. -/
def execJtagBypass (bits : List Bool) (s : State) : Host.Outcome State Fault Refusal :=
  actIf s.kettleOn (fun s => sends (.jtag ((false :: bits).take bits.length)) (setTap .bypass s)) s

/-- JTAG_IDCODE: 0x1261_0AB7, least significant bit first. -/
def execJtagIdcode (s : State) : Host.Outcome State Fault Refusal :=
  actIf s.kettleOn (fun s => sends (.jtag ((List.range 32).map (fun i => (0x12610AB7 : BitVec 32).getLsbD i))) (setTap .idcode s)) s

/-- JTAG_SAMPLE_PRELOAD: the boundary register is sampled, whose cells are free values, and preloaded. -/
def execJtagSamplePreload (preload : List Bool) (s : State) : Host.Outcome State Fault Refusal :=
  actIf s.kettleOn (fun s =>
    let bits := (List.range preload.length).map (fun i => (Config.freeWord (s.free + i)).getLsbD 0)
    let s := setTap .samplePreload { s with free := s.free + preload.length }
    sends (.jtag bits) { s with kettle := { s.kettle with preload := preload } }) s

/-- The EXTEST family takes effect: SYS_RST_N is held low, and no rail is known to be out of its range (R412; log entry 103). -/
def State.extestOn (s : State) : Bool := s.kettleOn && !s.kettle.rstn && s.kettle.phase ≠ .brownout

/-- An instruction of the EXTEST family: it drives the pins it covers from the preload; where it has no effect it behaves as BYPASS. -/
def extest (j : JtagIr) (s : State) : Host.Outcome State Fault Refusal :=
  actIf s.kettleOn (fun s => setTap (if s.extestOn then j else .bypass) s) s

/-- JTAG_EXTEST. -/
def execJtagExtest (s : State) : Host.Outcome State Fault Refusal := extest .extest s

/-- JTAG_EXTEST_PULSE. -/
def execJtagExtestPulse (s : State) : Host.Outcome State Fault Refusal := extest .extestPulse s

/-- JTAG_EXTEST_TRAIN. -/
def execJtagExtestTrain (s : State) : Host.Outcome State Fault Refusal := extest .extestTrain s

end Sys2Proof.Machine
end

