-- ==== Sys2Proof/Machine/Strainer.lean ====
section
/-!
DEFINITION. The Strainer's commands (Table 6.1, R179 to R184).
-/
namespace Sys2Proof.Machine

open Sys2Proof

/-- Two byte ranges overlap. -/
def overlap (a n b m : Nat) : Bool := decide (0 < n ∧ 0 < m ∧ a < b + m ∧ b < a + n)

/-- R179: the addresses are 8-byte aligned, every access lies below 0x8_0000, and the bytes written overlap none read. -/
def sqArgs (reads : List (Nat × Nat)) (wr : Nat × Nat) : Bool :=
  (reads ++ [wr]).all (fun x => x.1 % 8 = 0 && decide (x.2 = 0 ∨ x.1 + x.2 ≤ 0x80000)) &&
  reads.all (fun x => !overlap x.1 x.2 wr.1 wr.2)

/-- R179 for repeat r of a Strainer command: what the repeat writes meets nothing that any repeat reads. -/
def sqOk (c : Nat) (s : State) (h : Cmd) (r : Nat) : Bool := sqArgs ((List.range (cwCount h.w)).flatMap (sqReads h)) (sqWrites c s h r)

/-- Write bytes to the core's Rod memory. -/
def sqWrite (c a : Nat) (bs : List Byte) (s : State) : State := s.modCore c (fun k => k.wrMem a bs)

/-- Count NaN keys read in FP32 mode (R181). -/
def countNan (c : Nat) (h : Cmd) (l : List SRec) (s : State) : State := s.bumpN F.ROD_STR_TALLY_NANKEY c (nanKeys (sqMode h) l)

/-- What SSORT writes. -/
def ssortOut (h : Cmd) (l : List SRec) : List SRec := (strainSort (sqMode h) (sqAsc h) l).take (sqK h l.length)

/-- The seed that entry j of core c's Brew holds; none where the Brew did not load it (R183). -/
def State.brewSeed (s : State) (c j : Nat) : Option (Nat × Word) :=
  match s.brewOf c with
  | some k => if j < s.fld F.SCHED_SEEDN_NSEED k then some (k, s.seed k j) else none
  | none => none

/-- A command of SQ that does nothing (Table 6.1). -/
def execSnop (c : CoreId) (s : State) : Host.Outcome State Fault Refusal := nopCmd c 2 s

/-- SSORT issues (Table 6.1). -/
def execSsort (c : CoreId) (s : State) : Host.Outcome State Fault Refusal :=
  startCmd c 2 0x01 (sqOk c) s

/-- SSORT has written the first K records in Strainer order (R178, R179). -/
def execSsortComplete (c : CoreId) (s : State) : Host.Outcome State Fault Refusal :=
  finishCmd c 2 0x01 (fun h r s =>
    let l := sqRecs c s (h.xAddr r) (cwImm h.w)
    countNan c h l (sqWrite c (h.yAddr r) ((ssortOut h l).map SRec.bytes).flatten s)) s

/-- SMERGE issues (Table 6.1). -/
def execSmerge (c : CoreId) (s : State) : Host.Outcome State Fault Refusal :=
  startCmd c 2 0x02 (sqOk c) s

/-- SMERGE has written the first K records of the merge; each input list that is not in Strainer order is counted (R180). -/
def execSmergeComplete (c : CoreId) (s : State) : Host.Outcome State Fault Refusal :=
  finishCmd c 2 0x02 (fun h r s =>
    let bef := recBefore (sqMode h) (sqAsc h)
    let x := sqRecs c s (h.xAddr r) (immLo h)
    let z := sqRecs c s (h.zAddr r) (immHi h)
    let out := smerge bef (sqK h (x.length + z.length)) x z
    let s := countNan c h (x ++ z) (sqWrite c (h.yAddr r) (out.map SRec.bytes).flatten s)
    s.bumpN F.ROD_STR_TALLY_UNSORTED c ((if inOrder bef x then 0 else 1) + (if inOrder bef z then 0 else 1))) s

/-- SFILT issues (Table 6.1). -/
def execSfilt (c : CoreId) (s : State) : Host.Outcome State Fault Refusal :=
  startCmd c 2 0x03 (sqOk c) s

/-- SFILT has written the kept records from ARY + 8 and their count at ARY (R179, R180). -/
def execSfiltComplete (c : CoreId) (s : State) : Host.Outcome State Fault Refusal :=
  finishCmd c 2 0x03 (fun h r s =>
    let out := sfiltOut c s h r
    countNan c h (sqRecs c s (h.xAddr r) (cwImm h.w))
      (sqWrite c (h.yAddr r) (bytesLE 8 out.length ++ (out.map SRec.bytes).flatten) s)) s

/-- SCOMP issues (Table 6.1). -/
def execScomp (c : CoreId) (s : State) : Host.Outcome State Fault Refusal :=
  startCmd c 2 0x04 (sqOk c) s

/-- SCOMP has written the kept elements from ARY + 8 and their count at ARY (R180). -/
def execScompComplete (c : CoreId) (s : State) : Host.Outcome State Fault Refusal :=
  finishCmd c 2 0x04 (fun h r s =>
    let out := scompOut c s h r
    sqWrite c (h.yAddr r) (bytesLE 8 out.length ++ (out.map (bytesLE 4)).flatten) s) s

/-- SSCAN issues (Table 6.1). -/
def execSscan (c : CoreId) (s : State) : Host.Outcome State Fault Refusal :=
  startCmd c 2 0x05 (sqOk c) s

/-- SSCAN has written the inclusive prefix sums as 64-bit values (Table 6.1). -/
def execSscanComplete (c : CoreId) (s : State) : Host.Outcome State Fault Refusal :=
  finishCmd c 2 0x05 (fun h r s =>
    sqWrite c (h.yAddr r) ((prefixSums 0 (sqWords c s (h.xAddr r) (cwImm h.w))).map (bytesLE 8)).flatten s) s

/-- SPICK issues (Table 6.1). -/
def execSpick (c : CoreId) (s : State) : Host.Outcome State Fault Refusal :=
  startCmd c 2 0x06 (sqOk c) s

/-- SPICK has written INDEX and KEPT (R182, R184). -/
def execSpickComplete (c : CoreId) (s : State) : Host.Outcome State Fault Refusal :=
  finishCmd c 2 0x06 (fun h r s =>
    let bs := Mem.rd (s.core c).rmem 0 (h.xAddr r) (8 * immLo h)
    let cs := (List.range (immLo h)).map (fun i => leAt bs (8 * i) 8)
    let (i, m) := spick cs (immHi h) (Mem.rdN (s.core c).rmem 0 (h.zAddr r) 8)
    sqWrite c (h.yAddr r) (bytesLE 4 i ++ bytesLE 4 m) s) s

/-- SRAND issues; a seed that the Brew did not load is a CMD_RANGE fault (R183). -/
def execSrand (c : CoreId) (s : State) : Host.Outcome State Fault Refusal :=
  startCmd c 2 0x07 (fun s h r => sqOk c s h r && (s.brewSeed c (cwXarg h.w % 256)).isSome) s

/-- SRAND has written jrand of the seed, the Brew's step, IMM as the stream and ARZ's address as the draw (R183). -/
def execSrandComplete (c : CoreId) (s : State) : Host.Outcome State Fault Refusal :=
  finishCmd c 2 0x07 (fun h r s =>
    match s.brewSeed c (cwXarg h.w % 256) with
    | some (k, seed) =>
      let v := jrand seed (s.brewStep k) (BitVec.ofNat 32 (cwImm h.w)) (BitVec.ofNat 32 (h.zAddr r))
      sqWrite c (h.yAddr r) (bytesLE 8 v.toNat) s
    | none => s) s

end Sys2Proof.Machine
end

