-- ==== Sys2Proof/Machine/Dispatch.lean ====
section
/-!
DEFINITION. One arm per command of the table: each is one call of the command's own meaning.
-/
namespace Sys2Proof.Machine

/-- What command i does to everything but the queue of commands. -/
def exec (i : Instr) (s : State) : Host.Outcome State Fault Refusal :=
  match i with
  | .controlRegisterWrite by_ off v => Sys2Proof.Machine.execControlRegisterWrite by_ off v s
  | .add c rd rs1 rs2 => Sys2Proof.Machine.execAdd c rd rs1 rs2 s
  | .sub c rd rs1 rs2 => Sys2Proof.Machine.execSub c rd rs1 rs2 s
  | .and c rd rs1 rs2 => Sys2Proof.Machine.execAnd c rd rs1 rs2 s
  | .or c rd rs1 rs2 => Sys2Proof.Machine.execOr c rd rs1 rs2 s
  | .xor c rd rs1 rs2 => Sys2Proof.Machine.execXor c rd rs1 rs2 s
  | .sll c rd rs1 rs2 => Sys2Proof.Machine.execSll c rd rs1 rs2 s
  | .srl c rd rs1 rs2 => Sys2Proof.Machine.execSrl c rd rs1 rs2 s
  | .sra c rd rs1 rs2 => Sys2Proof.Machine.execSra c rd rs1 rs2 s
  | .slt c rd rs1 rs2 => Sys2Proof.Machine.execSlt c rd rs1 rs2 s
  | .sltu c rd rs1 rs2 => Sys2Proof.Machine.execSltu c rd rs1 rs2 s
  | .mul c rd rs1 rs2 => Sys2Proof.Machine.execMul c rd rs1 rs2 s
  | .mulhu c rd rs1 rs2 => Sys2Proof.Machine.execMulhu c rd rs1 rs2 s
  | .addi c rd rs1 imm => Sys2Proof.Machine.execAddi c rd rs1 imm s
  | .andi c rd rs1 imm => Sys2Proof.Machine.execAndi c rd rs1 imm s
  | .ori c rd rs1 imm => Sys2Proof.Machine.execOri c rd rs1 imm s
  | .xori c rd rs1 imm => Sys2Proof.Machine.execXori c rd rs1 imm s
  | .slli c rd rs1 imm => Sys2Proof.Machine.execSlli c rd rs1 imm s
  | .srli c rd rs1 imm => Sys2Proof.Machine.execSrli c rd rs1 imm s
  | .srai c rd rs1 imm => Sys2Proof.Machine.execSrai c rd rs1 imm s
  | .lui c rd imm => Sys2Proof.Machine.execLui c rd imm s
  | .shori c rd rs1 imm => Sys2Proof.Machine.execShori c rd rs1 imm s
  | .slti c rd rs1 imm => Sys2Proof.Machine.execSlti c rd rs1 imm s
  | .ld c rd rs1 imm => Sys2Proof.Machine.execLd c rd rs1 imm s
  | .lw c rd rs1 imm => Sys2Proof.Machine.execLw c rd rs1 imm s
  | .st c rs rs1 imm => Sys2Proof.Machine.execSt c rs rs1 imm s
  | .sw c rs rs1 imm => Sys2Proof.Machine.execSw c rs rs1 imm s
  | .beq c rs1 rs2 off => Sys2Proof.Machine.execBeq c rs1 rs2 off s
  | .bne c rs1 rs2 off => Sys2Proof.Machine.execBne c rs1 rs2 off s
  | .blt c rs1 rs2 off => Sys2Proof.Machine.execBlt c rs1 rs2 off s
  | .bge c rs1 rs2 off => Sys2Proof.Machine.execBge c rs1 rs2 off s
  | .bltu c rs1 rs2 off => Sys2Proof.Machine.execBltu c rs1 rs2 off s
  | .bgeu c rs1 rs2 off => Sys2Proof.Machine.execBgeu c rs1 rs2 off s
  | .jal c off => Sys2Proof.Machine.execJal c off s
  | .jalr c rd rs1 imm => Sys2Proof.Machine.execJalr c rd rs1 imm s
  | .arset c sel fld rs1 => Sys2Proof.Machine.execArset c sel fld rs1 s
  | .arget c rd sel fld => Sys2Proof.Machine.execArget c rd sel fld s
  | .arstep c sel rs1 => Sys2Proof.Machine.execArstep c sel rs1 s
  | .araddr c rd sel => Sys2Proof.Machine.execAraddr c rd sel s
  | .push c q rs1 rs2 => Sys2Proof.Machine.execPush c q rs1 rs2 s
  | .pushStallEnd c => Sys2Proof.Machine.execPushStallEnd c s
  | .qcnt c rd q => Sys2Proof.Machine.execQcnt c rd q s
  | .tsig c t => Sys2Proof.Machine.execTsig c t s
  | .twait c t => Sys2Proof.Machine.execTwait c t s
  | .tokenWaitGrant c t => Sys2Proof.Machine.execTokenWaitGrant c t s
  | .tread c rd t => Sys2Proof.Machine.execTread c rd t s
  | .rdstep c rd => Sys2Proof.Machine.execRdstep c rd s
  | .rdcyc c rd => Sys2Proof.Machine.execRdcyc c rd s
  | .rdent c rd => Sys2Proof.Machine.execRdent c rd s
  | .rdid c rd => Sys2Proof.Machine.execRdid c rd s
  | .stepend c => Sys2Proof.Machine.execStepend c s
  | .stepwaitEnter c => Sys2Proof.Machine.execStepwaitEnter c s
  | .halt c => Sys2Proof.Machine.execHalt c s
  | .illegalInstruction c => Sys2Proof.Machine.execIllegalInstruction c s
  | .vnop c => Sys2Proof.Machine.execVnop c s
  | .vld c => Sys2Proof.Machine.execVld c s
  | .vst c => Sys2Proof.Machine.execVst c s
  | .vbcast c => Sys2Proof.Machine.execVbcast c s
  | .viadd c => Sys2Proof.Machine.execViadd c s
  | .visub c => Sys2Proof.Machine.execVisub c s
  | .vimul c => Sys2Proof.Machine.execVimul c s
  | .vand c => Sys2Proof.Machine.execVand c s
  | .vor c => Sys2Proof.Machine.execVor c s
  | .vxor c => Sys2Proof.Machine.execVxor c s
  | .vshl c => Sys2Proof.Machine.execVshl c s
  | .vshr c => Sys2Proof.Machine.execVshr c s
  | .vmin c => Sys2Proof.Machine.execVmin c s
  | .vmax c => Sys2Proof.Machine.execVmax c s
  | .vcmp c => Sys2Proof.Machine.execVcmp c s
  | .vsel c => Sys2Proof.Machine.execVsel c s
  | .vfadd c => Sys2Proof.Machine.execVfadd c s
  | .vfmul c => Sys2Proof.Machine.execVfmul c s
  | .vffma c => Sys2Proof.Machine.execVffma c s
  | .vcvt c => Sys2Proof.Machine.execVcvt c s
  | .vunpk c => Sys2Proof.Machine.execVunpk c s
  | .vpack c => Sys2Proof.Machine.execVpack c s
  | .vperm c => Sys2Proof.Machine.execVperm c s
  | .vexp2 c => Sys2Proof.Machine.execVexp2 c s
  | .vrmax c => Sys2Proof.Machine.execVrmax c s
  | .bexp c => Sys2Proof.Machine.execBexp c s
  | .bacc c => Sys2Proof.Machine.execBacc c s
  | .bmac c => Sys2Proof.Machine.execBmac c s
  | .baddp c => Sys2Proof.Machine.execBaddp c s
  | .bout c => Sys2Proof.Machine.execBout c s
  | .bst c => Sys2Proof.Machine.execBst c s
  | .bclr c => Sys2Proof.Machine.execBclr c s
  | .btal c => Sys2Proof.Machine.execBtal c s
  | .bscat c => Sys2Proof.Machine.execBscat c s
  | .tnop c => Sys2Proof.Machine.execTnop c s
  | .tmm c => Sys2Proof.Machine.execTmm c s
  | .tmmComplete c => Sys2Proof.Machine.execTmmComplete c s
  | .snop c => Sys2Proof.Machine.execSnop c s
  | .ssort c => Sys2Proof.Machine.execSsort c s
  | .ssortComplete c => Sys2Proof.Machine.execSsortComplete c s
  | .smerge c => Sys2Proof.Machine.execSmerge c s
  | .smergeComplete c => Sys2Proof.Machine.execSmergeComplete c s
  | .sfilt c => Sys2Proof.Machine.execSfilt c s
  | .sfiltComplete c => Sys2Proof.Machine.execSfiltComplete c s
  | .scomp c => Sys2Proof.Machine.execScomp c s
  | .scompComplete c => Sys2Proof.Machine.execScompComplete c s
  | .sscan c => Sys2Proof.Machine.execSscan c s
  | .sscanComplete c => Sys2Proof.Machine.execSscanComplete c s
  | .spick c => Sys2Proof.Machine.execSpick c s
  | .spickComplete c => Sys2Proof.Machine.execSpickComplete c s
  | .srand c => Sys2Proof.Machine.execSrand c s
  | .srandComplete c => Sys2Proof.Machine.execSrandComplete c s
  | .fnop c => Sys2Proof.Machine.execFnop c s
  | .fsend c => Sys2Proof.Machine.execFsend c s
  | .fsendAccepted c => Sys2Proof.Machine.execFsendAccepted c s
  | .frecv c => Sys2Proof.Machine.execFrecv c s
  | .fmem c => Sys2Proof.Machine.execFmem c s
  | .fmemTimeout c i0 => Sys2Proof.Machine.execFmemTimeout c i0 s
  | .fsync c => Sys2Proof.Machine.execFsync c s
  | .ffence c => Sys2Proof.Machine.execFfence c s
  | .mnop c => Sys2Proof.Machine.execMnop c s
  | .mcopy c => Sys2Proof.Machine.execMcopy c s
  | .mcopyComplete c => Sys2Proof.Machine.execMcopyComplete c s
  | .mfill c => Sys2Proof.Machine.execMfill c s
  | .mfillComplete c => Sys2Proof.Machine.execMfillComplete c s
  | .mgather c => Sys2Proof.Machine.execMgather c s
  | .mgatherComplete c => Sys2Proof.Machine.execMgatherComplete c s
  | .stallLimitExpiry c w => Sys2Proof.Machine.execStallLimitExpiry c w s
  | .rodHaltSet by_ c v => Sys2Proof.Machine.execRodHaltSet by_ c v s
  | .rodHaltClear by_ c v => Sys2Proof.Machine.execRodHaltClear by_ c v s
  | .hazclr by_ c v => Sys2Proof.Machine.execHazclr by_ c v s
  | .talclr by_ c v => Sys2Proof.Machine.execTalclr by_ c v s
  | .uncorrectableEcc e => Sys2Proof.Machine.execUncorrectableEcc e s
  | .collContribRx f => Sys2Proof.Machine.execCollContribRx f s
  | .collExpsumRx f => Sys2Proof.Machine.execCollExpsumRx f s
  | .collGexpRx f => Sys2Proof.Machine.execCollGexpRx f s
  | .collPartialRx f => Sys2Proof.Machine.execCollPartialRx f s
  | .collLtallyRx f => Sys2Proof.Machine.execCollLtallyRx f s
  | .collResultRx f => Sys2Proof.Machine.execCollResultRx f s
  | .collStatusRx f => Sys2Proof.Machine.execCollStatusRx f s
  | .collBlockReduced inst step b => Sys2Proof.Machine.execCollBlockReduced inst step b s
  | .collTimeout inst step => Sys2Proof.Machine.execCollTimeout inst step s
  | .collUnmatchedExpiry i0 => Sys2Proof.Machine.execCollUnmatchedExpiry i0 s
  | .actRx f => Sys2Proof.Machine.execActRx f s
  | .tendRx f => Sys2Proof.Machine.execTendRx f s
  | .tokenRouted layer step toks => Sys2Proof.Machine.execTokenRouted layer step toks s
  | .expoutRx f => Sys2Proof.Machine.execExpoutRx f s
  | .cancelRx f => Sys2Proof.Machine.execCancelRx f s
  | .layerTimeout layer step => Sys2Proof.Machine.execLayerTimeout layer step s
  | .placementWrite by_ i0 v => Sys2Proof.Machine.execPlacementWrite by_ i0 v s
  | .placementEffstepWrite by_ b v => Sys2Proof.Machine.execPlacementEffstepWrite by_ b v s
  | .frameForward f => Sys2Proof.Machine.execFrameForward f s
  | .reseqHoldExpiry g src dst seq => Sys2Proof.Machine.execReseqHoldExpiry g src dst seq s
  | .reseqLearnEnd g src dst => Sys2Proof.Machine.execReseqLearnEnd g src dst s
  | .reseqEntryIdle g src dst => Sys2Proof.Machine.execReseqEntryIdle g src dst s
  | .mcastFrameRx f => Sys2Proof.Machine.execMcastFrameRx f s
  | .egressFrameStart p => Sys2Proof.Machine.execEgressFrameStart p s
  | .egressFrameEnd p => Sys2Proof.Machine.execEgressFrameEnd p s
  | .coarseWheelSlot p slot => Sys2Proof.Machine.execCoarseWheelSlot p slot s
  | .egressAgeing p q i0 => Sys2Proof.Machine.execEgressAgeing p q i0 s
  | .creditRx p w => Sys2Proof.Machine.execCreditRx p w s
  | .csyncRx p w => Sys2Proof.Machine.execCsyncRx p w s
  | .linkWordBad p w => Sys2Proof.Machine.execLinkWordBad p w s
  | .creditRefresh p => Sys2Proof.Machine.execCreditRefresh p s
  | .csyncSend p v => Sys2Proof.Machine.execCsyncSend p v s
  | .routeBankArm by_ b v => Sys2Proof.Machine.execRouteBankArm by_ b v s
  | .routeBankDisarm by_ b v => Sys2Proof.Machine.execRouteBankDisarm by_ b v s
  | .routeBankMakeCurrent by_ b v => Sys2Proof.Machine.execRouteBankMakeCurrent by_ b v s
  | .routeBankDrainEnd b => Sys2Proof.Machine.execRouteBankDrainEnd b s
  | .caddyWaitGrant => Sys2Proof.Machine.execCaddyWaitGrant s
  | .queueSample => Sys2Proof.Machine.execQueueSample s
  | .qclr by_ p v => Sys2Proof.Machine.execQclr by_ p v s
  | .caddyClr by_ v => Sys2Proof.Machine.execCaddyClr by_ v s
  | .beadTallyClr by_ v => Sys2Proof.Machine.execBeadTallyClr by_ v s
  | .schedCollClr by_ v => Sys2Proof.Machine.execSchedCollClr by_ v s
  | .schedExpClr by_ v => Sys2Proof.Machine.execSchedExpClr by_ v s
  | .schedSampClr by_ v => Sys2Proof.Machine.execSchedSampClr by_ v s
  | .portFrclr by_ p v => Sys2Proof.Machine.execPortFrclr by_ p v s
  | .routeTallyClr by_ v => Sys2Proof.Machine.execRouteTallyClr by_ v s
  | .schedBreachClr by_ v => Sys2Proof.Machine.execSchedBreachClr by_ v s
  | .globalStrictClr by_ v => Sys2Proof.Machine.execGlobalStrictClr by_ v s
  | .memregClr by_ v => Sys2Proof.Machine.execMemregClr by_ v s
  | .cboardClr by_ v => Sys2Proof.Machine.execCboardClr by_ v s
  | .globalRejClr by_ v => Sys2Proof.Machine.execGlobalRejClr by_ v s
  | .mreqLoad f => Sys2Proof.Machine.execMreqLoad f s
  | .mreqStore f => Sys2Proof.Machine.execMreqStore f s
  | .doneAckSend src => Sys2Proof.Machine.execDoneAckSend src s
  | .add32 f => Sys2Proof.Machine.execAdd32 f s
  | .add64 f => Sys2Proof.Machine.execAdd64 f s
  | .beadadd f => Sys2Proof.Machine.execBeadadd f s
  | .mins64 f => Sys2Proof.Machine.execMins64 f s
  | .maxs64 f => Sys2Proof.Machine.execMaxs64 f s
  | .minu64 f => Sys2Proof.Machine.execMinu64 f s
  | .maxu64 f => Sys2Proof.Machine.execMaxu64 f s
  | .and64 f => Sys2Proof.Machine.execAnd64 f s
  | .or64 f => Sys2Proof.Machine.execOr64 f s
  | .xor64 f => Sys2Proof.Machine.execXor64 f s
  | .swap64 f => Sys2Proof.Machine.execSwap64 f s
  | .cas64 f => Sys2Proof.Machine.execCas64 f s
  | .cas128 f => Sys2Proof.Machine.execCas128 f s
  | .fadd32 f => Sys2Proof.Machine.execFadd32 f s
  | .replayLogExpiry src tag => Sys2Proof.Machine.execReplayLogExpiry src tag s
  | .logRoomGrant => Sys2Proof.Machine.execLogRoomGrant s
  | .syncArrive f => Sys2Proof.Machine.execSyncArrive f s
  | .syncWait f => Sys2Proof.Machine.execSyncWait f s
  | .syncAdd f => Sys2Proof.Machine.execSyncAdd f s
  | .syncReset f => Sys2Proof.Machine.execSyncReset f s
  | .syncRead f => Sys2Proof.Machine.execSyncRead f s
  | .releaseForm n => Sys2Proof.Machine.execReleaseForm n s
  | .releaseRx f => Sys2Proof.Machine.execReleaseRx f s
  | .mrspRx f => Sys2Proof.Machine.execMrspRx f s
  | .ackDoneRx f => Sys2Proof.Machine.execAckDoneRx f s
  | .nackLostRx f => Sys2Proof.Machine.execNackLostRx f s
  | .epochArrive f => Sys2Proof.Machine.execEpochArrive f s
  | .authArrive f => Sys2Proof.Machine.execAuthArrive f s
  | .rewindArrive f => Sys2Proof.Machine.execRewindArrive f s
  | .rewindCmdWrite by_ k v => Sys2Proof.Machine.execRewindCmdWrite by_ k v s
  | .rewindDone k => Sys2Proof.Machine.execRewindDone k s
  | .commitArrive f => Sys2Proof.Machine.execCommitArrive f s
  | .commitComplete => Sys2Proof.Machine.execCommitComplete s
  | .unloadArrive f => Sys2Proof.Machine.execUnloadArrive f s
  | .unloadWrite by_ v => Sys2Proof.Machine.execUnloadWrite by_ v s
  | .unloadDone => Sys2Proof.Machine.execUnloadDone s
  | .strictWrite by_ v => Sys2Proof.Machine.execStrictWrite by_ v s
  | .auditRecheckGo by_ v => Sys2Proof.Machine.execAuditRecheckGo by_ v s
  | .auditRecheckDone => Sys2Proof.Machine.execAuditRecheckDone s
  | .beatRx f => Sys2Proof.Machine.execBeatRx f s
  | .beatSend p => Sys2Proof.Machine.execBeatSend p s
  | .heartbeatInterval p => Sys2Proof.Machine.execHeartbeatInterval p s
  | .trainingSuccess p => Sys2Proof.Machine.execTrainingSuccess p s
  | .trainingTimeout p => Sys2Proof.Machine.execTrainingTimeout p s
  | .trainingRestart p => Sys2Proof.Machine.execTrainingRestart p s
  | .probationPass p => Sys2Proof.Machine.execProbationPass p s
  | .d2dLinkFail a b => Sys2Proof.Machine.execD2dLinkFail a b s
  | .portRemove by_ v => Sys2Proof.Machine.execPortRemove by_ v s
  | .portReturn by_ v => Sys2Proof.Machine.execPortReturn by_ v s
  | .coreRemove by_ v => Sys2Proof.Machine.execCoreRemove by_ v s
  | .coreReturn by_ v => Sys2Proof.Machine.execCoreReturn by_ v s
  | .stackRemove by_ v => Sys2Proof.Machine.execStackRemove by_ v s
  | .stackReturn by_ v => Sys2Proof.Machine.execStackReturn by_ v s
  | .stackScrubDone t uncorrectable => Sys2Proof.Machine.execStackScrubDone t uncorrectable s
  | .unitReturnTimeout => Sys2Proof.Machine.execUnitReturnTimeout s
  | .holdEnter mv => Sys2Proof.Machine.execHoldEnter mv s
  | .holdExit minMv => Sys2Proof.Machine.execHoldExit minMv s
  | .brownoutReset minMv => Sys2Proof.Machine.execBrownoutReset minMv s
  | .brownoutResetEnd => Sys2Proof.Machine.execBrownoutResetEnd s
  | .railUndervoltage => Sys2Proof.Machine.execRailUndervoltage s
  | .shadowCheckDone i0 upset => Sys2Proof.Machine.execShadowCheckDone i0 upset s
  | .shadowArbiterDone i0 upset => Sys2Proof.Machine.execShadowArbiterDone i0 upset s
  | .shadowCheckAbandon i0 => Sys2Proof.Machine.execShadowCheckAbandon i0 s
  | .coreQuizDue c => Sys2Proof.Machine.execCoreQuizDue c s
  | .coreQuizEnd c expected obtained => Sys2Proof.Machine.execCoreQuizEnd c expected obtained s
  | .laneQuizDue p => Sys2Proof.Machine.execLaneQuizDue p s
  | .mgmtQuizFrame f => Sys2Proof.Machine.execMgmtQuizFrame f s
  | .laneQuizNoecho p => Sys2Proof.Machine.execLaneQuizNoecho p s
  | .stackQuizDue k => Sys2Proof.Machine.execStackQuizDue k s
  | .stackQuizEnd k r => Sys2Proof.Machine.execStackQuizEnd k r s
  | .tempSample die t => Sys2Proof.Machine.execTempSample die t s
  | .slackSample n ps => Sys2Proof.Machine.execSlackSample n ps s
  | .driftSample n d => Sys2Proof.Machine.execDriftSample n d s
  | .eyeSample l height width => Sys2Proof.Machine.execEyeSample l height width s
  | .shadowClear by_ v => Sys2Proof.Machine.execShadowClear by_ v s
  | .eyeClear by_ v => Sys2Proof.Machine.execEyeClear by_ v s
  | .slackClear by_ v => Sys2Proof.Machine.execSlackClear by_ v s
  | .tempClear by_ v => Sys2Proof.Machine.execTempClear by_ v s
  | .hourlyRecords => Sys2Proof.Machine.execHourlyRecords s
  | .tallyBookWrite flashOk => Sys2Proof.Machine.execTallyBookWrite flashOk s
  | .bookBudgetRefill => Sys2Proof.Machine.execBookBudgetRefill s
  | .telemetryPeriod room => Sys2Proof.Machine.execTelemetryPeriod room s
  | .journalReplay by_ v => Sys2Proof.Machine.execJournalReplay by_ v s
  | .pldmSensorRefresh x => Sys2Proof.Machine.execPldmSensorRefresh x s
  | .getTid r => Sys2Proof.Machine.execGetTid r s
  | .getPldmTypes r => Sys2Proof.Machine.execGetPldmTypes r s
  | .getPldmCommands r => Sys2Proof.Machine.execGetPldmCommands r s
  | .getPldmVersion r => Sys2Proof.Machine.execGetPldmVersion r s
  | .getSensorReading r => Sys2Proof.Machine.execGetSensorReading r s
  | .getStateSensorReadings r => Sys2Proof.Machine.execGetStateSensorReadings r s
  | .getPdrRepositoryInfo r => Sys2Proof.Machine.execGetPdrRepositoryInfo r s
  | .getPdr r => Sys2Proof.Machine.execGetPdr r s
  | .pldmUnsupportedCommand r => Sys2Proof.Machine.execPldmUnsupportedCommand r s
  | .powerOn => Sys2Proof.Machine.execPowerOn s
  | .kettlePowerLoss => Sys2Proof.Machine.execKettlePowerLoss s
  | .sysPwrokFall => Sys2Proof.Machine.execSysPwrokFall s
  | .sysRstNAssert => Sys2Proof.Machine.execSysRstNAssert s
  | .bootStart x => Sys2Proof.Machine.execBootStart x s
  | .imageVerifyDone a b => Sys2Proof.Machine.execImageVerifyDone a b s
  | .bootReady trained pllOk => Sys2Proof.Machine.execBootReady trained pllOk s
  | .hello m => Sys2Proof.Machine.execHello m s
  | .oobRead m => Sys2Proof.Machine.execOobRead m s
  | .oobWrite m => Sys2Proof.Machine.execOobWrite m s
  | .oobReset m => Sys2Proof.Machine.execOobReset m s
  | .imgerase m => Sys2Proof.Machine.execImgerase m s
  | .imgwrite m => Sys2Proof.Machine.execImgwrite m s
  | .bookread m => Sys2Proof.Machine.execBookread m s
  | .islandSleep n => Sys2Proof.Machine.execIslandSleep n s
  | .islandWake n => Sys2Proof.Machine.execIslandWake n s
  | .prewakeDue i0 => Sys2Proof.Machine.execPrewakeDue i0 s
  | .kaIdleTimeout p => Sys2Proof.Machine.execKaIdleTimeout p s
  | .kaReq f => Sys2Proof.Machine.execKaReq f s
  | .kaAck f => Sys2Proof.Machine.execKaAck f s
  | .kaNak f => Sys2Proof.Machine.execKaNak f s
  | .kaExit f => Sys2Proof.Machine.execKaExit f s
  | .keepaliveEntered p => Sys2Proof.Machine.execKeepaliveEntered p s
  | .keepaliveEntryTimeout p => Sys2Proof.Machine.execKeepaliveEntryTimeout p s
  | .keepaliveExitDone p => Sys2Proof.Machine.execKeepaliveExitDone p s
  | .keepaliveExitTimeout p => Sys2Proof.Machine.execKeepaliveExitTimeout p s
  | .mgmtWake f => Sys2Proof.Machine.execMgmtWake f s
  | .mgmtUnknown f => Sys2Proof.Machine.execMgmtUnknown f s
  | .pwrCmdRun by_ v => Sys2Proof.Machine.execPwrCmdRun by_ v s
  | .pwrCmdIdle by_ v => Sys2Proof.Machine.execPwrCmdIdle by_ v s
  | .pwrCmdKettleOnly by_ v => Sys2Proof.Machine.execPwrCmdKettleOnly by_ v s
  | .paceStep watts => Sys2Proof.Machine.execPaceStep watts s
  | .thermalTrip die t => Sys2Proof.Machine.execThermalTrip die t s
  | .thermtripRelease => Sys2Proof.Machine.execThermtripRelease s
  | .jtagBypass bits => Sys2Proof.Machine.execJtagBypass bits s
  | .jtagIdcode => Sys2Proof.Machine.execJtagIdcode s
  | .jtagSamplePreload preload => Sys2Proof.Machine.execJtagSamplePreload preload s
  | .jtagExtest => Sys2Proof.Machine.execJtagExtest s
  | .jtagExtestPulse => Sys2Proof.Machine.execJtagExtestPulse s
  | .jtagExtestTrain => Sys2Proof.Machine.execJtagExtestTrain s
  | .linkWordResync p w => Sys2Proof.Machine.execLinkWordResync p w s
  | .uncorrectableCodeword p during => Sys2Proof.Machine.execUncorrectableCodeword p during s
  | .correctedCodeword p syms => Sys2Proof.Machine.execCorrectedCodeword p syms s
  | .reservedMop m => Sys2Proof.Machine.execReservedMop m s
  | .icmpv6EchoRequest src body => Sys2Proof.Machine.execIcmpv6EchoRequest src body s
  | .neighbourSolicitation src target => Sys2Proof.Machine.execNeighbourSolicitation src target s
  | .journalReplayEnd => Sys2Proof.Machine.execJournalReplayEnd s
  | .idleEntryDone => Sys2Proof.Machine.execIdleEntryDone s
  | .idleExitDone => Sys2Proof.Machine.execIdleExitDone s
  | .combineBlockDone layer step owner token b => Sys2Proof.Machine.execCombineBlockDone layer step owner token b s

end Sys2Proof.Machine
end

