-- ==== Sys2Proof/WellFormed.lean ====
section
/-!
DEFINITION. The checks a command must pass to be one that the hardware can be given: a field of an address register
that exists, payloads that fit a frame, blocks that exist in a message. What a check refuses has no meaning on the
hardware; the machine gives it none of its own.
-/
namespace Sys2Proof

/-- A frame has at most 4,096 payload bytes (R205), and a frame cut at ingress at most as many as it claims. -/
def RxFrame.wellFormed (f : RxFrame) : Bool :=
  decide (f.frame.payload.length ≤ 4096) && (match f.cut with
    | none => true
    | some n => decide (n ≤ f.frame.payload.length))

/-- A frame that arrives is well formed; a waiting frame is any. -/
def Src.wellFormed : Src → Bool
  | .port _ rx => rx.wellFormed
  | .inbox _ => true

/-- A control message has no signature (HELLO) or one of 96 bytes (R377). -/
def CtlMsg.wellFormed (m : CtlMsg) : Bool := decide (m.sig.length = 0 ∨ m.sig.length = 96)

/-- The checks, one arm for each row that has one. -/
def Instr.wellFormed : Instr → Bool
  | .arset _ _ f _ => decide (f.toNat < 6)
  | .arget _ _ _ f => decide (f.toNat < 6)
  | .hello m | .oobRead m | .oobWrite m | .oobReset m | .imgerase m | .imgwrite m | .bookread m | .reservedMop m =>
    m.wellFormed
  | .uncorrectableCodeword _ (some f) => f.wellFormed
  | .collContribRx f | .collExpsumRx f | .collGexpRx f | .collPartialRx f | .collLtallyRx f | .collResultRx f
  | .collStatusRx f | .actRx f | .tendRx f | .expoutRx f | .cancelRx f | .frameForward f | .mcastFrameRx f
  | .mreqLoad f | .mreqStore f | .add32 f | .add64 f | .beadadd f | .mins64 f | .maxs64 f | .minu64 f | .maxu64 f
  | .and64 f | .or64 f | .xor64 f | .swap64 f | .cas64 f | .cas128 f | .fadd32 f | .syncArrive f | .syncWait f
  | .syncAdd f | .syncReset f | .syncRead f | .releaseRx f | .mrspRx f | .ackDoneRx f | .nackLostRx f
  | .epochArrive f | .authArrive f | .rewindArrive f | .commitArrive f | .unloadArrive f | .beatRx f
  | .mgmtQuizFrame f | .kaReq f | .kaAck f | .kaNak f | .kaExit f | .mgmtWake f | .mgmtUnknown f => f.wellFormed
  | _ => true

end Sys2Proof
end

