-- ==== Sys2Proof/Safety.lean ====
section
/-!
DEFINITION. What counts as a good state and a safe run, in the terms the statements use.
-/
namespace Sys2Proof.Machine

open Sys2Proof

/-- The state before a command's effect: what the last command sent has gone. -/
def State.hushed (s : State) : State := { s with out := [] }

/-- The next state that a command with effect f gives: what it sends is what it sent alone; the queue, the clock and the fuses are as they were. -/
def State.after (s : State) (f : State → State) : State := (f s.hushed).keep s

/-- The same for a reset or a boot event, which may also change the clock and the fuses. -/
def State.afterAll (s : State) (f : State → State) : State := { f s.hushed with pending := s.pending }

/-- The clock is sound: no device reset lies in the future (R359, R376). -/
def State.ClockOk (s : State) : Prop := s.clock.rtick ≤ s.clock.ktick

/-- The fuses of t are those of s, with none unblown (R371). -/
def State.FusesKept (s t : State) : Prop :=
  s.fuses.svn ≤ t.fuses.svn ∧ t.fuses.keyHash = s.fuses.keyHash ∧ t.fuses.dieId = s.fuses.dieId

/-- A table's keys rise strictly. -/
def SMap.Rising {α : Type} (m : SMap α) : Prop := (m.map Prod.fst).Pairwise (· < ·)

/-- The tables of registers and of cores list each key once, in order. -/
def State.TablesOk (s : State) : Prop := s.regs.Rising ∧ s.cores.Rising

/-- The byte memories are in canonical form: HBM and the Rod and instruction memories read 0 where nothing is listed, the flash 0xFF. -/
def State.MemOk (s : State) : Prop :=
  Memory.wf 0 s.hbm = true ∧ Memory.wf 0xFF s.kettle.flash = true ∧
    ∀ c, Memory.wf 0 (s.core c).rmem = true ∧ Memory.wf 0 (s.core c).imem = true

/-- The state with a message's SEQ as the last one its key was accepted with (R378). -/
def State.seqUsed (s : State) (m : CtlMsg) : State :=
  { s with kettle := { s.kettle with seqs := s.kettle.seqs.put none m.keyId (some m.seq) } }

/-- Two states agree on everything but the registers and the records of the book and the stream. -/
def State.RecOnly (s t : State) : Prop := t = { s with regs := t.regs, book := t.book, tele := t.tele }

/-- Two states agree on everything but the registers, the records of the book and the stream, the shadow checks, and Rod core c. -/
def State.OnlyCoreAndChecks (s t : State) (c : CoreId) : Prop :=
  (∀ d : Nat, d ≠ c.val → t.core d = s.core d) ∧ t.brews = s.brews ∧ t.brewAuth = s.brewAuth ∧ t.hbm = s.hbm ∧ t.hbmOut = s.hbmOut ∧
    t.hbmUe = s.hbmUe ∧ t.net = s.net ∧ t.coll = s.coll ∧ t.exp = s.exp ∧ t.board = s.board ∧ t.kettle = s.kettle ∧ t.hold = s.hold ∧
    t.waking = s.waking ∧ t.clock = s.clock ∧ t.fuses = s.fuses

/-- Two states agree on everything but the registers, the records of the book and the stream, and Rod core c. -/
def State.OnlyCore (s t : State) (c : CoreId) : Prop := s.OnlyCoreAndChecks t c ∧ t.shadow = s.shadow

/-- Two states agree on the cores, the memories, the Brews, the Counting board and the open work of the units. -/
def State.WorkKept (s t : State) : Prop :=
  t.cores = s.cores ∧ t.brews = s.brews ∧ t.brewAuth = s.brewAuth ∧ t.hbm = s.hbm ∧ t.hbmUe = s.hbmUe ∧ t.hbmOut = s.hbmOut ∧ t.board = s.board ∧
    t.coll = s.coll ∧ t.exp = s.exp ∧ t.shadow = s.shadow ∧ t.waking = s.waking

/-- A step is safe: it answers a next state. -/
def State.StepSafe (s : State) : Prop := ∃ t, step s = .next t

/-- n steps from a state are safe: each answers a next state. -/
def State.SafeRun (s : State) (n : Nat) : Prop := ∃ t, Host.Core.run Sys2Proof.core n s = .next t

/-- A party's write of v to r(i) is accepted (R7, R422): the Kettle domain runs, and for the fabric the source is admitted. -/
def State.accepts (s : State) (by_ : Party) (r : Reg) (i : Nat) (v : Word) : Bool :=
  s.kettleOn && Reg.at? (r.off i) = some (r, i) && r.off i % 8 = 0 &&
  match by_ with
  | .oob => s.hushed.ctlCheck none r i v = none
  | .fnid n => s.hushed.controlOpen ⟨n, none⟩ false && s.hushed.ctlCheck (some ⟨n, none⟩) r i v = none

/-- The core of a control-core instruction afterwards: rd holds v, and the program counter is past it. -/
def State.wrote (s : State) (c : CoreId) (rd : GReg) (v : Word) : State :=
  s.after (fun t => t.setCore c ((t.core c).setGr rd v).advance)

/-- The core of a control-core instruction afterwards is k. -/
def State.cored (s : State) (c : CoreId) (k : Core) : State := s.after (fun t => t.setCore c k)

/-- A row of Table 3.7: the head command of VQ has opcode opc and its operands pass the check in every repeat, and it runs through its repeats, each with
the effect rep. -/
def VqDoes (i : Instr) (c : CoreId) (opc : Nat) (chk : State → Cmd → Nat → Bool) (rep : Cmd → Nat → State → State) : Prop :=
  ∀ (s : State) (h : Cmd), s.issuable c 0 = some h → cwOpc h.w = opc → cwCount h.w ≠ 0 →
    (List.range (cwCount h.w)).all (chk (vqIssue c h s.hushed) h) = true → exec i s = .next (s.after (vqWork c h rep))

/-- A command of queue q issues: the head command has opcode opc, nothing is in execution, its operands pass the check in every repeat, and it goes into
execution. -/
def StartDoes (i : Instr) (c : CoreId) (q opc : Nat) (chk : State → Cmd → Nat → Bool) : Prop :=
  ∀ (s : State) (h : Cmd), s.issuable c q = some h → cwOpc h.w = opc → ((s.core c).queue q).fly = [] → cwCount h.w ≠ 0 →
    (List.range (cwCount h.w)).all (chk (popHead c q s.hushed) h) = true → exec i s = .next (s.after (fun t => cmdEnter c q h (popHead c q t)))

/-- A command of queue q completes: the command in execution has opcode opc, takes the effect rep in each repeat, and leaves the queue. -/
def FinishDoes (i : Instr) (c : CoreId) (q opc : Nat) (rep : Cmd → Nat → State → State) : Prop :=
  ∀ (s : State) (f : Fly) (l : List Fly), ((s.core c).queue q).fly = f :: l → cwOpc f.cmd.w = opc → s.finishing c = true →
    exec i s = .next (s.after (cmdLeave c q rep f))

/-- A row that consumes frames: the unit does with the frame that comes to it what its checks and its use say. -/
def TakenBy (op : Src → Instr) (u : Unit) : Prop :=
  ∀ (f : Src) (s : State), u.offered f s = true → exec (op f) s = .next (s.after (u.handle f))

/-- A row that is a write to control space of r(i): an accepted write with the value that the row asks for stores it, and has the effect eff of the value
read before, the value after, and the word written. -/
def WriteDoes (op : Party → Word → Instr) (r : Reg) (i : Nat) (ask : State → Word → Bool) (eff : Word → Word → Word → State → State) : Prop :=
  ∀ (b : Party) (v : Word) (s : State), s.accepts b r i v = true → ask s.hushed v = true →
    exec (op b v) s = .next (s.after (fun t =>
      eff (ctlRead s.hushed r i) (ctlNew r i (ctlRead s.hushed r i) v) v (storeReg r i v t)))

end Sys2Proof.Machine
end

