-- ==== Sys2Proof/Certificates/Slice0/Obligations.lean ====
section
/-!
DEFINITION. The statements for the provers.
-/
open Sys2Proof Sys2Proof.Machine

-- The machine as a whole ----------------------------------------------------------------------------------------------------------------------

/-- A step takes the command at the front of the queue and runs it with the queue's rest. -/
def Obligations.StepRunsFront : Prop :=
  ∀ (s : State) (i : Instr) (rest : List Instr), step { s with pending := i :: rest } = exec i { s with pending := rest }

/-- On an empty queue one tick of 1/256 ns passes, a link that has been declared down begins to train, and a fuse advance blows one fuse; nothing else happens
(choices of the model: log entries 2, 96 and 105). -/
def Obligations.IdleStepTicks : Prop :=
  ∀ s : State, s.pending = [] → step s = .next { s with
    clock := { s.clock with ktick := s.clock.ktick + 1 }
    fuses := if s.fuses.svn < s.kettle.blow then { s.fuses with svn := s.fuses.svn + 1 } else s.fuses
    regs := trainPorts s.net.ports s.regs }

/-- No command of the table stops the block: every one answers a next state, and leaves the commands that wait as they are. A row whose condition fails answers
the state as it was, which is the model's choice (log entry 1). -/
def Obligations.EveryCommandGoesOn : Prop :=
  ∀ (i : Instr) (s : State), ∃ t, exec i s = .next t ∧ t.pending = s.pending

/-- The last device reset never lies in the future: every step keeps it so. -/
def Obligations.ClockInvariant : Prop := ∀ s t : State, s.ClockOk → step s = .next t → t.ClockOk

/-- The clock is sound at reset. -/
def Obligations.ClockAtReset : Prop :=
 State.reset.ClockOk

/-- No step unblows a security-version fuse or changes what else the fuses hold. No command changes the fuses at all: that time alone blows them, one at each
tick once the device is READY, is the model's choice (log entry 96). -/
def Obligations.FusesOnlyBlow : Prop :=
  (∀ s t : State, step s = .next t → s.FusesKept t) ∧
  ∀ (i : Instr) (s t : State), exec i s = .next t → t.fuses = s.fuses

/-- Right after reset nothing waits, memory lists nothing, every register reads what its table gives, and the memories and tables are in their canonical form.
That the boot has not begun is the model's choice of the reset state (log entry 97), as are the zero of a register without a stated reset value and of unwritten
memory (log entries 47 and 48). -/
def Obligations.ResetState : Prop :=
  State.reset.pending = [] ∧ State.reset.hbm = [] ∧ State.reset.cores = [] ∧ State.reset.kettle.phase = .inReset ∧
    State.reset.MemOk ∧ State.reset.TablesOk ∧ ∀ (r : Reg) (i : Nat), State.reset.reg r i = r.rst i

/-- A write to the memories of the address map keeps their canonical form, and that of the table of cores. -/
def Obligations.MemoryWriteKeepsForm : Prop := ∀ (s : State) (a : Nat) (bs : List Byte), s.TablesOk → s.MemOk → (memWr a bs s).MemOk ∧ (memWr a bs s).TablesOk

/-- Bytes written within HBM are read back, and every other byte of the address map's memories reads as before. -/
def Obligations.HbmReadAfterWrite : Prop :=
  ∀ (s : State) (a : Nat) (bs : List Byte), s.MemOk → a + bs.length ≤ hbmSize →
    (memWr a bs s).memRd a bs.length = bs ∧
    ∀ b : Nat, (b < a ∨ a + bs.length ≤ b) → (memWr a bs s).memByte b = s.memByte b

/-- A Tally that counts n holds the sum, or the largest value of its width, and every other register reads as before (R11). -/
def Obligations.TallySaturates : Prop :=
  ∀ (s : State) (f : Fld) (i n : Nat), s.TablesOk → f.lo + f.w ≤ 64 →
    (s.bumpN f i n).fld f i = min (s.fld f i + n) (2 ^ f.w - 1) ∧ (s.bumpN f i n).TablesOk ∧
    ∀ (r : Reg) (j : Nat), r.off j ≠ f.reg.off i → (s.bumpN f i n).reg r j = s.reg r j

-- Control core --------------------------------------------------------------------------------------------------------------------------------

/-- Decoding the word of a control-core instruction gives the instruction, whatever its operands (Tables 3.3 and 3.4). ADD g0, g0, g0 alone has no word: the word
of zero that it would have is illegal (R64), and so no core ever executes it: its row changes nothing (DEDUCED, log entry 119). -/
def Obligations.RodDecodeEncode : Prop :=
  (∀ (i : Instr) (w : BitVec 32), i.wellFormed = true → encodeRod i = some w → decodeRod (rodCore i) w = some i) ∧
  ∀ (c : CoreId) (rd a b : GReg) (s : State), (encodeRod (.add c rd a b) = none ↔ rd = 0 ∧ a = 0 ∧ b = 0) ∧ decodeRod c 0 = none ∧
    exec (.add c 0 0 0) s = .next s

/-- Words of Table 3.4 written out: a register operation, an immediate, a load, a branch, JAL, an address register, PUSH, RDSTEP, HALT; and three that the table
does not hold: FN 12 of OP 0x00, OP 0x3F, and the word of zero (R64). -/
def Obligations.RodWords : Prop :=
  ∀ c : CoreId, decodeRod c 0x00221800 = some (.add c 1 2 3) ∧ decodeRod c 0x04A6FFFF = some (.addi c 5 6 0xFFFF) ∧
    decodeRod c 0x40220008 = some (.ld c 1 2 8) ∧ decodeRod c 0x6022FFFF = some (.beq c 1 2 0xFFFF) ∧
    decodeRod c 0x78000010 = some (.jal c 0x10) ∧ decodeRod c 0x8002F200 = some (.arset c 15 2 2) ∧
    decodeRod c 0xA0021804 = some (.push c 4 2 3) ∧ decodeRod c 0xC0200000 = some (.rdstep c 1) ∧ decodeRod c 0xD4000000 = some (.halt c) ∧
    decodeRod c 0x0000000C = none ∧ decodeRod c 0xFC000000 = none ∧ decodeRod c 0 = none

/-- The register operations of Table 3.4: rd takes the value, a write to g0 is discarded, the program counter passes the instruction, and the state is
otherwise as it was.

The immediate operations of Table 3.4. -/
def Obligations.AluOperations : Prop :=
  (∀ (s : State) (c : CoreId) (rd a b : GReg) (x y : Word), (s.core c).gr a = x → (s.core c).gr b = y →
    (s.runs c (.add c rd a b) = true → exec (.add c rd a b) s = .next (s.wrote c rd (x + y))) ∧
    (s.runs c (.sub c rd a b) = true → exec (.sub c rd a b) s = .next (s.wrote c rd (x - y))) ∧
    (s.runs c (.and c rd a b) = true → exec (.and c rd a b) s = .next (s.wrote c rd (x &&& y))) ∧
    (s.runs c (.or c rd a b) = true → exec (.or c rd a b) s = .next (s.wrote c rd (x ||| y))) ∧
    (s.runs c (.xor c rd a b) = true → exec (.xor c rd a b) s = .next (s.wrote c rd (x ^^^ y))) ∧
    (s.runs c (.sll c rd a b) = true → exec (.sll c rd a b) s = .next (s.wrote c rd (x <<< (y.toNat % 64)))) ∧
    (s.runs c (.srl c rd a b) = true → exec (.srl c rd a b) s = .next (s.wrote c rd (x >>> (y.toNat % 64)))) ∧
    (s.runs c (.sra c rd a b) = true → exec (.sra c rd a b) s = .next (s.wrote c rd (x.sshiftRight (y.toNat % 64)))) ∧
    (s.runs c (.slt c rd a b) = true → exec (.slt c rd a b) s = .next (s.wrote c rd (if x.toInt < y.toInt then 1 else 0))) ∧
    (s.runs c (.sltu c rd a b) = true → exec (.sltu c rd a b) s = .next (s.wrote c rd (if x.toNat < y.toNat then 1 else 0))) ∧
    (s.runs c (.mul c rd a b) = true → exec (.mul c rd a b) s = .next (s.wrote c rd (BitVec.ofNat 64 (x.toNat * y.toNat)))) ∧
    (s.runs c (.mulhu c rd a b) = true → exec (.mulhu c rd a b) s = .next (s.wrote c rd (BitVec.ofNat 64 (x.toNat * y.toNat / 2 ^ 64))))) ∧
  (∀ (s : State) (c : CoreId) (rd a : GReg) (m : BitVec 16) (x : Word), (s.core c).gr a = x →
    (s.runs c (.addi c rd a m) = true → exec (.addi c rd a m) s = .next (s.wrote c rd (x + m.signExtend 64))) ∧
    (s.runs c (.andi c rd a m) = true → exec (.andi c rd a m) s = .next (s.wrote c rd (x &&& m.zeroExtend 64))) ∧
    (s.runs c (.ori c rd a m) = true → exec (.ori c rd a m) s = .next (s.wrote c rd (x ||| m.zeroExtend 64))) ∧
    (s.runs c (.xori c rd a m) = true → exec (.xori c rd a m) s = .next (s.wrote c rd (x ^^^ m.zeroExtend 64))) ∧
    (s.runs c (.slli c rd a m) = true → exec (.slli c rd a m) s = .next (s.wrote c rd (x <<< (m.toNat % 64)))) ∧
    (s.runs c (.srli c rd a m) = true → exec (.srli c rd a m) s = .next (s.wrote c rd (x >>> (m.toNat % 64)))) ∧
    (s.runs c (.srai c rd a m) = true → exec (.srai c rd a m) s = .next (s.wrote c rd (x.sshiftRight (m.toNat % 64)))) ∧
    (s.runs c (.lui c rd m) = true → exec (.lui c rd m) s = .next (s.wrote c rd (m.signExtend 64 <<< 16))) ∧
    (s.runs c (.shori c rd a m) = true → exec (.shori c rd a m) s = .next (s.wrote c rd (x <<< 16 ||| m.zeroExtend 64))) ∧
    (s.runs c (.slti c rd a m) = true → exec (.slti c rd a m) s = .next (s.wrote c rd (if x.toInt < m.toInt then 1 else 0))))

/-- Loads and stores of Table 3.4 at an address that R71 permits: the bytes are read, zero-extended, or written, the access is noted for R83, and the state is
otherwise as it was. Bytes in conflict with earlier accesses of other engines (R83) are free values; where there are none, a load reads what memory holds. -/
def Obligations.LoadsAndStores : Prop :=
  ∀ (s : State) (c : CoreId) (r a : GReg) (m : BitVec 16) (x : Nat) (k : Core), s.core c = k → (k.gr a + m.signExtend 64).toNat = x → x < 0x80000 →
    let loaded (n : Nat) : State :=
      { s.cored c (((k.touch 6 x n false).setGr r (BitVec.ofNat 64 (ldBytes k x n (k.share.clash 6 (x, n, false)) s.free))).advance) with
        free := s.free + (k.share.clash 6 (x, n, false)).length }
    let stored (n : Nat) : State :=
      s.after (fun t => freeRod c (k.share.clash 5 (x, n, true)) (t.setCore c ((k.touch 5 x n true).wrMem x (bytesLE n (k.gr r).toNat)).advance))
    (x % 8 = 0 → s.runs c (.ld c r a m) = true → exec (.ld c r a m) s = .next (loaded 8)) ∧
    (x % 4 = 0 → s.runs c (.lw c r a m) = true → exec (.lw c r a m) s = .next (loaded 4)) ∧
    (x % 8 = 0 → s.runs c (.st c r a m) = true → exec (.st c r a m) s = .next (stored 8)) ∧
    (x % 4 = 0 → s.runs c (.sw c r a m) = true → exec (.sw c r a m) s = .next (stored 4)) ∧
    (∀ n f : Nat, ldBytes k x n [] f = Mem.rdN k.rmem 0 x n) ∧
    (∀ n : Nat, (∀ t ∈ k.share.log, t.who = 5 ∨ t.who = 6) → k.share.clash 6 (x, n, false) = [] ∧ k.share.clash 5 (x, n, true) = [])

/-- R71: a load or store whose address is not below 0x8_0000 or not aligned to its width puts the core in FAULT with ERR = LDST_RANGE. -/
def Obligations.LoadStoreRange : Prop :=
  ∀ (s : State) (c : CoreId) (r a : GReg) (m : BitVec 16) (i : Instr) (w : Nat),
    ((i = .ld c r a m ∨ i = .st c r a m) ∧ w = 8 ∨ (i = .lw c r a m ∨ i = .sw c r a m) ∧ w = 4) → s.runs c i = true →
    (0x80000 ≤ ((s.core c).gr a + m.signExtend 64).toNat ∨ ((s.core c).gr a + m.signExtend 64).toNat % w ≠ 0) →
    ∃ t, exec i s = .next t ∧ (t.core c).st = .fault ∧ (t.core c).err = RodErr.ldstRange.code ∧ (t.core c).rmem = (s.core c).rmem ∧
      (t.core c).g = (s.core c).g ∧ t.hbm = s.hbm

/-- The branches and jumps of Table 3.4. -/
def Obligations.BranchesAndJumps : Prop :=
  ∀ (s : State) (c : CoreId) (rd a b : GReg) (m : BitVec 16) (o : BitVec 26) (k : Core) (x y : Word), s.core c = k → k.gr a = x → k.gr b = y →
    let go (p : Prop) [Decidable p] : State := s.cored c (if p then { k with pc := k.pc + 4 * m } else { k with pc := k.pc + 4 })
    (s.runs c (.beq c a b m) = true → exec (.beq c a b m) s = .next (go (x = y))) ∧
    (s.runs c (.bne c a b m) = true → exec (.bne c a b m) s = .next (go (x ≠ y))) ∧
    (s.runs c (.blt c a b m) = true → exec (.blt c a b m) s = .next (go (x.toInt < y.toInt))) ∧
    (s.runs c (.bge c a b m) = true → exec (.bge c a b m) s = .next (go (y.toInt ≤ x.toInt))) ∧
    (s.runs c (.bltu c a b m) = true → exec (.bltu c a b m) s = .next (go (x.toNat < y.toNat))) ∧
    (s.runs c (.bgeu c a b m) = true → exec (.bgeu c a b m) s = .next (go (y.toNat ≤ x.toNat))) ∧
    (s.runs c (.jal c o) = true →
      exec (.jal c o) s = .next (s.cored c { k.setGr 31 ((k.pc + 4).zeroExtend 64) with pc := k.pc + 4 * o.truncate 16 })) ∧
    (s.runs c (.jalr c rd a m) = true →
      exec (.jalr c rd a m) s =
        .next (s.cored c { k.setGr rd ((k.pc + 4).zeroExtend 64) with pc := (x + m.signExtend 64).truncate 16 &&& 0xFFFC }))

/-- R74: the current address, and one step, of an address register. -/
def Obligations.AddressStep : Prop :=
  ∀ a : AReg, a.addr = (a.base.toNat + a.off.toNat) % 2 ^ 48 ∧
    a.step = (if a.count ≠ 0 ∧ a.idx.toNat + 1 = a.count.toNat then { a with idx := 0, off := a.off + a.wrap.signExtend 48 }
      else { a with idx := if a.count ≠ 0 then a.idx + 1 else a.idx, off := a.off + a.stride.signExtend 48 })

/-- The address-register instructions, and those that read the core's own state (Table 3.4). That QCNT counts the commands in execution too is the model's
choice (log entry 58). -/
def Obligations.AddressRegisters : Prop :=
  ∀ (s : State) (c : CoreId) (rd a : GReg) (n : Sel) (f : BitVec 4) (q : QueueId) (k : Core), s.core c = k →
    (s.runs c (.arset c n f a) = true →
      exec (.arset c n f a) s = .next (s.cored c (k.setAr n.toNat ((k.ar n.toNat).setFld f.toNat (k.gr a))).advance)) ∧
    (s.runs c (.arget c rd n f) = true → exec (.arget c rd n f) s = .next (s.wrote c rd ((k.ar n.toNat).getFld f.toNat))) ∧
    (s.runs c (.arstep c n a) = true →
      exec (.arstep c n a) s = .next (s.cored c (k.setAr n.toNat ((k.ar n.toNat).steps ((k.gr a).toNat % 65536))).advance)) ∧
    (s.runs c (.araddr c rd n) = true → exec (.araddr c rd n) s = .next (s.wrote c rd (BitVec.ofNat 64 (k.ar n.toNat).addr))) ∧
    (s.runs c (.qcnt c rd q) = true → exec (.qcnt c rd q) s = .next (s.wrote c rd (BitVec.ofNat 64 (k.qlen q.val)))) ∧
    (s.runs c (.tread c rd n) = true → exec (.tread c rd n) s = .next (s.wrote c rd (BitVec.ofNat 64 (k.tok.lk 0 n.toNat)))) ∧
    (s.runs c (.rdstep c rd) = true → exec (.rdstep c rd) s = .next (s.wrote c rd k.step)) ∧
    (s.runs c (.rdid c rd) = true → exec (.rdid c rd) s = .next (s.wrote c rd (BitVec.ofNat 64 c.val)))

/-- R73: under strict mode RDCYC and RDENT write zero to rd, add 1 to STRICTREJ, and the core goes on: its program counter passes the instruction. -/
def Obligations.StrictRejectsEntropy : Prop :=
  ∀ (s : State) (c : CoreId) (rd : GReg) (i : Instr), (i = .rdcyc c rd ∨ i = .rdent c rd) → s.strict = true → s.runs c i = true →
    exec i s = .next (s.after (fun t => ((t.setCore c ((s.core c).setGr rd 0).advance).bump F.ROD_CMD_TALLY_STRICTREJ c).bump
      F.GLOBAL_STRICT_TALLY_RODREJ 0))

/-- Without strict mode RDCYC gives the cycles at 2.0 GHz since the device reset, and RDENT a free value (log entry 3), which is used up. -/
def Obligations.CyclesAndEntropy : Prop :=
  ∀ (s : State) (c : CoreId) (rd : GReg), s.strict = false →
    (s.runs c (.rdcyc c rd) = true →
      exec (.rdcyc c rd) s = .next (s.wrote c rd (BitVec.ofNat 64 ((s.clock.ktick - s.clock.rtick) / 128)))) ∧
    (s.runs c (.rdent c rd) = true →
      exec (.rdent c rd) s = .next { s.wrote c rd (Config.freeWord s.free) with free := s.free + 1 })

/-- PUSH, its stall, and the tokens (R75 to R80): a command that passes the checks enters a queue that holds fewer than 32, those in execution counted (log entry
58); a full queue stalls the core. A command that fails the checks does not enter and puts the core in FAULT with BADCMD, even where its queue is full (log entry
60); what was queued before goes on (R77, log entry 135). TWAIT takes a count that no queue before it is to take, or stalls; TSIG adds one.

The grant of a token goes to the first of its waiters: a queue's head that lacks nothing else, lowest queue first, and the control core last (R80); a memory request
of FQ takes its count at its own row, as it issues. -/
def Obligations.PushAndTokens : Prop :=
  (∀ (s : State) (c : CoreId) (q : QueueId) (a b : GReg) (t : Sel) (k : Core), s.core c = k →
    (s.runs c (.push c q a b) = true →
      (cmdOk q.val (pushWord k a b) = true → k.qlen q.val < 32 →
        exec (.push c q a b) s = .next (s.cored c (enqueue k q.val (pushWord k a b)))) ∧
      (cmdOk q.val (pushWord k a b) = true → 32 ≤ k.qlen q.val →
        exec (.push c q a b) s = .next (s.cored c { k with stall := some (.push q a b) })) ∧
      (cmdOk q.val (pushWord k a b) = false → ∃ t, exec (.push c q a b) s = .next t ∧ (t.core c).st = .fault ∧
        (t.core c).err = RodErr.badcmd.code ∧ (t.core c).errq = q.val ∧ (t.core c).erraddr = k.pc ∧ (t.core c).issues = true ∧
        ∀ j : Nat, (t.core c).queue j = k.queue j)) ∧
    (k.st = .run → s.clocked c = true → k.stall = some (.push q a b) → k.qlen q.val < 32 →
      exec (.pushStallEnd c) s = .next (s.after (fun u => enterCoreSt c .run (u.setCore c (endEpisode 5 (enqueue k q.val (pushWord k a b))))))) ∧
    (s.runs c (.tsig c t) = true → k.tok.lk 0 t.toNat ≠ 255 →
      exec (.tsig c t) s = .next (s.cored c { k.advance with
        tok := k.tok.put 0 t.toNat (k.tok.lk 0 t.toNat + 1), share := k.share.signal 5 t.toNat })) ∧
    (s.runs c (.twait c t) = true →
      exec (.twait c t) s = .next (s.cored c
        (if s.waitersBefore c 5 t.toNat < k.tok.lk 0 t.toNat then (k.takeTok t.toNat 5).advance else { k with stall := some (.twait t) }))) ∧
    (k.issues = true → s.clocked c = true → 1 ≤ k.tok.lk 0 t.toNat → s.tokWaited c t.toNat = true →
      exec (.tokenWaitGrant c t) s = .next (s.after (grantTok c t.toNat)))) ∧
  (∀ (s : State) (c : CoreId) (t : Nat), s.tokWaited c t = true → (s.core c).st ≠ .idle →
    let k := s.core c
    let k' := (grantTok c t s).core c
    k'.tok = k.tok.put 0 t (k.tok.lk 0 t - 1) ∧
      ∀ q : Nat, q < 5 → s.headWaits c q t = true → (∀ j : Nat, j < q → s.headWaits c j t = false) →
        k'.stall = k.stall ∧ k'.pc = k.pc ∧ (∀ j : Nat, j < 5 → j ≠ q → k'.queue j = k.queue j) ∧
        (k'.queue q).wait.head?.map Cmd.granted = some true)

/-- R81: a signal of a token whose count is 255, be it of a command or of TSIG, puts the core in FAULT with ERR TOKOVF, and the count stays at 255. -/
def Obligations.TokenOverflow : Prop :=
  ∀ (s : State) (c : CoreId) (t : Sel), (s.core c).tok.lk 0 t.toNat = 255 → (s.core c).st ≠ .fault →
    (∀ (q : Nat) (pc : BitVec 16), ((signalTok c t.toNat q pc s).core c).st = .fault ∧
      ((signalTok c t.toNat q pc s).core c).err = RodErr.tokovf.code ∧ ((signalTok c t.toNat q pc s).core c).tok.lk 0 t.toNat = 255) ∧
    (s.runs c (.tsig c t) = true → ∃ u, exec (.tsig c t) s = .next u ∧ (u.core c).st = .fault ∧ (u.core c).err = RodErr.tokovf.code ∧
      (u.core c).tok.lk 0 t.toNat = 255)

/-- STEPEND waits; with all queues empty the core drains its vector engine and enters STEPWAIT (R67); HALT stops the core and its bit stays set (R428); a
word that Table 3.4 does not hold puts the core in FAULT with ILLEGAL (R70); a stall beyond the limit is counted once (R82).

A core takes a step release (R65): checkpoint, vector registers unwritten, RUN at ENTRY with the Brew's step; and one that is clear of a held release holds
it while it runs (R66). -/
def Obligations.StepsAndHalt : Prop :=
  (∀ (s : State) (c : CoreId) (w : StallSite) (k : Core), s.core c = k →
    (s.runs c (.stepend c) = true → exec (.stepend c) s = .next (s.cored c { k with stall := some .stepEnd })) ∧
    (k.st = .run → k.stall = some .stepEnd → s.clocked c = true → (∀ q : Nat, q < 5 → k.qlen q = 0) → k.held = false →
      s.bit F.ROD_CTRL_HALT c = false →
      ∃ t, exec (.stepwaitEnter c) s = .next t ∧ (t.core c).st = .stepwait ∧ (t.core c).stall = none ∧ (t.core c).vpend = [] ∧
        (t.core c).g = k.g ∧ (t.core c).tok = k.tok ∧ (t.core c).rmem = k.rmem ∧ s.OnlyCore t c) ∧
    (s.runs c (.halt c) = true →
      ∃ t, exec (.halt c) s = .next t ∧ t.bit F.ROD_CTRL_HALT c = true ∧
        t.core c = (if k.quar then k.advance else { k.advance with st := .halted, prior := .run }) ∧ s.OnlyCore t c) ∧
    (s.executing c = true → decodeRod c k.fetch = none →
      exec (.illegalInstruction c) s = .next (s.after (coreFault c .illegal 7 k.pc))) ∧
    (s.fld F.ROD_STALL_LIMIT_LIMIT 0 ≠ 0 → k.st ≠ .fault → s.stalled c w = true → k.episodes.contains (stallIndex w) = false →
      exec (.stallLimitExpiry c w) s =
        .next (s.after (fun t => (t.setCore c { k with episodes := stallIndex w :: k.episodes }).bump F.ROD_CMD_TALLY_STALL c)))) ∧
  (∀ (s : State) (c : CoreId) (slot : SlotId) (k : Core), s.core c = k → s.bit F.ROD_CTRL_HALT c = false →
    ((k.st = .loaded ∨ k.st = .stepwait) →
      let k' := (releaseCore slot c s).core c
      k'.st = .run ∧ k'.chk = ⟨k.g, k.a, k.tok⟩ ∧ k'.vwritten = [] ∧ k'.step = s.brewStep slot ∧
        k'.pc.toNat = s.fld F.ROD_ENTRY_ENTRY c / 4 * 4 ∧ k'.g = k.g ∧ k'.rmem = k.rmem) ∧
    (k.st = .run → k.held = false → (releaseCore slot c s).core c = { k with held := true }) ∧
    (k.st = .run → k.held = true →
      ((releaseCore slot c s).core c).st = .fault ∧ ((releaseCore slot c s).core c).err = RodErr.stepovr.code ∧
        ((releaseCore slot c s).core c).held = false))

/-- The frame of the control-core instructions: whatever one of them does, including its fault, every other core, the Brews, HBM, the units' work, the Counting
board, the Kettle domain and the shadow checks are as they were: everything beside the registers, the records of the book and the stream, its own core, the free
values used up and what is sent; of its own core too the memories but the stored bytes, the Beads, the vector registers and the Tally sets. -/
def Obligations.ControlCoreFrame : Prop :=
  ∀ (s t : State) (i : Instr), (encodeRod i).isSome = true → exec i s = .next t →
    let c := rodCore i
    s.OnlyCore t c ∧ (t.core c).imem = (s.core c).imem ∧ (t.core c).beads = (s.core c).beads ∧ (t.core c).v = (s.core c).v ∧
      (t.core c).tset = (s.core c).tset ∧
      ∀ a : Nat, (∀ (r b : GReg) (m : BitVec 16) (n : Nat), (i = .st c r b m ∧ n = 8 ∨ i = .sw c r b m ∧ n = 4) →
          a < ((s.core c).gr b + m.signExtend 64).toNat ∨ ((s.core c).gr b + m.signExtend 64).toNat + n ≤ a) →
        (t.core c).rmem.lk 0 a = (s.core c).rmem.lk 0 a

-- Engines -------------------------------------------------------------------------------------------------------------------------------------

/-- The lane commands of Table 3.7 in one repeat each: their sources, latency, and result. -/
def Obligations.VectorLanes : Prop :=
  ∀ c : CoreId,
    VqDoes (.vnop c) c 0x00 vqFree (fun _ _ s => s) ∧
    VqDoes (.vld c) c 0x01 (vqMem 4 256) (fun h r s =>
      let bs := Mem.rd (s.core c).rmem 0 (h.xAddr r) 256
      vecOp c h r [] 6 (fun _ => lanesOf (fun i => leAt bs (4 * i) 4)) s) ∧
    VqDoes (.vbcast c) c 0x03 vqFree (fun h r s => vecOp c h r [] 1 (fun _ => lanesOf (fun _ => cwImm h.w)) s) ∧
    VqDoes (.viadd c) c 0x04 vqFree (fun h r s => vec2 c h r 2 (fun a b => a + b) s) ∧
    VqDoes (.visub c) c 0x05 vqFree (fun h r s => vec2 c h r 2 (fun a b => a - b) s) ∧
    VqDoes (.vimul c) c 0x06 vqFree (fun h r s => vec2 c h r 4 (fun a b => a * b) s) ∧
    VqDoes (.vand c) c 0x07 vqFree (fun h r s => vec2 c h r 2 (fun a b => a &&& b) s) ∧
    VqDoes (.vor c) c 0x08 vqFree (fun h r s => vec2 c h r 2 (fun a b => a ||| b) s) ∧
    VqDoes (.vxor c) c 0x09 vqFree (fun h r s => vec2 c h r 2 (fun a b => a ^^^ b) s) ∧
    VqDoes (.vshl c) c 0x0A vqFree (fun h r s => vec2 c h r 2 (fun a b => a <<< (b.toNat % 32)) s) ∧
    VqDoes (.vshr c) c 0x0B vqFree (fun h r s => vec2 c h r 2 (fun a b =>
      if cwMode h.w = 0 then a >>> (b.toNat % 32) else a.sshiftRight (b.toNat % 32)) s) ∧
    VqDoes (.vmin c) c 0x0C vqFree (fun h r s => vecSel c h r true s) ∧
    VqDoes (.vmax c) c 0x0D vqFree (fun h r s => vecSel c h r false s) ∧
    VqDoes (.vcmp c) c 0x0E vqFree (fun h r s => vec2 c h r 2 (fun a b =>
      let p : Bool := match cwMode h.w with
        | 0 => a = b
        | 1 => a.toInt < b.toInt
        | 2 => a.toNat < b.toNat
        | _ => fp32Lt a.toNat b.toNat
      if p then BitVec.allOnes 32 else 0) s) ∧
    VqDoes (.vsel c) c 0x0F vqFree (fun h r s => vec3 c h r 2 (fun a b z => if z = 0 then b else a) s) ∧
    VqDoes (.vfadd c) c 0x10 vqFree (fun h r s => vec2 c h r 4 (fun a b => BitVec.ofNat 32 (fp32Add a.toNat b.toNat)) s) ∧
    VqDoes (.vfmul c) c 0x11 vqFree (fun h r s => vec2 c h r 4 (fun a b => BitVec.ofNat 32 (fp32Mul a.toNat b.toNat)) s) ∧
    VqDoes (.vffma c) c 0x12 vqFree (fun h r s =>
      vec3 c h r 4 (fun a b z => BitVec.ofNat 32 (fp32Fma a.toNat b.toNat z.toNat)) s) ∧
    VqDoes (.vcvt c) c 0x13 vqFree (fun h r s => vecOp c h r [cwV1 h.w] 3 (fun vs => lanesOf (fun i =>
      convertVal (cwFoutF h.w) (decodeElem (cwFinF h.w) (bitsOf (laneOf (vs.getD 0 []) i).toNat 0 (cwFinF h.w).width) 0).cls)) s) ∧
    VqDoes (.vunpk c) c 0x14 (fun k h r => vqMem 1 ((cwFinF h.w).tensorBytes 64) k h r) (fun h r s =>
      let ds := elems64 c h r s
      vecOp c h r [] 7 (fun _ => lanesOf (fun i => convertVal .fp32 ((ds.map Dec.cls).getD i .zero))) s) ∧
    VqDoes (.vperm c) c 0x16 vqFree (fun h r s => vecOp c h r [cwV1 h.w, cwV2 h.w] 3 (fun vs =>
      (List.range 64).map (fun i => laneOf (vs.getD 0 []) ((laneOf (vs.getD 1 []) i).toNat % 64))) s) ∧
    VqDoes (.vexp2 c) c 0x17 vqFree (fun h r s =>
      vecOp c h r [cwV1 h.w] 6 (fun vs => lanesOf (fun i => exp2q (laneOf (vs.getD 0 []) i).toNat)) s) ∧
    VqDoes (.vrmax c) c 0x18 vqFree (fun h r s => vecMax c h r s)

/-- The vector stores and the Bead commands of Table 3.7. -/
def Obligations.StoresAndBeads : Prop :=
  ∀ c : CoreId,
    VqDoes (.vst c) c 0x02 (vqMem 1 256)
      (fun h r s => vecStore c h r (fun v => (v.map (fun l => bytesLE 4 l.toNat)).flatten) s) ∧
    VqDoes (.vpack c) c 0x15 (fun k h r => vqMem 1 ((cwFoutF h.w).tensorBytes 64) k h r)
      (fun h r s => vecStore c h r (fun v => packLanes (cwFoutF h.w) v) s) ∧
    VqDoes (.bexp c) c 0x20 (fun k h r => vqMem 4 ((cwFinF h.w).tensorBytes 64) k h r) (fun h r s => bexpRep c h r s) ∧
    VqDoes (.bacc c) c 0x21 (beadArgs c 4 64 (fun h => (cwFinF h.w).tensorBytes 64)) (fun h r s => enterRep c h r none s) ∧
    VqDoes (.bmac c) c 0x22 (beadArgs c 4 64 (fun h => (cwFinF h.w).tensorBytes 64)) (fun h r s => bmacRep c h r s) ∧
    VqDoes (.baddp c) c 0x23 (beadArgs c 16 64 (fun _ => 1024)) (fun h r s =>
      let bs := Mem.rd (s.core c).rmem 0 (h.xAddr r) 1024
      s.modCore c (fun k => addBeads k (h.yAddr r) ((List.range 64).map (fun i => (beadAt bs (16 * i)).toInt)))) ∧
    VqDoes (.bout c) c 0x24 (beadArgs c 4 64 (fun h => (cwFoutF h.w).tensorBytes 64)) (fun h r s => boutRep c h r s) ∧
    VqDoes (.bst c) c 0x25 (beadArgs c 16 64 (fun _ => 1024))
      (fun h r s => s.modCore c (fun k => k.wrMem (h.xAddr r) (k.beadBytes (h.yAddr r) 64))) ∧
    VqDoes (.bclr c) c 0x26 (beadArgs c 0 64 (fun _ => 0)) (fun h r s => s.modCore c (fun k => clearBeads k (h.yAddr r) 64)) ∧
    VqDoes (.btal c) c 0x27 (vqMem 4 32)
      (fun h r s => s.modCore c (fun k => (k.wrMem (h.xAddr r) (k.tally (cwTset h.w)).record).clearTally (cwTset h.w))) ∧
    VqDoes (.bscat c) c 0x28 (fun k h r => beadArgs c 4 256 (fun _ => tileBytes (cwFinF h.w) (Mem.rd (k.core c).rmem 0 (h.xAddr r) 1028)) k h r)
      (fun h r s => bscatRep c h r s)

/-- R84: the lanes that a repeat writes in slot s with latency L are read from slot s + L on; until then the register reads as before. -/
def Obligations.VectorLatency : Prop :=
  ∀ (s : State) (c r lat rep n : Nat) (pc : BitVec 16) (lanes : List Lane), (s.core c).vpend = [] → lanes.length = 64 →
    let t := commitVec c n (writeVec c r lat rep pc lanes s)
    (t.core c).vreg r = (if (s.core c).slot + lat ≤ n then lanes else (s.core c).vreg r) ∧
      ∀ q : Nat, q ≠ r → (t.core c).vreg q = (s.core c).vreg q

/-- A repeat whose operands fail the check puts the core in FAULT with CMD_RANGE and the command performs nothing (R88, Table 3.7): all the commands of VQ that
address memory or Beads. The fault names VQ and the command's address; a core already in FAULT, whose earlier commands still complete (log entry 135), keeps the
first error and goes on no further. -/
def Obligations.VectorRange : Prop :=
  ∀ (s : State) (c : CoreId) (h : Cmd) (i : Instr) (chk : State → Cmd → Nat → Bool),
    let fin : Cmd → Nat := fun h => (cwFinF h.w).tensorBytes 64
    let fout : Cmd → Nat := fun h => (cwFoutF h.w).tensorBytes 64
    ((i = .vld c ∧ cwOpc h.w = 0x01 ∧ chk = vqMem 4 256) ∨ (i = .vst c ∧ cwOpc h.w = 0x02 ∧ chk = vqMem 1 256) ∨
      (i = .vunpk c ∧ cwOpc h.w = 0x14 ∧ chk = fun k h r => vqMem 1 (fin h) k h r) ∨
      (i = .vpack c ∧ cwOpc h.w = 0x15 ∧ chk = fun k h r => vqMem 1 (fout h) k h r) ∨
      (i = .bexp c ∧ cwOpc h.w = 0x20 ∧ chk = fun k h r => vqMem 4 (fin h) k h r) ∨
      (i = .bacc c ∧ cwOpc h.w = 0x21 ∧ chk = beadArgs c 4 64 fin) ∨ (i = .bmac c ∧ cwOpc h.w = 0x22 ∧ chk = beadArgs c 4 64 fin) ∨
      (i = .baddp c ∧ cwOpc h.w = 0x23 ∧ chk = beadArgs c 16 64 (fun _ => 1024)) ∨
      (i = .bout c ∧ cwOpc h.w = 0x24 ∧ chk = beadArgs c 4 64 fout) ∨
      (i = .bst c ∧ cwOpc h.w = 0x25 ∧ chk = beadArgs c 16 64 (fun _ => 1024)) ∨
      (i = .bclr c ∧ cwOpc h.w = 0x26 ∧ chk = beadArgs c 0 64 (fun _ => 0)) ∨ (i = .btal c ∧ cwOpc h.w = 0x27 ∧ chk = vqMem 4 32) ∨
      (i = .bscat c ∧ cwOpc h.w = 0x28 ∧
        chk = fun k h r => beadArgs c 4 256 (fun _ => tileBytes (cwFinF h.w) (Mem.rd (k.core c).rmem 0 (h.xAddr r) 1028)) k h r)) →
    s.issuable c 0 = some h → (s.core c).st ≠ .idle → (∃ r : Nat, r < cwCount h.w ∧ chk (vqIssue c h s.hushed) h r = false) →
    ∃ t, exec i s = .next t ∧ (t.core c).st = .fault ∧
      ((s.core c).st ≠ .fault → (t.core c).err = RodErr.cmdRange.code ∧ (t.core c).errq = 0 ∧ (t.core c).erraddr = h.pc) ∧
      ((s.core c).st = .fault → (t.core c).err = (s.core c).err ∧ (t.core c).errq = (s.core c).errq ∧ (t.core c).erraddr = (s.core c).erraddr) ∧
      (t.core c).issues = false ∧
      (t.core c).rmem = (s.core c).rmem ∧ (t.core c).beads = (s.core c).beads ∧ (t.core c).tset = (s.core c).tset

/-- The commands that do nothing complete at issue; one with COUNT 0 is counted in EMPTY (R78, Tables 3.9, 3.10, 3.11 and 6.1).

An empty command of any queue, whatever its opcode, counts in EMPTY and does nothing else but wait for its WV token before and signal its SV token after (R78): it
leaves its queue, it takes one count of its WV token where that was not granted before, and its SV token's count rises by one. -/
def Obligations.EmptyCommands : Prop :=
  (∀ (s : State) (c : CoreId) (h : Cmd), cwOpc h.w = 0 → cwCount h.w ≠ 0 →
    (∀ (i : Instr) (q : Nat), (i = .tnop c ∧ q = 1 ∨ i = .snop c ∧ q = 2 ∨ i = .mnop c ∧ q = 4) → s.issuable c q = some h →
      ((s.core c).queue q).fly = [] → exec i s = .next (s.after (fun t => signalDone c q h (popHead c q t)))) ∧
    (s.issuable c 3 = some h → (s.core c).fqFree = true → exec (.fnop c) s = .next (s.after (fun t => fqRetire c (fqEnter c h [] [] (popHead c 3 t)))))) ∧
  (∀ (s : State) (c : CoreId) (h : Cmd), cwCount h.w = 0 →
    (∀ i : Instr, (i, cwOpc h.w) ∈ ([(.vnop c, 0x00), (.vld c, 0x01), (.vst c, 0x02), (.vbcast c, 0x03), (.viadd c, 0x04), (.visub c, 0x05), (.vimul c, 0x06),
        (.vand c, 0x07), (.vor c, 0x08), (.vxor c, 0x09), (.vshl c, 0x0A), (.vshr c, 0x0B), (.vmin c, 0x0C), (.vmax c, 0x0D), (.vcmp c, 0x0E), (.vsel c, 0x0F),
        (.vfadd c, 0x10), (.vfmul c, 0x11), (.vffma c, 0x12), (.vcvt c, 0x13), (.vunpk c, 0x14), (.vpack c, 0x15), (.vperm c, 0x16), (.vexp2 c, 0x17),
        (.vrmax c, 0x18), (.bexp c, 0x20), (.bacc c, 0x21), (.bmac c, 0x22), (.baddp c, 0x23), (.bout c, 0x24), (.bst c, 0x25), (.bclr c, 0x26),
        (.btal c, 0x27), (.bscat c, 0x28)] : List (Instr × Nat)) → s.issuable c 0 = some h →
      exec i s = .next (s.after (fun t => vqFin c h ((vqIssue c h t).bump F.ROD_CMD_TALLY_EMPTY c)))) ∧
    (∀ (i : Instr) (q : Nat), (i, q, cwOpc h.w) ∈ ([(.tnop c, 1, 0), (.tmm c, 1, 1), (.snop c, 2, 0), (.ssort c, 2, 1), (.smerge c, 2, 2), (.sfilt c, 2, 3),
        (.scomp c, 2, 4), (.sscan c, 2, 5), (.spick c, 2, 6), (.srand c, 2, 7), (.mnop c, 4, 0), (.mcopy c, 4, 1), (.mfill c, 4, 2),
        (.mgather c, 4, 3)] : List (Instr × Nat × Nat)) → s.issuable c q = some h → ((s.core c).queue q).fly = [] →
      exec i s = .next (s.after (fun t => signalDone c q h ((popHead c q t).bump F.ROD_CMD_TALLY_EMPTY c)))) ∧
    (∀ i : Instr, (i, cwOpc h.w) ∈ ([(.fsend c, 1), (.frecv c, 2), (.fmem c, 3), (.fsync c, 4), (.ffence c, 5)] : List (Instr × Nat)) →
      s.issuable c 3 = some h → ((s.core c).queue 3).fly = [] →
      exec i s = .next (s.after (fun t => fqRetire c (fqEnter c h [] [] ((popHead c 3 t).bump F.ROD_CMD_TALLY_EMPTY c)))))) ∧
  (∀ (s : State) (c : CoreId) (q : Nat) (h : Cmd) (rest : List Cmd), q < 5 → ((s.core c).queue q).wait = h :: rest → (s.core c).st ≠ .idle →
    let k := s.core c
    let k' := (signalDone c q h ((popHead c q s).bump F.ROD_CMD_TALLY_EMPTY c)).core c
    (k'.queue q).wait = rest ∧
    ((cwWv h.w = false ∨ h.granted = true) → cwSv h.w = false → k'.tok = k.tok) ∧
    (cwWv h.w = true → h.granted = false → cwSv h.w = false → k'.tok = k.tok.put 0 (cwWtk h.w) (k.tok.lk 0 (cwWtk h.w) - 1)) ∧
    ((cwWv h.w = false ∨ h.granted = true) → cwSv h.w = true → k.tok.lk 0 (cwStk h.w) ≠ 255 →
      k'.tok = k.tok.put 0 (cwStk h.w) (k.tok.lk 0 (cwStk h.w) + 1)))

/-- TMM, the Strainer's commands and the memory engine's issue where their operands pass the checks of their tables; what a repeat of a Strainer command writes
meets nothing that any repeat reads (R179).

What TMM, the Strainer's commands and the memory engine's have done when they complete: each repeat's output, then the signal. That operands are read and results
written at the COMPLETE row (log entry 55), that SRAND's stream is IMM (log entry 56) and that MGATHER's list is read at completion (log entry 46) are the model's
choices. -/
def Obligations.EngineCommands : Prop :=
  let allReads (h : Cmd) (l : Nat → List (Nat × Nat)) : List (Nat × Nat) := (List.range (cwCount h.w)).flatMap l
  (∀ c : CoreId,
    StartDoes (.tmm c) c 1 0x01 (tmmOk1 c) ∧
    StartDoes (.ssort c) c 2 0x01 (fun _ h r => sqArgs (allReads h (fun j => [(h.xAddr j, 8 * cwImm h.w)])) (h.yAddr r, 8 * sqK h (cwImm h.w))) ∧
    StartDoes (.smerge c) c 2 0x02 (fun _ h r => sqArgs (allReads h (fun j => [(h.xAddr j, 8 * immLo h), (h.zAddr j, 8 * immHi h)]))
      (h.yAddr r, 8 * sqK h (immLo h + immHi h))) ∧
    StartDoes (.sfilt c) c 2 0x03 (fun s h r => sqArgs (allReads h (fun j => [(h.xAddr j, 8 * cwImm h.w), (h.zAddr j, 8)]))
      (h.yAddr r, 8 + 8 * (sfiltOut c s h r).length)) ∧
    StartDoes (.scomp c) c 2 0x04 (fun s h r => sqArgs (allReads h (fun j => [(h.xAddr j, 4 * cwImm h.w), (h.zAddr j, 4 * cwImm h.w)]))
      (h.yAddr r, 8 + 4 * (scompOut c s h r).length)) ∧
    StartDoes (.sscan c) c 2 0x05 (fun _ h r => sqArgs (allReads h (fun j => [(h.xAddr j, 4 * cwImm h.w)])) (h.yAddr r, 8 * cwImm h.w)) ∧
    StartDoes (.spick c) c 2 0x06 (fun _ h r => sqArgs (allReads h (fun j => [(h.xAddr j, 8 * immLo h), (h.zAddr j, 8)])) (h.yAddr r, 8)) ∧
    StartDoes (.srand c) c 2 0x07 (fun s h r => sqArgs [] (h.yAddr r, 8) && (s.brewSeed c (cwXarg h.w % 256)).isSome) ∧
    StartDoes (.mcopy c) c 4 0x01 (mcopyOk c) ∧
    StartDoes (.mfill c) c 4 0x02 (fun s h r => mqOk c (mqY h) true (h.yAddr r) (mfillLen h) s) ∧
    StartDoes (.mgather c) c 4 0x03 (fun s h r => mqOk c 0 false (h.zAddr r) 256 s &&
      (List.range 64).all (fun i => mgatherRowOk c h r i ((mgatherIdx c h r s).getD i 0) s))) ∧
  (∀ c : CoreId,
    FinishDoes (.tmmComplete c) c 1 0x01 (tmmRep c) ∧
    FinishDoes (.ssortComplete c) c 2 0x01 (fun h r s =>
      let l := sqRecs c s (h.xAddr r) (cwImm h.w)
      countNan c h l (sqWrite c (h.yAddr r) (((strainSort (sqMode h) (sqAsc h) l).take (sqK h l.length)).map SRec.bytes).flatten s)) ∧
    FinishDoes (.smergeComplete c) c 2 0x02 (fun h r s =>
      let bef := recBefore (sqMode h) (sqAsc h)
      let x := sqRecs c s (h.xAddr r) (immLo h)
      let z := sqRecs c s (h.zAddr r) (immHi h)
      (countNan c h (x ++ z) (sqWrite c (h.yAddr r) ((smerge bef (sqK h (x.length + z.length)) x z).map SRec.bytes).flatten s)).bumpN
        F.ROD_STR_TALLY_UNSORTED c ((if inOrder bef x then 0 else 1) + (if inOrder bef z then 0 else 1))) ∧
    FinishDoes (.sfiltComplete c) c 2 0x03 (fun h r s => countNan c h (sqRecs c s (h.xAddr r) (cwImm h.w))
      (sqWrite c (h.yAddr r) (bytesLE 8 (sfiltOut c s h r).length ++ ((sfiltOut c s h r).map SRec.bytes).flatten) s)) ∧
    FinishDoes (.scompComplete c) c 2 0x04 (fun h r s =>
      sqWrite c (h.yAddr r) (bytesLE 8 (scompOut c s h r).length ++ ((scompOut c s h r).map (bytesLE 4)).flatten) s) ∧
    FinishDoes (.sscanComplete c) c 2 0x05 (fun h r s =>
      sqWrite c (h.yAddr r) ((prefixSums 0 (sqWords c s (h.xAddr r) (cwImm h.w))).map (bytesLE 8)).flatten s) ∧
    FinishDoes (.spickComplete c) c 2 0x06 (fun h r s =>
      let bs := Mem.rd (s.core c).rmem 0 (h.xAddr r) (8 * immLo h)
      let x := spick ((List.range (immLo h)).map (fun i => leAt bs (8 * i) 8)) (immHi h) (Mem.rdN (s.core c).rmem 0 (h.zAddr r) 8)
      sqWrite c (h.yAddr r) (bytesLE 4 x.1 ++ bytesLE 4 x.2) s) ∧
    FinishDoes (.srandComplete c) c 2 0x07 (fun h r s => match s.brewSeed c (cwXarg h.w % 256) with
      | some (k, seed) =>
        sqWrite c (h.yAddr r) (bytesLE 8 (jrand seed (s.brewStep k) (BitVec.ofNat 32 (cwImm h.w)) (BitVec.ofNat 32 (h.zAddr r))).toNat) s
      | none => s) ∧
    FinishDoes (.mcopyComplete c) c 4 0x01 (fun h r s => mqCopy c (mqX h) (h.xAddr r) (mqY h) (h.yAddr r) (cwImm h.w) s) ∧
    FinishDoes (.mfillComplete c) c 4 0x02 (fun h r s =>
      mqWr c (mqY h) (h.yAddr r) ((rep (mfillLen h / 4) (bytesLE 4 (cwImm h.w))).flatten) s) ∧
    FinishDoes (.mgatherComplete c) c 4 0x03 (fun h r s =>
      eachDo (List.range 64) (fun i t => mgatherRow c h r i ((mgatherIdx c h r s).getD i 0) t) s))

/-- The frame of the vector and tensor engines and the Strainer: every other core and everything beside the core, the registers, the records, the free values used
up, what is sent and, for TMM's completion, the shadow checks is as it was; the program counter, the general registers, the address registers and the instruction
memory of the core too. -/
def Obligations.EngineFrame : Prop :=
  ∀ (s t : State) (c : CoreId) (i : Instr),
    i ∈ ([.vnop c, .vld c, .vst c, .vbcast c, .viadd c, .visub c, .vimul c, .vand c, .vor c, .vxor c, .vshl c, .vshr c, .vmin c, .vmax c, .vcmp c, .vsel c,
      .vfadd c, .vfmul c, .vffma c, .vcvt c, .vunpk c, .vpack c, .vperm c, .vexp2 c, .vrmax c] ++
      [.bexp c, .bacc c, .bmac c, .baddp c, .bout c, .bst c, .bclr c, .btal c, .bscat c, .tnop c, .tmm c, .tmmComplete c, .snop c, .ssort c, .ssortComplete c,
      .smerge c, .smergeComplete c, .sfilt c, .sfiltComplete c, .scomp c, .scompComplete c, .sscan c, .sscanComplete c, .spick c, .spickComplete c, .srand c,
      .srandComplete c] : List Instr) →
    (s.core c).st ≠ .idle → exec i s = .next t →
    s.OnlyCoreAndChecks t c ∧ (i ≠ .tmmComplete c → s.OnlyCore t c) ∧ (t.core c).pc = (s.core c).pc ∧ (t.core c).g = (s.core c).g ∧ (t.core c).a = (s.core c).a ∧ (t.core c).imem = (s.core c).imem

/-- The fabric engine's commands (Table 3.10): each, at the head of FQ or waiting there, does what its table says; an FMEM without an answer in time gets
status TIMEOUT, and an answer would now come late.

Strict mode (R311, Table 11.8): an FRECV of MODE 1 and an FMEM that asks for an FADD32 complete empty and are counted. -/
def Obligations.FabricEngine : Prop :=
  (∀ (s : State) (c : CoreId) (h : Cmd) (f : Fly) (i : Nat) (q : FReq),
    (fqHead c 0x01 s = some h → exec (.fsend c) s = .next (s.after (fsendEffect c h))) ∧
    ((fsendNext c s).isSome = true → exec (.fsendAccepted c) s = .next (s.after (fun t => (fsendNext c t).getD t))) ∧
    (fqHead c 0x02 s = some h → exec (.frecv c) s = .next (s.after (frecvEffect c h))) ∧
    ((s.core c).fqSending = none → fqHead c 0x03 s = some h → (s.strict = false ∨ fmemFadd c h s = false) →
      exec (.fmem c) s = .next (s.after (requestIssue c (fmemUnit c) h))) ∧
    ((s.core c).fqSending = none → fqHead c 0x04 s = some h → exec (.fsync c) s = .next (s.after (requestIssue c (fsyncUnit c) h))) ∧
    ((s.core c).fqSending = some f → cwOpc f.cmd.w = 0x03 → s.finishing c = true →
      (requestNext c (fmemUnit c) f s).isSome = true →
      exec (.fmem c) s = .next (s.after (fun t => (requestNext c (fmemUnit c) f t).getD t))) ∧
    ((s.core c).fqSending = some f → cwOpc f.cmd.w = 0x04 → s.finishing c = true →
      (requestNext c (fsyncUnit c) f s).isSome = true →
      exec (.fsync c) s = .next (s.after (fun t => (requestNext c (fsyncUnit c) f t).getD t))) ∧
    (fqHead c 0x05 s = some h → ((s.core c).queue 3).fly = [] → exec (.ffence c) s = .next (s.after (ffenceEffect c h))) ∧
    ((s.core c).freqs[i]? = some q → q.sync = false → exec (.fmemTimeout c i) s = .next (s.after (fun t => answerReq c q 11 [] (answerLate q t))))) ∧
  (∀ (s : State) (c : CoreId) (h : Cmd), s.strict = true → cwCount h.w ≠ 0 →
    let empty : State → State := fun t => fqRetire c (fqEnter c h [] [] (countEmpty c (countStrictRej c (popHead c 3 t))))
    (fqHead c 0x02 s = some h → cwMode h.w = 1 → exec (.frecv c) s = .next (s.after empty)) ∧
    ((s.core c).fqSending = none → fqHead c 0x03 s = some h → fmemFadd c h s = true → exec (.fmem c) s = .next (s.after empty)))

-- Frames that the switch consumes or forwards -------------------------------------------------------------------------------------------------

/-- A frame whose START word or header check fails is lost at its port, whatever row it would belong to (R212 checks 1 and 2): LWERR once an episode, or
HCRCERR, after which a LEN above 4,096 leaves the receiver looking for a link word; nothing is stored. A frame that fails checks 3 to 7 is not stored either.

A frame that waits here, sound and checked before, goes to its unit, which takes it or lets it wait. -/
def Obligations.FrameChecks : Prop :=
  (∀ (s : State) (p : Nat) (rx : RxFrame),
    let t := s.modPort p (fun x => { x with resync := false })
    (rx.startOk = false → (rxHead p rx s).1 = none ∧
      (rxHead p rx s).2 = ((if (s.port p).resync then s else s.bump F.PORT_LINKERR_LWERR p).modPort p (fun x => { x with resync := true }))) ∧
    (rx.startOk = true → rx.frame.hcrcOk = false → rxHead p rx s =
      (none, (t.bump F.PORT_RXFRAME_HCRCERR p).modPort p (fun x => { x with resync := decide (4096 < rx.frame.len) }))) ∧
    (rx.startOk = true → rx.frame.hcrcOk = true → ((rxHead p rx s).1.isNone = true ↔ t.headFail p rx.frame ≠ none))) ∧
  (∀ (u : Machine.Unit) (s : State) (k i : Nat) (b : Buf), s.waiting k = some (i, b) → tainted b.frame = false → b.fresh = false →
    s.dropped none b.frame true = none →
    u.handle (.inbox k) s = (match u.use i b.frame (outOfInbox i s) with
      | some t => t
      | none => u.wait i b.frame s))

/-- R329 in serial arithmetic: a frame whose epoch is checked passes exactly where it equals the accepted one; it counts in AHEAD where it is 1 to 32,767 ahead
and in OLD where it is 1 to 32,768 behind. -/
def Obligations.EpochCheck : Prop :=
  ∀ (s : State) (f : Frame), epochExempt f = false →
    let a := s.fld F.GLOBAL_MEPOCH_MEPOCH 0
    let e := f.mepoch
    (s.epochFail f = none ↔ e = a) ∧
    (s.epochFail f = some F.GLOBAL_MEPOCH_AHEAD ↔ (1 ≤ (e + 65536 - a) % 65536 ∧ (e + 65536 - a) % 65536 ≤ 32767)) ∧
    (s.epochFail f = some F.GLOBAL_MEPOCH_OLD ↔ (1 ≤ (a + 65536 - e) % 65536 ∧ (a + 65536 - e) % 65536 ≤ 32768))

/-- The rows that collective, sampling and expert frames give: each is taken by its unit.

The memory requests of Tables 10.2 and 10.3, each atomic with its new value of m from m and the operand x.

The SYNC requests of Table 10.7, among them the ARRIVEs to the objects of membership, replay and loading, and the answers that reach the fabric engines. -/
def Obligations.UnitFrames : Prop :=
  (TakenBy .collContribRx (collUnit (fun k => k = 1 || k = 0 || decide (8 ≤ k)) contribUse) ∧
  TakenBy .collExpsumRx (collUnit (fun k => k = 2) expsumUse) ∧
  TakenBy .collGexpRx (collUnit (fun k => k = 3) gexpUse) ∧
  TakenBy .collPartialRx (collUnit (fun k => k = 4) partialUse) ∧
  TakenBy .collLtallyRx (collUnit (fun k => k = 5) ltallyUse) ∧
  TakenBy .collResultRx (collUnit (fun k => k = 6) resultUse) ∧
  TakenBy .collStatusRx (collUnit (fun k => k = 7) statusUse) ∧
  TakenBy .actRx (expUnit (fun k => k ≠ 2 && k ≠ 5) actUse) ∧
  TakenBy .tendRx (expUnit (fun k => k = 2) tendUse) ∧
  TakenBy .expoutRx (expUnit (fun k => k = 5) expoutUse) ∧
  TakenBy .cancelRx cancelUnit) ∧
  (TakenBy .mreqLoad (memUnit (fun op => op ≠ 2 && !isAtomicOp op) loadUse reqWait) ∧
  TakenBy .mreqStore (memUnit (· = 2) storeUse reqWait) ∧
  ∀ at_ : Nat → (Nat → Nat → Nat) → Machine.Unit, (at_ = fun op new => memUnit (· = op) (atomicUse new) loggedWait) →
    TakenBy .add32 (at_ 0x10 (fun m x => (m + x) % 2 ^ 32)) ∧
    TakenBy .add64 (at_ 0x11 (fun m x => (m + x) % 2 ^ 64)) ∧
    TakenBy .beadadd (at_ 0x12 (fun m x => ((BitVec.ofNat 96 (m + x)).signExtend 128).toNat)) ∧
    TakenBy .mins64 (at_ 0x13 (fun m x => if sext m 64 ≤ sext x 64 then m else x)) ∧
    TakenBy .maxs64 (at_ 0x14 (fun m x => if sext m 64 ≤ sext x 64 then x else m)) ∧
    TakenBy .minu64 (at_ 0x15 (fun m x => min m x)) ∧
    TakenBy .maxu64 (at_ 0x16 (fun m x => max m x)) ∧
    TakenBy .and64 (at_ 0x17 (fun m x => m &&& x)) ∧
    TakenBy .or64 (at_ 0x18 (fun m x => m ||| x)) ∧
    TakenBy .xor64 (at_ 0x19 (fun m x => m ^^^ x)) ∧
    TakenBy .swap64 (at_ 0x1A (fun _ x => x)) ∧
    TakenBy .cas64 (at_ 0x1B (fun m x => if m = x % 2 ^ 64 then x / 2 ^ 64 else m)) ∧
    TakenBy .cas128 (at_ 0x1C (fun m x => if m = x % 2 ^ 128 then x / 2 ^ 128 else m)) ∧
    TakenBy .fadd32 (at_ 0x1D fp32Add)) ∧
  (TakenBy .syncArrive (syncUnit (· = 0x30) (fun n => !arriveRowOf n) (objUse (fun f => objArrive f.object f.k f.src)) loggedWait) ∧
  TakenBy .syncWait (syncUnit (· = 0x31) (fun _ => true) (fun i f s => waitUse i f.object f s) reqWait) ∧
  TakenBy .syncAdd (syncUnit (· = 0x32) (fun _ => true) (objUse (fun f => objAdd f.object f.k f.src)) loggedWait) ∧
  TakenBy .syncReset (syncUnit (· = 0x33) (fun _ => true) (objUse (fun f => objReset f.object (leAt f.operand 0 8) (leAt f.operand 8 8))) loggedWait) ∧
  TakenBy .syncRead (syncUnit (fun op => op ≠ opRelease && !(decide (0x30 ≤ op) && decide (op ≤ 0x33))) (fun _ => true)
    (fun i f s => reply i 0 (s.readBytes f.object) s) reqWait) ∧
  TakenBy .epochArrive (syncUnit (· = 0x30) (· = 0xFFFF) epochUse loggedWait) ∧
  TakenBy .authArrive (syncUnit (· = 0x30) (fun n => decide (0xFFF0 ≤ n) && decide (n ≤ 0xFFF7)) authUse loggedWait) ∧
  TakenBy .rewindArrive (syncUnit (· = 0x30) (fun n => decide (0xFFE0 ≤ n) && decide (n ≤ 0xFFE7)) rewindUse loggedWait) ∧
  TakenBy .commitArrive (syncUnit (· = 0x30) (· = 0xFFD0) commitUse loggedWait) ∧
  TakenBy .unloadArrive (syncUnit (· = 0x30) (fun n => decide (0xFFD8 ≤ n) && decide (n ≤ 0xFFDF)) unloadUse loggedWait) ∧
  TakenBy .releaseRx releaseUnit ∧ TakenBy .mrspRx mrspUnit ∧ TakenBy .ackDoneRx doneUnit ∧ TakenBy .nackLostRx nackUnit)

/-- R283: an atomic on HBM without a memory error replies with the value before it, stores the new value in the bytes of its width, and leaves every other byte
as it was. -/
def Obligations.AtomicOnHbm : Prop :=
  ∀ (s : State) (f : Frame) (new : Nat → Nat → Nat) (o : Nat), s.MemOk → placeOf f.offset = .hbm o → o + atomicWidth f.opc ≤ hbmSize →
    s.hbmUeIn o (atomicWidth f.opc) = false →
    let w := atomicWidth f.opc
    let r := atomicApply f new s
    r.1.2 = s.memRd f.offset w ∧ r.1.1 % 256 = 0 ∧
      r.2.memRd f.offset w = bytesLE w (new (natLE (s.memRd f.offset w)) (natLE f.operand)) ∧
      (∀ b : Nat, (b < f.offset ∨ f.offset + w ≤ b) → r.2.memByte b = s.memByte b) ∧ r.2.cores = s.cores ∧ r.2.board = s.board

/-- A STORE to HBM that meets no memory error writes its bytes and no other, and will be named in an ACK with status OK (R282), which takes over a cell of the
store's where that came by a port, whether it is charged there or crossed from another die (R258). -/
def Obligations.StoreToHbm : Prop :=
  ∀ (s : State) (i : Nat) (f : Frame) (b : Buf) (o : Nat), s.MemOk → placeOf f.offset = .hbm o → f.operand.length = f.len → o + f.len ≤ hbmSize →
    s.hbmGone o = false → s.storeUe o f.len = false → s.buf i = some b →
    ∃ t, storeUse i f s = some t ∧ t.memRd f.offset f.len = f.operand ∧
      (∀ a : Nat, (a < f.offset ∨ f.offset + f.len ≤ a) → t.memByte a = s.memByte a) ∧
      (∃ ch : Charge, t.board.dones = s.board.dones ++ [⟨b.frame.src, b.frame.dst, b.frame.seq, 0, b.die, ch⟩] ∧
        ∀ p : Nat, b.inPort = some p →
          (∀ (r : Nat) (held : List Nat), b.charge = .slot r held → ch = .slot r (heldOne held)) ∧
          (∀ (x y : Nat) (v n : Nat), b.charge = .cross x y v n → ch = .cross x y v 1)) ∧ t.brews = s.brews

/-- Rows 1 and 4 of Table 10.11, and a request under a new key: a repeated request gets the logged reply with RETRY_HIT and is not applied; a retry of a SPENT entry
gets STALE; a new request is applied and logged (R294, R295). -/
def Obligations.AppliedOnce : Prop :=
  ∀ (s : State) (i : Nat) (f : Frame) (e : LogEnt) (deny : Option (State → Option State)) (apply : State → (Nat × List Byte) × State),
    (s.logOf f.src f.tag = some e → e.op = f.op % 2 ^ 15 → e.off = f.offset → e.operand = f.operand →
      (∀ (w : Nat) (d : List Byte), e.reply = some (w, d) →
        loggedUse i f deny apply s = reply i (w % 256 + 256 + bitsOf w 9 1 * 512) d (s.bump F.MEMREG_TALLY_RETRYHIT 0)) ∧
      (e.reply = none → 2 ^ 15 ≤ f.op → loggedUse i f deny apply s = reply i 1 [] (s.bump F.MEMREG_TALLY_STALE 0))) ∧
    (s.logOf f.src f.tag = none → s.logFull = false →
      loggedUse i f none apply s = reply i (apply s).1.1 (apply s).1.2
        (logPut ⟨f.src, f.tag, f.op % 2 ^ 15, f.offset, f.operand, some (apply s).1⟩ (apply s).2)) ∧
    (s.logOf f.src f.tag = none → s.logFull = true → loggedUse i f none apply s = none)

/-- The release test of R299: GENERATION rises to at most the largest value of its width (R11), LASTSRC is the request's source, AUTO takes TARGET off COUNT and otherwise RELEASED is set; where the test fails
nothing happens. -/
def Obligations.ReleaseRule : Prop :=
  ∀ (s : State) (n : Nat) (src : Fnid) (o : Obj), s.obj n = o →
    (o.target ≠ 0 → o.target ≤ o.count → (o.auto = true ∨ o.released = false) →
      releaseTest n src s = makePending n none (answerWaits n ((s.setObj n
        { o with gen := min (o.gen + 1) (2 ^ 64 - 1), lastSrc := src, count := if o.auto then o.count - o.target else o.count,
                 word2 := if o.auto then o.word2 else o.word2 ||| 2 ^ 18 }).bump F.CBOARD_TALLY_RELEASES 0))) ∧
    ((o.target = 0 ∨ o.count < o.target ∨ (o.auto = false ∧ o.released = true)) → releaseTest n src s = s)

/-- The link-local rows of MGMT frames, and the rows of frames that pass on. That a KA_NAK withdraws an entry that has begun (log entry 77), that a WAKE sends no
KA_EXIT (log entry 87) and that a port whose lanes are reversed drops its own request on a KA_ACK (log entry 150) are the model's choices. -/
def Obligations.LinkAndForwardFrames : Prop :=
  TakenBy .kaReq (mgmtUnit (· = 0x01) kaAsked) ∧
  TakenBy .kaAck (mgmtUnit (· = 0x02) (fun p _ s =>
    if (s.port p).ka = .asked then
      (if s.reversed p then s.modPort p (fun x => { x with ka := .none })
      else if (kaEnter p s).kaRecall p then kaLeave p (kaEnter p s) else kaEnter p s)
    else s)) ∧
  TakenBy .kaNak (mgmtUnit (· = 0x03) (fun p _ s =>
    if (s.port p).ka = .asked || (s.port p).ka = .entering then s.modPort p (fun x => { x with ka := .none }) else s)) ∧
  TakenBy .kaExit (mgmtUnit (· = 0x04) (fun p _ s => kaLeave p s)) ∧
  TakenBy .mgmtWake (mgmtUnit (· = 0x05) (fun _ f s => if s.isAuth f.src && s.idle then leaveIdle s else s)) ∧
  TakenBy .mgmtUnknown (mgmtUnit (fun t => !(decide (1 ≤ t) && decide (t ≤ 5)) && t ≠ 0x10) (fun p _ s => s.bump F.PORT_KA_MGMTUNK p)) ∧
  (∀ (f : Src) (s : State), (quizUnit (s.srcPort f)).offered f s = true →
    exec (.mgmtQuizFrame f) s = .next (s.after ((quizUnit (s.srcPort f)).handle f))) ∧
  (∀ (p : PortId) (rx : RxFrame) (s : State), s.linked p = true → rx.frame.kind = 9 →
    exec (.beatRx (.port p rx)) s = .next (s.after (beatRxEffect p rx))) ∧
  (∀ (f : Src) (s : State), s.forwardOffered f = true → exec (.frameForward f) s = .next (s.after (forwardHandle f))) ∧
  (∀ (f : Src) (s : State), s.mcastOffered f = true → exec (.mcastFrameRx f) s = .next (s.after (mcastHandle f)))

-- Events of the units -------------------------------------------------------------------------------------------------------------------------

/-- Every step keeps the canonical form of the memories, HBM, Rod, instruction and flash, and of the tables of registers and of cores; the reset state has it
(ResetState). -/
def Obligations.MemoryFormInvariant : Prop :=
  ∀ s t : State, s.TablesOk → s.MemOk → step s = .next t → t.TablesOk ∧ t.MemOk

/-- The commands that do nothing complete at issue, with COUNT 0 or not (R78, R79; Tables 3.9, 3.10, 3.11 and 6.1): where the core's queues issue and its clocks
run, the command heads its queue with nothing in execution there, and its WV token, if it has one, is granted or available (R80).

The events of open work complete: a block whose inputs are all held is reduced (R114), an instance or a layer step times out (R122, R168), a frame that names no
descriptor has waited for an FRECV long enough (R110), a batch of tokens is routed (R147), a block of a token is combined (R165).

A HOLD stops the timers, the router and the combine cores (Table 12.8), and a sleeping island the work of its cores (R386): then nothing happens. -/
def Obligations.NopsAndUnitEventsComplete : Prop :=
  (∀ (s : State) (c : CoreId) (h : Cmd) (rest : List Cmd), (s.core c).issues = true → s.clocked c = true → cwOpc h.w = 0 →
    let heads (q : Nat) : Prop := (s.core c).queue q = { wait := h :: rest, fly := [] } ∧
      (cwWv h.w = true → h.granted = true ∨ s.waitersBefore c q (cwWtk h.w) < (s.core c).tok.lk 0 (cwWtk h.w))
    let counted (t : State) : State := if cwCount h.w = 0 then t.bump F.ROD_CMD_TALLY_EMPTY c else t
    (heads 1 → exec (.tnop c) s = .next (s.after (fun t => signalDone c 1 h (counted (popHead c 1 t))))) ∧
    (heads 2 → exec (.snop c) s = .next (s.after (fun t => signalDone c 2 h (counted (popHead c 2 t))))) ∧
    (heads 4 → exec (.mnop c) s = .next (s.after (fun t => signalDone c 4 h (counted (popHead c 4 t))))) ∧
    (heads 3 → exec (.fnop c) s = .next (s.after (fun t => fqRetire c (fqEnter c h [] [] (popHead c 3 (counted t))))))) ∧
  (∀ (s : State) (inst : BitVec 32) (step : Word) (b i k : Nat) (x : Inst) (f : Buf) (l : Layer) (owner : Fnid) (tok : BitVec 32)
      (toks : List (Fnid × BitVec 32)) (ts : List Tok) (y : Busy) (t : Tok), s.bit F.GLOBAL_HOLD_INHOLD 0 = false →
    (s.instNo inst.toNat step = some x → s.blockReady (s.descOf x) x b = true →
      s.bit F.ROD_ISLAND_ASLEEP (s.blockCore (s.descOf x) x.step b / 4) = false →
      exec (.collBlockReduced inst step b) s = .next (s.after (fun u => advance (reduceBlk b x u).1 (reduceBlk b x u).2))) ∧
    (s.instNo inst.toNat step = some x → exec (.collTimeout inst step) s = .next (s.after (failEnd x))) ∧
    (s.net.unmatched[i]? = some k → s.buf k = some f → f.only = none →
      exec (.collUnmatchedExpiry i) s = .next (s.after (fun u =>
        let u : State := { u with net := { u.net with unmatched := u.net.unmatched.erase k } }
        discard k (if f.frame.kind = 3 then u.bump F.SCHED_COLL_DROP_STRAY f.frame.grp else u.bump F.SCHED_EXP_DROP_STRAY 0)))) ∧
    (s.layerNo inst.toNat step = some l → toks.map (fun z => l.tok z.1 z.2.toNat) = ts.map some → ts ≠ [] → ts.length ≤ 32 →
      toks.eraseDups = toks → ts.all (tokReady (s.xdesc l.desc)) = true →
      (s.routerCores (s.xdesc l.desc)).all (fun c => !s.bit F.ROD_ISLAND_ASLEEP (c / 4)) = true →
      exec (.tokenRouted inst step toks) s = .next (s.after (fun u => layerAdvance (routeBatch ts l u).1 (routeBatch ts l u).2))) ∧
    (s.layerNo inst.toNat step = some l → l.busy.find? (fun z => z.owner = owner && z.no = tok.toNat && z.blk = b) = some y →
      l.tok owner tok.toNat = some t → s.bit F.ROD_ISLAND_ASLEEP (s.mapCore ((s.xdesc l.desc).cmbase + y.entry) / 4) = false →
      exec (.combineBlockDone inst step owner tok b) s = .next (s.after (combineBlockDoneEffect l y t b))) ∧
    (s.layerNo inst.toNat step = some l → exec (.layerTimeout inst step) s = .next (s.after (layerFail 1 l)))) ∧
  (∀ (s : State) (inst : BitVec 32) (step : Word) (b : Nat) (owner : Fnid) (tok : BitVec 32) (toks : List (Fnid × BitVec 32)),
    (s.bit F.GLOBAL_HOLD_INHOLD 0 = true → exec (.collTimeout inst step) s = .next s ∧ exec (.layerTimeout inst step) s = .next s ∧
      exec (.tokenRouted inst step toks) s = .next s ∧ exec (.combineBlockDone inst step owner tok b) s = .next s) ∧
    (∀ x : Inst, s.instNo inst.toNat step = some x → s.bit F.ROD_ISLAND_ASLEEP (s.blockCore (s.descOf x) x.step b / 4) = true →
      exec (.collBlockReduced inst step b) s = .next s) ∧
    (∀ (l : Layer) (n : Nat), s.layerNo inst.toNat step = some l → n ∈ s.routerCores (s.xdesc l.desc) → s.bit F.ROD_ISLAND_ASLEEP (n / 4) = true →
      exec (.tokenRouted inst step toks) s = .next s) ∧
    (∀ (l : Layer) (y : Busy), s.layerNo inst.toNat step = some l → l.busy.find? (fun z => z.owner = owner && z.no = tok.toNat && z.blk = b) = some y →
      s.bit F.ROD_ISLAND_ASLEEP (s.mapCore ((s.xdesc l.desc).cmbase + y.entry) / 4) = true →
      exec (.combineBlockDone inst step owner tok b) s = .next s))

/-- The resequencer's events (R241 to R245), and those of the egress ports and their queues (R250, R258, R268, R270, R227). -/
def Obligations.ReseqAndEgress : Prop :=
  ∀ (s : State) (g : Fin 9) (src dst : Fnid) (seq : BitVec 24) (e : RsEntry) (p : PortId) (q : Fin 32) (n i j : Nat) (slot : Fin 1024) (x : QEnt),
    (s.holds g src dst seq.toNat = true → exec (.reseqHoldExpiry g src dst seq) s = .next (s.after (holdExpired g src dst seq.toNat))) ∧
    (s.entry g src dst = some e → e.learning = true → exec (.reseqLearnEnd g src dst) s = .next (s.after (learnEndEffect g e))) ∧
    (s.entry g src dst = some e → e.anyHeld = false →
      exec (.reseqEntryIdle g src dst) s =
        .next (s.after (fun t => t.setGroup g ((t.group g).filter (fun y => !(y.src = src && y.dst = dst)))))) ∧
    (s.nextQueue p = some n → s.linked p = true → (s.port p).tx = none → exec (.egressFrameStart p) s = .next (s.after (startFrame p n))) ∧
    ((s.port p).tx = some (n, i) → exec (.egressFrameEnd p) s = .next (s.after (egressFrameEndEffect p i))) ∧
    exec (.coarseWheelSlot p slot) s = .next (s.after (coarseWheelSlotEffect p slot)) ∧
    (((s.port p).queue q).live[j]? = some x → s.starved p q = true → exec (.egressAgeing p q j) s = .next (s.after (egressAgeingEffect p q x))) ∧
    exec .queueSample s = .next (s.after (fun t => eachDo t.portList (fun p t => eachDo (List.range 32) (sampleQueue p) t) t))

/-- Link words (R205, R216, R217): a good CREDIT sets LASTFREED, a good CSYNC tells what was lost, a bad word opens an episode and counts once, a good word ends
it; and those the port sends. -/
def Obligations.LinkWords : Prop :=
  ∀ (s : State) (p : PortId) (w : Word) (v : Vc), s.linked p = true →
    (lwGood w = true → lwType w = 0xC1 → exec (.creditRx p w) s = .next (s.after (fun t => t.modPort p (fun x =>
      { x.setAcct (lwVc w) { x.account (lwVc w) with lastFreed := lwCount w } with resync := false })))) ∧
    (lwGood w = true → lwType w = 0xC2 → exec (.csyncRx p w) s = .next (s.after (csyncRxEffect p w))) ∧
    ((lwGood w = false ∨ lwKnown w = false) → (s.port p).resync = false →
      exec (.linkWordBad p w) s = .next (s.after (fun t => (t.bump F.PORT_LINKERR_LWERR p).modPort p (fun x => { x with resync := true })))) ∧
    (lwGood w = true → (s.port p).resync = true →
      exec (.linkWordResync p w) s = .next (s.after (fun t => t.modPort p (fun x => { x with resync := false })))) ∧
    exec (.creditRefresh p) s = .next (s.after (fun t =>
      eachDo (List.range 16) (fun v t => if ((t.port p).account v).limit = 0 then t else sendWord p 0xC1 v t) t)) ∧
    exec (.csyncSend p v) s = .next (s.after (sendWord p 0xC2 v.toNat))

-- Control space -------------------------------------------------------------------------------------------------------------------------------

/-- An accepted write to a register stores the value, read-only and reserved bits apart, and has the register's effect; the rows that ask for what ROD_CTRL,
the placement tables, the route banks and QCLR do. -/
def Obligations.RegisterWrites : Prop :=
  (∀ (r : Reg) (i : Nat) (off : BitVec 32), off.toNat = r.off i →
    WriteDoes (fun b v => .controlRegisterWrite b off v) r i (fun _ _ => true) (fun old new v s => ctlEffect r i old new v s)) ∧
  ∀ (c : CoreId) (b : Fin 2) (p : PortId) (i : Fin 131072),
    WriteDoes (fun by_ v => .rodHaltSet by_ c v) .ROD_CTRL c (fun s v => v.getLsbD 0 && !s.bit F.ROD_CTRL_HALT c) (fun old _ v s => rodCtrl c old v s) ∧
    WriteDoes (fun by_ v => .rodHaltClear by_ c v) .ROD_CTRL c (fun s v => !v.getLsbD 0 && s.bit F.ROD_CTRL_HALT c)
      (fun old _ v s => rodCtrl c old v s) ∧
    WriteDoes (fun by_ v => .hazclr by_ c v) .ROD_CTRL c (fun _ v => v.getLsbD 1) (fun old _ v s => rodCtrl c old v s) ∧
    WriteDoes (fun by_ v => .talclr by_ c v) .ROD_CTRL c (fun _ v => v.getLsbD 2) (fun old _ v s => rodCtrl c old v s) ∧
    WriteDoes (fun by_ v => .placementWrite by_ i v) .SCHED_PLACE i (fun _ _ => true)
      (fun _ _ _ s => s.setReg .SCHED_PLACE_EFF (i / 65536) (BitVec.allOnes 64)) ∧
    WriteDoes (fun by_ v => .placementEffstepWrite by_ b v) .SCHED_PLACE_EFF b (fun _ _ => true) (fun _ _ _ s => s) ∧
    WriteDoes (fun by_ v => .routeBankArm by_ b v) .ROUTE_BANK b (fun s v => s.fld F.ROUTE_BANK_STATE b = 0 && wbits v 0 2 = 1) (fun _ _ _ s => bankArm s) ∧
    WriteDoes (fun by_ v => .routeBankDisarm by_ b v) .ROUTE_BANK b (fun s v => s.fld F.ROUTE_BANK_STATE b = 1 && wbits v 0 2 = 0) (fun _ _ _ s => s) ∧
    WriteDoes (fun by_ v => .routeBankMakeCurrent by_ b v) .ROUTE_BANK b (fun s v => s.fld F.ROUTE_BANK_STATE b = 1 && wbits v 0 2 = 2)
      (fun _ _ _ s => bankCurrent b s) ∧
    WriteDoes (fun by_ v => .qclr by_ p v) .PORT_EGCFG p (fun _ v => v.getLsbD 8) (fun _ _ _ s => qClear p s)

/-- The clear rows.

The rows that are commands of the operator: REWIND, UNLOAD, strict mode, a recheck, units, the power state, a replay of the book. -/
def Obligations.CommandWrites : Prop :=
  (WriteDoes .caddyClr .CADDY_CLR 0 (fun _ v => v.getLsbD 0) (fun _ _ _ s => caddyClear s) ∧
  WriteDoes .beadTallyClr .BEAD_TALLY_CLR 0 (fun _ v => wbits v 0 8 ≠ 0) (fun _ _ v s => beadClear v s) ∧
  WriteDoes .schedCollClr .SCHED_COLL_CLR 0 (fun _ v => wbits v 0 10 ≠ 0) (fun _ _ v s => collClear v s) ∧
  WriteDoes .schedExpClr .SCHED_EXP_CLR 0 (fun _ v => v.getLsbD 0) (fun _ _ _ s => expClear s) ∧
  WriteDoes .schedSampClr .SCHED_SAMP_CLR 0 (fun _ v => wbits v 0 10 ≠ 0) (fun _ _ v s => sampClear v s) ∧
  (∀ p : PortId, WriteDoes (fun by_ v => .portFrclr by_ p v) .PORT_FRCLR p (fun _ v => v.getLsbD 0) (fun _ _ _ s => frClear p s)) ∧
  WriteDoes .routeTallyClr .ROUTE_TALLY_CLR 0 (fun _ v => v.getLsbD 0) (fun _ _ _ s => routeClear s) ∧
  WriteDoes .schedBreachClr .SCHED_BREACH_CLR 0 (fun _ v => v.getLsbD 0) (fun _ _ _ s => clearRegs .SCHED_BREACH s) ∧
  WriteDoes .globalStrictClr .GLOBAL_STRICT_CLR 0 (fun _ v => v.getLsbD 0) (fun _ _ _ s => clearRegs .GLOBAL_STRICT_TALLY s) ∧
  WriteDoes .memregClr .MEMREG_CLR 0 (fun _ v => v.getLsbD 0) (fun _ _ _ s => memregClear s) ∧
  WriteDoes .cboardClr .CBOARD_CLR 0 (fun _ v => v.getLsbD 0) (fun _ _ _ s => clearRegs .CBOARD_TALLY s) ∧
  WriteDoes .globalRejClr .GLOBAL_REJ_CLR 0 (fun _ v => v.getLsbD 0) (fun _ _ _ s => clearRegs .GLOBAL_REJ s) ∧
  WriteDoes .shadowClear .KETTLE_HEALTH_CLR 0 (fun _ v => v.getLsbD 3) (fun _ _ v s => healthClear v s) ∧
  WriteDoes .eyeClear .KETTLE_HEALTH_CLR 0 (fun _ v => v.getLsbD 2) (fun _ _ v s => healthClear v s) ∧
  WriteDoes .slackClear .KETTLE_HEALTH_CLR 0 (fun _ v => v.getLsbD 1) (fun _ _ v s => healthClear v s) ∧
  WriteDoes .tempClear .KETTLE_HEALTH_CLR 0 (fun _ v => v.getLsbD 0) (fun _ _ v s => healthClear v s)) ∧
  ((∀ k : SlotId, WriteDoes (fun by_ v => .rewindCmdWrite by_ k v) .SCHED_REWIND_CMD k (fun _ _ => true) (fun _ _ v s => rewindWrite k v s)) ∧
  WriteDoes .unloadWrite .SCHED_UNLOAD 0 (fun _ v => v.getLsbD 3) (fun _ _ v s => startUnload (wbits v 0 3) none s) ∧
  WriteDoes .strictWrite .GLOBAL_MODE 0 (fun s v => v.getLsbD 0 != s.strict)
    (fun _ _ v s => addRec 0x14 dieAll [if v.getLsbD 0 then 1 else 0] s) ∧
  WriteDoes .auditRecheckGo .AUDIT_RECHK 0 (fun _ v => v.getLsbD 3)
    (fun _ _ v s => { s.setFld F.AUDIT_RECHK_BUSY 0 1 with board := { s.board with recheck := wbits v 0 3 } }) ∧
  WriteDoes .portRemove .GLOBAL_UNITCMD 0 (fun _ v => v.getLsbD 11 && v.getLsbD 10 && wbits v 8 2 = 0) (fun _ _ v s => portRemove (wbits v 0 8) s) ∧
  WriteDoes .portReturn .GLOBAL_UNITCMD 0 (fun _ v => v.getLsbD 11 && !v.getLsbD 10 && wbits v 8 2 = 0) (fun _ _ v s => portReturn (wbits v 0 8) s) ∧
  WriteDoes .coreRemove .GLOBAL_UNITCMD 0 (fun _ v => v.getLsbD 11 && v.getLsbD 10 && wbits v 8 2 = 1) (fun _ _ v s => coreRemove (wbits v 0 8) s) ∧
  WriteDoes .coreReturn .GLOBAL_UNITCMD 0 (fun _ v => v.getLsbD 11 && !v.getLsbD 10 && wbits v 8 2 = 1) (fun _ _ v s => coreReturn (wbits v 0 8) s) ∧
  WriteDoes .stackRemove .GLOBAL_UNITCMD 0 (fun _ v => v.getLsbD 11 && v.getLsbD 10 && wbits v 8 2 = 2) (fun _ _ v s => stackRemove (wbits v 0 8) s) ∧
  WriteDoes .stackReturn .GLOBAL_UNITCMD 0 (fun _ v => v.getLsbD 11 && !v.getLsbD 10 && wbits v 8 2 = 2) (fun _ _ v s => stackReturn (wbits v 0 8) s) ∧
  WriteDoes .pwrCmdRun .KETTLE_PWR_CMD 0 (fun _ v => v.getLsbD 2 && wbits v 0 2 = 0) (fun _ _ _ s => pwrRun s) ∧
  WriteDoes .pwrCmdIdle .KETTLE_PWR_CMD 0 (fun _ v => v.getLsbD 2 && wbits v 0 2 = 1) (fun _ _ _ s => pwrIdle s) ∧
  WriteDoes .pwrCmdKettleOnly .KETTLE_PWR_CMD 0 (fun _ v => v.getLsbD 2 && wbits v 0 2 = 2) (fun _ _ _ s => pwrKettleOnly s) ∧
  WriteDoes .journalReplay .TALLY_TELE_CFG 0 (fun s v => v.getLsbD 21 && !s.bit F.TALLY_TELE_CFG_REPLAY 0)
    (fun _ _ _ s => replayStart (s.setFld F.TALLY_TELE_CFG_REPLAY 0 0)))

/-- A write that R7 rejects changes no field of its register: it is counted in the field of GLOBAL_REJ that applies first and, from the fabric, in MEMREG_ERR
(R426). -/
def Obligations.RejectedWrite : Prop :=
  ∀ (s : State) (r : Reg) (i : Nat) (v : Word) (x : CtlRej) (off : BitVec 32), s.kettleOn = true → off.toNat = r.off i → r.off i % 8 = 0 →
    Reg.at? (r.off i) = some (r, i) →
    (s.ctlCheck none r i v = some x → exec (.controlRegisterWrite .oob off v) s = .next (s.after (fun t => t.bump x.fld 0))) ∧
    ∀ n : Fnid, s.controlOpen ⟨n, none⟩ false = true → s.ctlCheck (some ⟨n, none⟩) r i v = some x →
      exec (.controlRegisterWrite (.fnid n) off v) s = .next (s.after (fun t => (t.bump x.fld 0).bump F.MEMREG_ERR_DENIED 0))

/-- The fabric never changes a field of class OOB: where a write would change one, it is rejected as OOBW; and a BREW field is never changed out of band (R7). -/
def Obligations.AccessClasses : Prop :=
  ∀ (s : State) (r : Reg) (i : Nat) (v : Word) (f : RField), f ∈ r.fields i → f.lo ≤ f.hi → f.hi < 64 →
    wbits (ctlRead s r i) f.lo (f.hi + 1 - f.lo) ≠ wbits v f.lo (f.hi + 1 - f.lo) →
    (f.acc = .oob → ∀ w : Who, s.ctlCheck (some w) r i v = some .oobw) ∧
    (f.acc = .brew → s.ctlCheck none r i v = some .breww)

/-- A clear, accepted or not, changes registers and, for what telemetry has reported, the bases of its sums in the Kettle domain; nothing else. What the command
before it sent has gone.

The frame of link words, of samples, of PLDM and of the ports of service: no core, no memory, no Brew and no
authorised FNID of one, no object, no open work, no shadow check and no island that is being woken changes. -/
def Obligations.ServiceFrame : Prop :=
  (∀ (s t : State) (b : Party) (p : PortId) (v : Word) (i : Instr),
    i ∈ ([.caddyClr b v, .beadTallyClr b v, .schedCollClr b v, .schedExpClr b v, .schedSampClr b v, .portFrclr b p v, .routeTallyClr b v, .schedBreachClr b v,
      .globalStrictClr b v, .memregClr b v, .cboardClr b v, .globalRejClr b v, .shadowClear b v, .eyeClear b v, .slackClear b v, .tempClear b v,
      .qclr b p v] : List Instr) → exec i s = .next t →
    t = { s with regs := t.regs, kettle := { s.kettle with numBase := t.kettle.numBase }, out := t.out }) ∧
  (∀ (s t : State) (p : PortId) (w : Word) (v : Vc) (die : Fin 24) (x : BitVec 16) (n : IslandId) (l : LaneId) (h : BitVec 11) (e : BitVec 10) (r : PldmReq)
      (src target : BitVec 128) (body : List Byte) (bits : List Bool) (m : CtlMsg) (i : Instr),
    i ∈ ([.creditRx p w, .csyncRx p w, .linkWordBad p w, .linkWordResync p w, .creditRefresh p, .csyncSend p v, .trainingTimeout p, .tempSample die x,
      .slackSample n x, .driftSample n x, .eyeSample l h e, .getTid r, .getPldmTypes r, .getPldmCommands r, .getPldmVersion r, .getSensorReading r,
      .getStateSensorReadings r, .getPdrRepositoryInfo r, .getPdr r, .pldmUnsupportedCommand r, .hello m, .oobRead m, .bookread m, .reservedMop m,
      .icmpv6EchoRequest ⟨src, target⟩ body, .neighbourSolicitation src target, .jtagBypass bits, .jtagIdcode, .jtagSamplePreload bits, .jtagExtest, .jtagExtestPulse,
      .jtagExtestTrain, .queueSample, .bookBudgetRefill, .journalReplayEnd] : List Instr) → exec i s = .next t → s.WorkKept t)

/-- HALT (R428): set, it stops a core that is LOADED, in RUN with its current instruction done, or in STEPWAIT, and not in quarantine, and every other core keeps
its state; cleared, a stopped core
returns to the state it left, where no held release waits for it. -/
def Obligations.HaltRules : Prop :=
  ∀ (s : State) (c : Nat) (k : Core), s.core c = k → k.st ≠ .idle →
    (haltSet c s).core c =
      (if k.quar = false ∧ (k.st = .loaded ∨ (k.st = .run ∧ k.stall = none) ∨ k.st = .stepwait) then { k with st := .halted, prior := k.st } else k) ∧
    (haltSet c s).bit F.ROD_CTRL_HALT c = true ∧
    (k.st = .halted → k.held = false → k.prior ≠ .idle → (haltClear c s).core c = { k with st := k.prior }) ∧
    (k.st ≠ .halted → (haltClear c s).core c = k)

-- What waits, Brews and their events ----------------------------------------------------------------------------------------------------------

/-- Grants and expiries: of buffers, of log room, of stores to acknowledge, of log entries, of releases to form, of a draining bank.

The ends of a REWIND, a commit, an unload and a recheck (R337, R382, R383, R322). -/
def Obligations.GrantsAndBrewEvents : Prop :=
  (∀ (s : State) (src : Fnid) (tag : BitVec 12) (e : LogEnt) (i : Nat) (n : BitVec 16) (m : Nat) (dst : Option Fnid) (b : Fin 2),
    exec .caddyWaitGrant s = .next (s.after caddyGrantEffect) ∧
    (s.net.inbox.find? s.awaitsLog = some i → s.logFull = false → exec .logRoomGrant s = .next (s.after (retry loggedRows i))) ∧
    (s.board.dones.any (fun d => d.src = src) = true → exec (.doneAckSend src) s = .next (s.after (sendDone src))) ∧
    (s.logOf src tag = some e → e.reply.isSome = true → exec (.replayLogExpiry src tag) s =
      .next (s.after (fun t => { t with board := { t.board with log := t.board.log.map (fun x => if x = e then { x with reply := none } else x) } }))) ∧
    (s.board.pendRel.find? (fun x => x.1 = n.toNat) = some (m, dst) → s.net.relCells.lk 0 (n.toNat / 16384) < 64 →
      s.creditFor (s.form (relHdr n.toNat dst s)) = true →
      exec (.releaseForm n) s = .next (s.after (releaseFormEffect n dst))) ∧
    (s.fld F.ROUTE_BANK_STATE b = 3 → exec (.routeBankDrainEnd b) s =
      .next (s.after (fun t => (t.setFld F.ROUTE_BANK_STATE b 0).setFld F.ROUTE_BANK_DRAINLEFT b 0)))) ∧
  (∀ (s : State) (k : SlotId) (b : Brew) (r : CommitRun) (u : UnloadRun),
    (s.brews.lk none k.val = some b → s.bit F.SCHED_REWIND_BUSY k = true → s.freeCores b = b.cores → s.partsFree b = true →
      exec (.rewindDone k) s = .next (s.after (rewindDoneEffect k b))) ∧
    (s.board.commit = some r →
      let bs := s.hbmFetch r.off (bitsOf (leAt (s.hbmFetch r.off 256) 16 8) 32 32)
      let x := recBrew r.off r.fnid bs
      let p (t : State) := t.pwd x (recSeeds bs x.nseed)
      (r.ports = [] → s.recSound r.off = false → exec .commitComplete s = .next (s.after (commitEnd r 1))) ∧
      (r.ports = [] → s.recSound r.off = true → s.recInRange x = false → exec .commitComplete s = .next (s.after (commitEnd r 2))) ∧
      (r.ports = [] → s.recSound r.off = true → s.recInRange x = true → s.brewList.any (fun y => y.2.clashes x) = true →
        exec .commitComplete s = .next (s.after (commitEnd r 3))) ∧
      (r.ports = [] → s.recSound r.off = true → s.recInRange x = true → s.brewList.any (fun y => y.2.clashes x) = false → s.kaPorts x = [] →
        exec .commitComplete s = .next (s.after (fun t => commitAdmit { r with rcd := bs, pwd := (p t).2 ++ (p t).1 } x none t))) ∧
      (r.ports ≠ [] → s.kaPorts (recBrew r.off r.fnid r.rcd) = [] → (∀ j ∈ r.ports, s.lstate j = 5) →
        exec .commitComplete s = .next (s.after (commitAdmit r (recBrew r.off r.fnid r.rcd) none)))) ∧
    (s.board.unload = some u → s.brews.lk none u.slot = some b → u.begun = true → s.freeCores b = b.cores →
      exec .unloadDone s = .next (s.after (unloadDoneEffect u b))) ∧
    (s.brews.lk none s.board.recheck = some b → s.bit F.AUDIT_RECHK_BUSY 0 = true →
      exec .auditRecheckDone s = .next (s.after (auditRecheckDoneEffect s.board.recheck b))))

-- Links, power, boot --------------------------------------------------------------------------------------------------------------------------

/-- The life of a link (R323 to R328, R388, R408): beats and intervals, training, probation, code words, and the link between two dies.

Keepalive (R390) and the end of a port's RETURN (R339). -/
def Obligations.LinkEvents : Prop :=
  (∀ (s : State) (p : PortId) (syms : List (LaneId × Nat)) (during : Option RxFrame) (a b : Fin 4),
    (s.linked p = true → exec (.beatSend p) s = .next (s.after (beatSendEffect p))) ∧
    (s.linked p = true → exec (.heartbeatInterval p) s = .next (s.after (heartbeatIntervalEffect p))) ∧
    (s.trains p = true → exec (.trainingSuccess p) s = .next (s.after (trainingSuccessEffect p))) ∧
    (s.trains p = true → exec (.trainingTimeout p) s =
      .next (s.after (fun t => (t.bump F.PORT_KA_TRAINFAIL p).modPort p (fun x => { x with rest := true })))) ∧
    ((s.port p).present = true → s.lstate p = 2 → (s.port p).rest = true →
      exec (.trainingRestart p) s = .next (s.after (fun t => (setLink p 2 t).modPort p (fun x => { x with rest := false })))) ∧
    ((s.port p).present = true → s.lstate p = 3 → (s.port p).probBad ≠ s.now + 1 → exec (.probationPass p) s = .next (s.after (passProbation p))) ∧
    (s.linked p = true → (∀ x ∈ syms, s.laneLive p x.1 = true) → exec (.correctedCodeword p syms) s =
      .next (s.after (fun t => eachDo syms (fun x t => t.bumpN F.LANE_FEC_CSYM x.1 x.2) (t.bump F.LANE_FECCW_CCW p)))) ∧
    (s.linked p = true → exec (.uncorrectableCodeword p during) s = .next (s.after (uncorrectableCodewordEffect p during))) ∧
    (a ≠ b → s.kettle.phase = .up → exec (.d2dLinkFail a b) s = .next (s.after failStop))) ∧
  (∀ (s : State) (p : PortId) (n : Nat),
    (s.kaReady p = true → (s.port p).ka = .none → (s.port p).lastData + ms (s.fld F.PORT_KA_IDLEMS p) ≤ s.now →
      exec (.kaIdleTimeout p) s = .next (s.after (fun t => mgmtFrame p 0x01 [] (t.modPort p (fun x => { x with ka := .asked }))))) ∧
    ((s.port p).ka = .entering → exec (.keepaliveEntered p) s = .next (s.after (fun t =>
      (setLink p 6 (t.modPort p (fun x => { x with ka := .none, eqNow := [] }))).bump F.PORT_KA_ENTRIES p))) ∧
    ((s.port p).ka = .entering → exec (.keepaliveEntryTimeout p) s = .next (s.after (linkDown p))) ∧
    ((s.port p).ka = .leaving → exec (.keepaliveExitDone p) s = .next (s.after (keepaliveExitDoneEffect p))) ∧
    ((s.port p).ka = .leaving → exec (.keepaliveExitTimeout p) s = .next (s.after (linkDown p))) ∧
    (s.portList.find? (fun p => (s.port p).returning) = some n → exec .unitReturnTimeout s = .next (s.after (fun t =>
      unitEnd (some false) (t.modPort n (fun x => { x with returning := false }))))))

/-- Brown-out, resets and the thermal trip (R342, R373, R398 to R400, R414). -/
def Obligations.HoldAndResets : Prop :=
  ∀ (s : State) (mv : Nat) (die : Fin 24) (t : BitVec 16),
    (s.railsOn = true → s.bit F.GLOBAL_HOLD_INHOLD 0 = false → mv < 700 → exec (.holdEnter mv) s = .next (s.after (holdEnterEffect mv))) ∧
    (s.bit F.GLOBAL_HOLD_INHOLD 0 = true → exec (.holdExit mv) s = .next (s.after (fun u => expKick (holdEnd mv false u)))) ∧
    (s.kettleOn = true → s.kettle.pwrok = true → mv < 630 → exec (.brownoutReset mv) s = .next (s.afterAll (brownoutResetEffect mv))) ∧
    (s.kettle.phase = .brownout →
      exec .brownoutResetEnd s = .next (s.after (fun u => { u with kettle := { u.kettle with phase := .inReset } }))) ∧
    (s.kettleOn = true → s.kettle.pwrok = true → exec .railUndervoltage s = .next (s.afterAll railReset)) ∧
    (let r := railReset s
     let d := deviceReset 2 .brownout s
     r = { d with kettle := { d.kettle with jtagIr := tapRunning d.kettle.jtagIr } }) ∧
    (s.kettle.phase = .off → exec .powerOn s = .next (s.afterAll powerOnEffect)) ∧
    (s.kettle.phase ≠ .off → exec .kettlePowerLoss s = .next (s.afterAll (fun u => u.cold .off 0))) ∧
    (s.kettle.phase ≠ .off → s.kettle.pwrok = true → exec .sysPwrokFall s = .next (s.afterAll sysPwrokFallEffect)) ∧
    (s.kettle.phase ≠ .off → exec .sysRstNAssert s = .next (s.afterAll sysRstNAssertEffect)) ∧
    (s.kettle.phase ≠ .off → s.kettle.trip = false → tripTemp die ≤ t.toInt → exec (.thermalTrip die t) s = .next (s.after thermalTripEffect)) ∧
    (s.kettle.phase = .hot → (∀ d : Nat, d < 24 → s.dieTemp d < 760) →
      exec .thermtripRelease s = .next (s.after (fun u => { u with kettle := { u.kettle with trip := false, phase := .booting } })))

/-- R10: after a device reset the dies hold nothing, every register but KETTLE_BOOT and KETTLE_OOB_STAT is at its reset value, CAUSE tells the cause, and the flash
and the boot nonce are as they were. PREF and PREFV, bits 62 and 63 of KETTLE_BOOT, are kept (Table 14.24); its other fields, and AUTHFAIL and REJECT of
KETTLE_OOB_STAT, return to 0. -/
def Obligations.DeviceReset : Prop :=
  ∀ (s : State) (cause : Nat) (p : Phase), cause < 8 →
    let t := deviceReset cause p s
    t.cores = [] ∧ t.hbm = [] ∧ t.brews = [] ∧ t.net = {} ∧ t.coll = {} ∧ t.exp = {} ∧ t.board = {} ∧ t.kettle.phase = p ∧
      t.kettle.flash = s.kettle.flash ∧ t.kettle.bnonce = s.kettle.bnonce ∧ t.fld F.KETTLE_BOOT_CAUSE 0 = cause ∧
      t.fld F.KETTLE_BOOT_PREF 0 = s.fld F.KETTLE_BOOT_PREF 0 ∧ t.fld F.KETTLE_BOOT_PREFV 0 = s.fld F.KETTLE_BOOT_PREFV 0 ∧
      (∀ j : Nat, 8 ≤ j → j < 62 → (t.reg .KETTLE_BOOT 0).getLsbD j = false) ∧
      t.fld F.KETTLE_OOB_STAT_ACCEPTED 0 = s.fld F.KETTLE_OOB_STAT_ACCEPTED 0 ∧
      t.fld F.KETTLE_OOB_STAT_AUTHFAIL 0 = 0 ∧ t.fld F.KETTLE_OOB_STAT_REJECT 0 = 0 ∧
      ∀ (r : Reg) (i : Nat), r.off i ≠ Reg.off .KETTLE_BOOT 0 → r.off i ≠ Reg.off .KETTLE_OOB_STAT 0 → t.reg r i = r.rst i

/-- The boot and the power states (R370 to R375, R391, R393).

PACE stays from 1 to 64 and moves by one, but for a throttle (R393). -/
def Obligations.BootAndPower : Prop :=
  (∀ (s : State) (x : Straps) (a b c : ImageContent) (trained : List StackTrain) (pllOk : Bool) (watts : Nat),
    (s.kettle.phase = .inReset → exec (.bootStart x) s = .next (s.afterAll (bootStartEffect x))) ∧
    (s.kettle.phase = .booting → exec (.imageVerifyDone a b) s = .next (s.afterAll (imageVerifyDoneEffect a b))) ∧
    (s.kettle.phase = .verified → s.kettle.chosen = some c →
      exec (.bootReady trained pllOk) s = .next (s.afterAll (bootReadyEffect trained pllOk c))) ∧
    (s.kettle.phase = .up → s.kettle.move = .toIdle → exec .idleEntryDone s = .next (s.after idleEntryDoneEffect)) ∧
    (s.kettle.phase = .up → s.idle = true → s.kettle.move = .fromIdle → exec .idleExitDone s = .next (s.after idleExitDoneEffect)) ∧
    (s.kettle.phase ≠ .off → exec (.paceStep watts) s = .next (s.after (paceStepEffect watts)))) ∧
  (∀ (pace avg cap : Nat) (hot held : Bool), 1 ≤ pace → pace ≤ 64 →
    let n := nextPace pace avg cap hot held
    1 ≤ n ∧ n ≤ 64 ∧ (hot = false → n ≤ pace + 1 ∧ pace ≤ n + 1) ∧ (hot = false → cap ≠ 0 → cap < avg → 1 < pace → n + 1 = pace) ∧
      (hot = false → held = false → cap ≠ 0 → 100 * avg < 98 * cap → pace < 64 → n = pace + 1) ∧ (hot = true → 2 ≤ pace → n = pace / 2))

-- Health, records, out of band ----------------------------------------------------------------------------------------------------------------

/-- Samples of the monitors (R350), island sleep and wake (R385 to R387), the end of a stack's scrub (R339).

Shadow checks (R353, R354), which recompute what they check unless an upset is given, quizzes (R356 to R358), uncorrectable errors (R99, R129, R169, R279):
in a core, in a contribution that an instance holds, in an activation or output that a layer step holds, or in HBM. What a recomputation and an upset are (log entry
123), and the two forms of the row for errors that ECC corrected (R350, log entry 108), are the model's choices. -/
def Obligations.MonitorsAndChecks : Prop :=
  (∀ (s : State) (die : Fin 24) (t : BitVec 16) (n : IslandId) (l : LaneId) (h : BitVec 11) (w : BitVec 10) (i : Fin 4096) (x : StackTrain) (ue cold : Bool),
    (s.kettleOn = true → exec (.tempSample die t) s = .next (s.after (tempSampleEffect die t))) ∧
    (s.awake n = true → exec (.slackSample n t) s = .next (s.after (slackSampleEffect n t))) ∧
    (s.awake n = true → exec (.driftSample n t) s = .next (s.after (fun u => u.setFld F.ROD_MARGIN_DRIFT n t.toNat))) ∧
    (s.laneTrained l = true → exec (.eyeSample l h w) s = .next (s.after (eyeSampleEffect l h w))) ∧
    (s.awake n = true → s.heldAwake n = false → (∀ j : Nat, j < 4 → s.coreIdle (4 * n + j) = true) →
      exec (.islandSleep n) s = .next (s.after (islandSleepEffect n))) ∧
    (s.waking.find? (fun y => y.1 = n.val) = some (n.val, cold) → exec (.islandWake n) s = .next (s.after (islandWakeEffect n cold))) ∧
    (s.prewakeIsDue i = true → exec (.prewakeDue i) s = .next (s.after (prewakeDueEffect i))) ∧
    (s.bit F.GLOBAL_UNITCMD_BUSY 0 = true → s.fld F.GLOBAL_UNITCMD_KIND 0 = 2 → s.fld F.GLOBAL_UNITCMD_INDEX 0 = x.stack.val →
      exec (.stackScrubDone x ue) s = .next (s.after (stackScrubDoneEffect x ue)))) ∧
  (∀ (s : State) (i : Nat) (upset : Option (List Byte)) (o : List Byte) (x : ShadowChk) (a : Nat) (c : CoreId) (e g : BitVec 32) (p : PortId) (k : StackId) (r : StackQuizResult),
    (s.shadow.checks[i]? = some x → x.chkOut = none → exec (.shadowCheckDone i upset) s =
      .next (s.after (shadowCheckDoneEffect i (upset.getD x.ins.result) x))) ∧
    (s.shadow.checks[i]? = some x → x.chkOut = some o → x.arbiter = some a →
      exec (.shadowArbiterDone i upset) s = .next (s.after (shadowArbiterDoneEffect i (upset.getD x.ins.result) x o a))) ∧
    (i < s.shadow.checks.length → exec (.shadowCheckAbandon i) s = .next (s.after (shadowCheckAbandonEffect i))) ∧
    (s.unitsOn = true → (s.core c).quizzable = true → s.fld F.KETTLE_QUIZ_CFG_COREINT 0 ≠ 0 → s.bit F.GLOBAL_HOLD_INHOLD 0 = false →
      (s.bit F.ROD_ISLAND_ASLEEP (c / 4) = false ∨ s.islandNamed (c / 4) = false) →
      exec (.coreQuizDue c) s = .next (s.after (coreQuizDueEffect c))) ∧
    ((s.core c).st = .quiz → exec (.coreQuizEnd c e g) s = .next (s.after (coreQuizEndEffect c e g))) ∧
    ((s.port p).present = true → (s.port p).quiz = none → s.lstate p = 3 → exec (.laneQuizDue p) s = .next (s.after (laneQuizDueEffect p))) ∧
    ((s.port p).quiz.isSome = true → exec (.laneQuizNoecho p) s = .next (s.after (laneQuizNoechoEffect p))) ∧
    (s.unitsOn = true → s.hbmOut.contains k.val = false → s.kettle.stackQuiz.contains k.val = false → s.fld F.KETTLE_QUIZ_CFG_STACKINT 0 ≠ 0 →
      exec (.stackQuizDue k) s = .next (s.after (stackQuizDueEffect k))) ∧
    (s.kettle.stackQuiz.contains k.val = true → exec (.stackQuizEnd k r) s = .next (s.after (stackQuizEndEffect k r))) ∧
    (∀ (m : BitVec 19) (j : BitVec 16) (b : BitVec 13) (h : BitVec 48) (d : Fin 4) (w : BitVec 12),
      exec (.uncorrectableEcc (.sramCorrected d w)) s = .next (s.after (sramCorrected d w.toNat)) ∧
      exec (.uncorrectableEcc (.hbmCorrected k j)) s = .next (s.after (countCe k [(j, 1)])) ∧
      exec (.uncorrectableEcc (.rodMem c m)) s = .next (s.after (rodMemEcc c m)) ∧
      exec (.uncorrectableEcc (.instrMem c j)) s = .next (s.after (instrMemEcc c j)) ∧
      exec (.uncorrectableEcc (.beadFile c b)) s = .next (s.after (beadFileEcc c b)) ∧
      (h.toNat < hbmSize → exec (.uncorrectableEcc (.hbm h)) s = .next (s.after (hbmEcc h.toNat)))) ∧
    (∀ (n o : BitVec 32) (step : Word) (m blk : Nat) (y : Inst) (l : Layer) (owner : Fnid),
      (s.instNo n.toNat step = some y → y.holds m blk = true →
        exec (.uncorrectableEcc (.contribution n step m blk)) s =
          .next (s.after (fun t => collEcc n.toNat step (some m) blk (caddyEcc (t.desc y.samp y.desc).cpart t)))) ∧
      (s.layerNo n.toNat step = some l →
        let held : State → State := fun t => expEcc n.toNat step owner o.toNat (caddyEcc (t.xdesc l.desc).cpart t)
        exec (.uncorrectableEcc (.activation n step owner o)) s = .next (s.after held) ∧
        exec (.uncorrectableEcc (.output n step owner o)) s = .next (s.after held))))

/-- The book and the stream (R361 to R364): a record reaches flash within the budget, the budget refills, the hour, a period, the end of a replay. -/
def Obligations.BookAndStream : Prop :=
  ∀ (s : State) (ok : Bool) (n room : Nat) (r : Rec) (rest : List (Nat × Rec)),
    (s.kettleOn = true → s.kettle.restored = true → (dropOld (flushCoal s)).book.queue = [] →
      exec (.tallyBookWrite ok) s = .next (s.after (fun t => dropOld (flushCoal t)))) ∧
    (s.kettleOn = true → s.kettle.restored = true → (dropOld (flushCoal s)).book.queue = (n, r) :: rest → 0 < (dropOld (flushCoal s)).book.budget →
      exec (.tallyBookWrite ok) s = .next (s.after (bookWriteEffect ok r rest))) ∧
    (s.kettleOn = true → exec .bookBudgetRefill s =
      .next (s.after (fun t => flushCoal { t with book := { t.book with budget := min 4096 (t.book.budget + 20) } }))) ∧
    (s.kettleOn = true → exec .hourlyRecords s = .next (s.after hourlyRecordsEffect)) ∧
    (s.kettleOn = true → exec (.telemetryPeriod room) s = .next (s.after (telemetryPeriodEffect room))) ∧
    (s.bit F.TALLY_TELE_CFG_REPLAY 0 = true → exec .journalReplayEnd s = .next (s.after (fun t => t.setFld F.TALLY_TELE_CFG_REPLAY 0 0)))

/-- PLDM (R365): each command of types 0 and 2 that the device supports is answered with success, any other with ERROR_UNSUPPORTED_PLDM_CMD; the layouts are the
model's (log entries 49 and 86). A request is taken where it comes to the device's SMBus address with the right packet error code. -/
def Obligations.PldmCommands : Prop :=
  ∀ (s : State) (r : PldmReq) (x : SensorSample), s.smbusTakes r = true →
    exec (.pldmSensorRefresh x) s = .next (s.after (pldmSensorRefreshEffect x)) ∧
    (r.ptype = 0 → r.code = 0x02 → r.data = [] → exec (.getTid r) s = .next (s.after (pldmAnswer r 0 [Config.pldmTid]))) ∧
    (r.ptype = 0 → r.code = 0x04 → r.data = [] → exec (.getPldmTypes r) s = .next (s.after (pldmAnswer r 0 (bytesLE 8 5)))) ∧
    (r.ptype = 0 → r.code = 0x05 → r.data.length = 5 → (leAt r.data 0 1 = 0 ∨ leAt r.data 0 1 = 2) →
      exec (.getPldmCommands r) s = .next (s.after (pldmAnswer r 0 (pldmCommands (leAt r.data 0 1))))) ∧
    (r.ptype = 0 → r.code = 0x03 → r.data.length = 6 → (leAt r.data 5 1 = 0 ∨ leAt r.data 5 1 = 2) →
      ∃ bs, exec (.getPldmVersion r) s = .next (s.after (pldmAnswer r 0 bs))) ∧
    (r.ptype = 2 → r.code = 0x11 → r.data.length = 3 → isNumeric (leAt r.data 0 2) = true →
      ∃ bs, exec (.getSensorReading r) s = .next (s.after (fun t => readDone ((pldmAnswer r 0 (bs ++ int4 (s.reading (leAt r.data 0 2))) t).freed)))) ∧
    (r.ptype = 2 → r.code = 0x21 → r.data.length = 4 → leAt r.data 0 2 = 11 →
      ∃ bs, exec (.getStateSensorReadings r) s = .next (s.after (fun t => (pldmAnswer r 0 ([1, 0, BitVec.ofInt 8 (s.reading 11)] ++ bs) t).freed))) ∧
    (r.ptype = 2 → r.code = 0x50 → r.data = [] →
      ∃ bs, exec (.getPdrRepositoryInfo r) s = .next (s.after (fun t => { pldmAnswer r 0 ([0] ++ bs) t with free := t.free + 27 }))) ∧
    (r.ptype = 2 → r.code = 0x51 → r.data.length = 13 → leAt r.data 0 4 ≤ 14 → leAt r.data 8 1 = 1 →
      ∃ bs, exec (.getPdr r) s = .next (s.after (pldmAnswer r 0 bs))) ∧
    (¬ (r.ptype = 0 ∧ (r.code = 0x02 ∨ r.code = 0x03 ∨ r.code = 0x04 ∨ r.code = 0x05)) →
      ¬ (r.ptype = 2 ∧ (r.code = 0x11 ∨ r.code = 0x21 ∨ r.code = 0x50 ∨ r.code = 0x51)) →
      exec (.pldmUnsupportedCommand r) s = .next (s.after (pldmAnswer r 0x05 [])))

/-- The control messages of the management port (Table 14.9): HELLO is answered; an authentic message of each other MOP does its work, uses its SEQ and is answered
OK; one with a reserved MOP is answered REJECT; and an image message that finds the flash in use is answered BUSY and changes nothing. That
a BUSY message leaves its SEQ unused and uncounted is PRESUMED (log entry 100); that a reserved MOP is authenticated first and uses its SEQ is the model's choice
(log entry 101). -/
def Obligations.ControlMessages : Prop :=
  ∀ (s : State) (m : CtlMsg), s.kettleOn = true → m.formed = true →
    (m.mop = 0 → exec (.hello m) s = .next (s.after (fun t =>
      oobAnswer m 0 (wordsToBytes [s.kettle.bnonce, ctlRead s .KETTLE_ID 0, ctlRead s .KETTLE_DIEID 0]) t))) ∧
    (s.authentic m = true →
      (m.mop = 1 → m.arg % 8 = 0 → exec (.oobRead m) s = .next (s.after (fun t => oobAnswer m 0 (wordsToBytes [s.oobReadAt m.arg]) (t.seqUsed m)))) ∧
      (m.mop = 2 → (s.opData m).length = 8 → (oobWriteFull m.arg (BitVec.ofNat 64 (natLE (s.opData m))) (s.hushed.seqUsed m)).1 = true →
        exec (.oobWrite m) s = .next (s.after (fun t =>
          oobAnswer m 0 [] (oobWriteFull m.arg (BitVec.ofNat 64 (natLE (s.opData m))) (t.seqUsed m)).2))) ∧
      (m.mop = 3 → s.kettle.phase ≠ .brownout → s.kettle.pwrok = true →
        exec (.oobReset m) s = .next (s.after (fun t => deviceReset 3 .inReset (oobAnswer m 0 [] (t.seqUsed m))))) ∧
      (m.mop = 4 → m.busy = false → s.slotOpen m.arg 1 = true → exec (.imgerase m) s = .next (s.after (fun t =>
        oobAnswer m 0 [] { t.seqUsed m with kettle := { (t.seqUsed m).kettle with flash := flashErase m.arg t.kettle.flash } }))) ∧
      (m.mop = 5 → m.busy = false → s.slotOpen m.arg (s.opData m).length = true → m.arg % 256 + (s.opData m).length ≤ 256 →
        exec (.imgwrite m) s = .next (s.after (fun t =>
          oobAnswer m 0 [] { t.seqUsed m with kettle := { (t.seqUsed m).kettle with flash := flashProg m.arg (s.opData m) t.kettle.flash } }))) ∧
      (m.mop = 4 → m.busy = true → exec (.imgerase m) s = .next (s.after (oobReply m 4 []))) ∧
      (m.mop = 5 → m.busy = true → exec (.imgwrite m) s = .next (s.after (oobReply m 4 []))) ∧
      (m.mop = 6 → exec (.bookread m) s = .next (s.after (fun t => oobAnswer m 0 (s.bookFrom m.arg) (t.seqUsed m)))) ∧
      (7 ≤ m.mop → exec (.reservedMop m) s = .next (s.after (fun t => oobAnswer m 2 [] (t.seqUsed m)))))

/-- Neighbour discovery, echo (R377) and the test access port (R412). The layouts of the ICMPv6 answers (log entry 102), the bit of BYPASS that comes first, and
that the EXTEST family takes effect where SYS_RST_N is low and no rail is known to be out of its range, behaving as BYPASS elsewhere (log entry 103), are PRESUMED. -/
def Obligations.PortsOfService : Prop :=
  ∀ (s : State) (src target : BitVec 128) (body : List Byte) (bits : List Bool), s.kettle.phase ≠ .off →
    (s.myAddr target = true → target ≠ allNodes → exec (.icmpv6EchoRequest ⟨src, target⟩ body) s = .next (s.after (sends (icmpMsg target src 129 body)))) ∧
    exec (.icmpv6EchoRequest ⟨src, allNodes⟩ body) s = .next (s.after (sends (icmpMsg s.ownAddr src 129 body))) ∧
    (s.myAddr target = true → src ≠ 0 → ∃ bs, exec (.neighbourSolicitation src target) s = .next (s.after (sends (icmpMsg target src 136 (0x60 :: bs))))) ∧
    exec (.jtagBypass bits) s = .next (s.after (fun t => sends (.jtag ((false :: bits).take bits.length)) (setTap .bypass t))) ∧
    exec .jtagIdcode s = .next (s.after (fun t =>
      sends (.jtag ((List.range 32).map (fun i => (0x12610AB7 : BitVec 32).getLsbD i))) (setTap .idcode t))) ∧
    (∃ b2 : List Bool, exec (.jtagSamplePreload bits) s = .next (s.after (fun t =>
      sends (.jtag b2) { t with free := t.free + bits.length, kettle := { t.kettle with jtagIr := .samplePreload, preload := bits } }))) ∧
    (∀ (i : Instr) (j : JtagIr), (i = .jtagExtest ∧ j = .extest ∨ i = .jtagExtestPulse ∧ j = .extestPulse ∨ i = .jtagExtestTrain ∧ j = .extestTrain) →
      exec i s = .next (s.after (fun t => setTap (if t.kettle.rstn = false ∧ t.kettle.phase ≠ .brownout then j else .bypass) t)))
end

