-- ==== Sys2Proof/Laws/State.lean ====
section
/-!
SUPPORT. Updates of the state, field by field: each leaves every field but its own as it was.
-/
namespace Sys2Proof.Machine

open Sys2Proof

-- setReg

@[simp] theorem State.setReg_pending (s : State) (r : Reg) (i : Nat) (w : Word) : (s.setReg r i w).pending = s.pending := rfl
@[simp] theorem State.setReg_clock (s : State) (r : Reg) (i : Nat) (w : Word) : (s.setReg r i w).clock = s.clock := rfl
@[simp] theorem State.setReg_fuses (s : State) (r : Reg) (i : Nat) (w : Word) : (s.setReg r i w).fuses = s.fuses := rfl
@[simp] theorem State.setReg_free (s : State) (r : Reg) (i : Nat) (w : Word) : (s.setReg r i w).free = s.free := rfl
@[simp] theorem State.setReg_cores (s : State) (r : Reg) (i : Nat) (w : Word) : (s.setReg r i w).cores = s.cores := rfl
@[simp] theorem State.setReg_brews (s : State) (r : Reg) (i : Nat) (w : Word) : (s.setReg r i w).brews = s.brews := rfl
@[simp] theorem State.setReg_hbm (s : State) (r : Reg) (i : Nat) (w : Word) : (s.setReg r i w).hbm = s.hbm := rfl
@[simp] theorem State.setReg_hbmOut (s : State) (r : Reg) (i : Nat) (w : Word) : (s.setReg r i w).hbmOut = s.hbmOut := rfl
@[simp] theorem State.setReg_book (s : State) (r : Reg) (i : Nat) (w : Word) : (s.setReg r i w).book = s.book := rfl
@[simp] theorem State.setReg_tele (s : State) (r : Reg) (i : Nat) (w : Word) : (s.setReg r i w).tele = s.tele := rfl
@[simp] theorem State.setReg_shadow (s : State) (r : Reg) (i : Nat) (w : Word) : (s.setReg r i w).shadow = s.shadow := rfl
@[simp] theorem State.setReg_net (s : State) (r : Reg) (i : Nat) (w : Word) : (s.setReg r i w).net = s.net := rfl
@[simp] theorem State.setReg_coll (s : State) (r : Reg) (i : Nat) (w : Word) : (s.setReg r i w).coll = s.coll := rfl
@[simp] theorem State.setReg_exp (s : State) (r : Reg) (i : Nat) (w : Word) : (s.setReg r i w).exp = s.exp := rfl
@[simp] theorem State.setReg_board (s : State) (r : Reg) (i : Nat) (w : Word) : (s.setReg r i w).board = s.board := rfl
@[simp] theorem State.setReg_brewAuth (s : State) (r : Reg) (i : Nat) (w : Word) : (s.setReg r i w).brewAuth = s.brewAuth := rfl
@[simp] theorem State.setReg_hbmUe (s : State) (r : Reg) (i : Nat) (w : Word) : (s.setReg r i w).hbmUe = s.hbmUe := rfl
@[simp] theorem State.setReg_hold (s : State) (r : Reg) (i : Nat) (w : Word) : (s.setReg r i w).hold = s.hold := rfl
@[simp] theorem State.setReg_kettle (s : State) (r : Reg) (i : Nat) (w : Word) : (s.setReg r i w).kettle = s.kettle := rfl
@[simp] theorem State.setReg_waking (s : State) (r : Reg) (i : Nat) (w : Word) : (s.setReg r i w).waking = s.waking := rfl
@[simp] theorem State.setReg_out (s : State) (r : Reg) (i : Nat) (w : Word) : (s.setReg r i w).out = s.out := rfl
@[simp] theorem State.setReg_core (s : State) (r : Reg) (i : Nat) (w : Word) (d : Nat) : (s.setReg r i w).core d = s.core d := rfl

-- setFld

@[simp] theorem State.setFld_pending (s : State) (f : Fld) (i v : Nat) : (s.setFld f i v).pending = s.pending := rfl
@[simp] theorem State.setFld_clock (s : State) (f : Fld) (i v : Nat) : (s.setFld f i v).clock = s.clock := rfl
@[simp] theorem State.setFld_fuses (s : State) (f : Fld) (i v : Nat) : (s.setFld f i v).fuses = s.fuses := rfl
@[simp] theorem State.setFld_free (s : State) (f : Fld) (i v : Nat) : (s.setFld f i v).free = s.free := rfl
@[simp] theorem State.setFld_cores (s : State) (f : Fld) (i v : Nat) : (s.setFld f i v).cores = s.cores := rfl
@[simp] theorem State.setFld_brews (s : State) (f : Fld) (i v : Nat) : (s.setFld f i v).brews = s.brews := rfl
@[simp] theorem State.setFld_hbm (s : State) (f : Fld) (i v : Nat) : (s.setFld f i v).hbm = s.hbm := rfl
@[simp] theorem State.setFld_hbmOut (s : State) (f : Fld) (i v : Nat) : (s.setFld f i v).hbmOut = s.hbmOut := rfl
@[simp] theorem State.setFld_book (s : State) (f : Fld) (i v : Nat) : (s.setFld f i v).book = s.book := rfl
@[simp] theorem State.setFld_tele (s : State) (f : Fld) (i v : Nat) : (s.setFld f i v).tele = s.tele := rfl
@[simp] theorem State.setFld_shadow (s : State) (f : Fld) (i v : Nat) : (s.setFld f i v).shadow = s.shadow := rfl
@[simp] theorem State.setFld_net (s : State) (f : Fld) (i v : Nat) : (s.setFld f i v).net = s.net := rfl
@[simp] theorem State.setFld_coll (s : State) (f : Fld) (i v : Nat) : (s.setFld f i v).coll = s.coll := rfl
@[simp] theorem State.setFld_exp (s : State) (f : Fld) (i v : Nat) : (s.setFld f i v).exp = s.exp := rfl
@[simp] theorem State.setFld_board (s : State) (f : Fld) (i v : Nat) : (s.setFld f i v).board = s.board := rfl
@[simp] theorem State.setFld_brewAuth (s : State) (f : Fld) (i v : Nat) : (s.setFld f i v).brewAuth = s.brewAuth := rfl
@[simp] theorem State.setFld_hbmUe (s : State) (f : Fld) (i v : Nat) : (s.setFld f i v).hbmUe = s.hbmUe := rfl
@[simp] theorem State.setFld_hold (s : State) (f : Fld) (i v : Nat) : (s.setFld f i v).hold = s.hold := rfl
@[simp] theorem State.setFld_kettle (s : State) (f : Fld) (i v : Nat) : (s.setFld f i v).kettle = s.kettle := rfl
@[simp] theorem State.setFld_waking (s : State) (f : Fld) (i v : Nat) : (s.setFld f i v).waking = s.waking := rfl
@[simp] theorem State.setFld_out (s : State) (f : Fld) (i v : Nat) : (s.setFld f i v).out = s.out := rfl
@[simp] theorem State.setFld_core (s : State) (f : Fld) (i v : Nat) (d : Nat) : (s.setFld f i v).core d = s.core d := rfl

-- bumpN

@[simp] theorem State.bumpN_pending (s : State) (f : Fld) (i n : Nat) : (s.bumpN f i n).pending = s.pending := rfl
@[simp] theorem State.bumpN_clock (s : State) (f : Fld) (i n : Nat) : (s.bumpN f i n).clock = s.clock := rfl
@[simp] theorem State.bumpN_fuses (s : State) (f : Fld) (i n : Nat) : (s.bumpN f i n).fuses = s.fuses := rfl
@[simp] theorem State.bumpN_free (s : State) (f : Fld) (i n : Nat) : (s.bumpN f i n).free = s.free := rfl
@[simp] theorem State.bumpN_cores (s : State) (f : Fld) (i n : Nat) : (s.bumpN f i n).cores = s.cores := rfl
@[simp] theorem State.bumpN_brews (s : State) (f : Fld) (i n : Nat) : (s.bumpN f i n).brews = s.brews := rfl
@[simp] theorem State.bumpN_hbm (s : State) (f : Fld) (i n : Nat) : (s.bumpN f i n).hbm = s.hbm := rfl
@[simp] theorem State.bumpN_hbmOut (s : State) (f : Fld) (i n : Nat) : (s.bumpN f i n).hbmOut = s.hbmOut := rfl
@[simp] theorem State.bumpN_book (s : State) (f : Fld) (i n : Nat) : (s.bumpN f i n).book = s.book := rfl
@[simp] theorem State.bumpN_tele (s : State) (f : Fld) (i n : Nat) : (s.bumpN f i n).tele = s.tele := rfl
@[simp] theorem State.bumpN_shadow (s : State) (f : Fld) (i n : Nat) : (s.bumpN f i n).shadow = s.shadow := rfl
@[simp] theorem State.bumpN_net (s : State) (f : Fld) (i n : Nat) : (s.bumpN f i n).net = s.net := rfl
@[simp] theorem State.bumpN_coll (s : State) (f : Fld) (i n : Nat) : (s.bumpN f i n).coll = s.coll := rfl
@[simp] theorem State.bumpN_exp (s : State) (f : Fld) (i n : Nat) : (s.bumpN f i n).exp = s.exp := rfl
@[simp] theorem State.bumpN_board (s : State) (f : Fld) (i n : Nat) : (s.bumpN f i n).board = s.board := rfl
@[simp] theorem State.bumpN_brewAuth (s : State) (f : Fld) (i n : Nat) : (s.bumpN f i n).brewAuth = s.brewAuth := rfl
@[simp] theorem State.bumpN_hbmUe (s : State) (f : Fld) (i n : Nat) : (s.bumpN f i n).hbmUe = s.hbmUe := rfl
@[simp] theorem State.bumpN_hold (s : State) (f : Fld) (i n : Nat) : (s.bumpN f i n).hold = s.hold := rfl
@[simp] theorem State.bumpN_kettle (s : State) (f : Fld) (i n : Nat) : (s.bumpN f i n).kettle = s.kettle := rfl
@[simp] theorem State.bumpN_waking (s : State) (f : Fld) (i n : Nat) : (s.bumpN f i n).waking = s.waking := rfl
@[simp] theorem State.bumpN_out (s : State) (f : Fld) (i n : Nat) : (s.bumpN f i n).out = s.out := rfl
@[simp] theorem State.bumpN_core (s : State) (f : Fld) (i n : Nat) (d : Nat) : (s.bumpN f i n).core d = s.core d := rfl

-- bump

@[simp] theorem State.bump_pending (s : State) (f : Fld) (i : Nat) : (s.bump f i).pending = s.pending := rfl
@[simp] theorem State.bump_clock (s : State) (f : Fld) (i : Nat) : (s.bump f i).clock = s.clock := rfl
@[simp] theorem State.bump_fuses (s : State) (f : Fld) (i : Nat) : (s.bump f i).fuses = s.fuses := rfl
@[simp] theorem State.bump_free (s : State) (f : Fld) (i : Nat) : (s.bump f i).free = s.free := rfl
@[simp] theorem State.bump_cores (s : State) (f : Fld) (i : Nat) : (s.bump f i).cores = s.cores := rfl
@[simp] theorem State.bump_brews (s : State) (f : Fld) (i : Nat) : (s.bump f i).brews = s.brews := rfl
@[simp] theorem State.bump_hbm (s : State) (f : Fld) (i : Nat) : (s.bump f i).hbm = s.hbm := rfl
@[simp] theorem State.bump_hbmOut (s : State) (f : Fld) (i : Nat) : (s.bump f i).hbmOut = s.hbmOut := rfl
@[simp] theorem State.bump_book (s : State) (f : Fld) (i : Nat) : (s.bump f i).book = s.book := rfl
@[simp] theorem State.bump_tele (s : State) (f : Fld) (i : Nat) : (s.bump f i).tele = s.tele := rfl
@[simp] theorem State.bump_shadow (s : State) (f : Fld) (i : Nat) : (s.bump f i).shadow = s.shadow := rfl
@[simp] theorem State.bump_net (s : State) (f : Fld) (i : Nat) : (s.bump f i).net = s.net := rfl
@[simp] theorem State.bump_coll (s : State) (f : Fld) (i : Nat) : (s.bump f i).coll = s.coll := rfl
@[simp] theorem State.bump_exp (s : State) (f : Fld) (i : Nat) : (s.bump f i).exp = s.exp := rfl
@[simp] theorem State.bump_board (s : State) (f : Fld) (i : Nat) : (s.bump f i).board = s.board := rfl
@[simp] theorem State.bump_brewAuth (s : State) (f : Fld) (i : Nat) : (s.bump f i).brewAuth = s.brewAuth := rfl
@[simp] theorem State.bump_hbmUe (s : State) (f : Fld) (i : Nat) : (s.bump f i).hbmUe = s.hbmUe := rfl
@[simp] theorem State.bump_hold (s : State) (f : Fld) (i : Nat) : (s.bump f i).hold = s.hold := rfl
@[simp] theorem State.bump_kettle (s : State) (f : Fld) (i : Nat) : (s.bump f i).kettle = s.kettle := rfl
@[simp] theorem State.bump_waking (s : State) (f : Fld) (i : Nat) : (s.bump f i).waking = s.waking := rfl
@[simp] theorem State.bump_out (s : State) (f : Fld) (i : Nat) : (s.bump f i).out = s.out := rfl
@[simp] theorem State.bump_core (s : State) (f : Fld) (i : Nat) (d : Nat) : (s.bump f i).core d = s.core d := rfl

-- raise

@[simp] theorem State.raise_pending (s : State) (f : Fld) (i v : Nat) : (s.raise f i v).pending = s.pending := rfl
@[simp] theorem State.raise_clock (s : State) (f : Fld) (i v : Nat) : (s.raise f i v).clock = s.clock := rfl
@[simp] theorem State.raise_fuses (s : State) (f : Fld) (i v : Nat) : (s.raise f i v).fuses = s.fuses := rfl
@[simp] theorem State.raise_free (s : State) (f : Fld) (i v : Nat) : (s.raise f i v).free = s.free := rfl
@[simp] theorem State.raise_cores (s : State) (f : Fld) (i v : Nat) : (s.raise f i v).cores = s.cores := rfl
@[simp] theorem State.raise_brews (s : State) (f : Fld) (i v : Nat) : (s.raise f i v).brews = s.brews := rfl
@[simp] theorem State.raise_hbm (s : State) (f : Fld) (i v : Nat) : (s.raise f i v).hbm = s.hbm := rfl
@[simp] theorem State.raise_hbmOut (s : State) (f : Fld) (i v : Nat) : (s.raise f i v).hbmOut = s.hbmOut := rfl
@[simp] theorem State.raise_book (s : State) (f : Fld) (i v : Nat) : (s.raise f i v).book = s.book := rfl
@[simp] theorem State.raise_tele (s : State) (f : Fld) (i v : Nat) : (s.raise f i v).tele = s.tele := rfl
@[simp] theorem State.raise_shadow (s : State) (f : Fld) (i v : Nat) : (s.raise f i v).shadow = s.shadow := rfl
@[simp] theorem State.raise_net (s : State) (f : Fld) (i v : Nat) : (s.raise f i v).net = s.net := rfl
@[simp] theorem State.raise_coll (s : State) (f : Fld) (i v : Nat) : (s.raise f i v).coll = s.coll := rfl
@[simp] theorem State.raise_exp (s : State) (f : Fld) (i v : Nat) : (s.raise f i v).exp = s.exp := rfl
@[simp] theorem State.raise_board (s : State) (f : Fld) (i v : Nat) : (s.raise f i v).board = s.board := rfl
@[simp] theorem State.raise_brewAuth (s : State) (f : Fld) (i v : Nat) : (s.raise f i v).brewAuth = s.brewAuth := rfl
@[simp] theorem State.raise_hbmUe (s : State) (f : Fld) (i v : Nat) : (s.raise f i v).hbmUe = s.hbmUe := rfl
@[simp] theorem State.raise_hold (s : State) (f : Fld) (i v : Nat) : (s.raise f i v).hold = s.hold := rfl
@[simp] theorem State.raise_kettle (s : State) (f : Fld) (i v : Nat) : (s.raise f i v).kettle = s.kettle := rfl
@[simp] theorem State.raise_waking (s : State) (f : Fld) (i v : Nat) : (s.raise f i v).waking = s.waking := rfl
@[simp] theorem State.raise_out (s : State) (f : Fld) (i v : Nat) : (s.raise f i v).out = s.out := rfl
@[simp] theorem State.raise_core (s : State) (f : Fld) (i v : Nat) (d : Nat) : (s.raise f i v).core d = s.core d := rfl

-- setCore

@[simp] theorem State.setCore_pending (s : State) (c : Nat) (k : Core) : (s.setCore c k).pending = s.pending := rfl
@[simp] theorem State.setCore_clock (s : State) (c : Nat) (k : Core) : (s.setCore c k).clock = s.clock := rfl
@[simp] theorem State.setCore_fuses (s : State) (c : Nat) (k : Core) : (s.setCore c k).fuses = s.fuses := rfl
@[simp] theorem State.setCore_free (s : State) (c : Nat) (k : Core) : (s.setCore c k).free = s.free := rfl
@[simp] theorem State.setCore_regs (s : State) (c : Nat) (k : Core) : (s.setCore c k).regs = s.regs := rfl
@[simp] theorem State.setCore_brews (s : State) (c : Nat) (k : Core) : (s.setCore c k).brews = s.brews := rfl
@[simp] theorem State.setCore_hbm (s : State) (c : Nat) (k : Core) : (s.setCore c k).hbm = s.hbm := rfl
@[simp] theorem State.setCore_hbmOut (s : State) (c : Nat) (k : Core) : (s.setCore c k).hbmOut = s.hbmOut := rfl
@[simp] theorem State.setCore_book (s : State) (c : Nat) (k : Core) : (s.setCore c k).book = s.book := rfl
@[simp] theorem State.setCore_tele (s : State) (c : Nat) (k : Core) : (s.setCore c k).tele = s.tele := rfl
@[simp] theorem State.setCore_shadow (s : State) (c : Nat) (k : Core) : (s.setCore c k).shadow = s.shadow := rfl
@[simp] theorem State.setCore_net (s : State) (c : Nat) (k : Core) : (s.setCore c k).net = s.net := rfl
@[simp] theorem State.setCore_coll (s : State) (c : Nat) (k : Core) : (s.setCore c k).coll = s.coll := rfl
@[simp] theorem State.setCore_exp (s : State) (c : Nat) (k : Core) : (s.setCore c k).exp = s.exp := rfl
@[simp] theorem State.setCore_board (s : State) (c : Nat) (k : Core) : (s.setCore c k).board = s.board := rfl
@[simp] theorem State.setCore_brewAuth (s : State) (c : Nat) (k : Core) : (s.setCore c k).brewAuth = s.brewAuth := rfl
@[simp] theorem State.setCore_hbmUe (s : State) (c : Nat) (k : Core) : (s.setCore c k).hbmUe = s.hbmUe := rfl
@[simp] theorem State.setCore_hold (s : State) (c : Nat) (k : Core) : (s.setCore c k).hold = s.hold := rfl
@[simp] theorem State.setCore_kettle (s : State) (c : Nat) (k : Core) : (s.setCore c k).kettle = s.kettle := rfl
@[simp] theorem State.setCore_waking (s : State) (c : Nat) (k : Core) : (s.setCore c k).waking = s.waking := rfl
@[simp] theorem State.setCore_out (s : State) (c : Nat) (k : Core) : (s.setCore c k).out = s.out := rfl
@[simp] theorem State.setCore_reg (s : State) (c : Nat) (k : Core) (x : Reg) (j : Nat) : (s.setCore c k).reg x j = s.reg x j := rfl
@[simp] theorem State.setCore_fld (s : State) (c : Nat) (k : Core) (x : Fld) (j : Nat) : (s.setCore c k).fld x j = s.fld x j := rfl
@[simp] theorem State.setCore_bit (s : State) (c : Nat) (k : Core) (x : Fld) (j : Nat) : (s.setCore c k).bit x j = s.bit x j := rfl

-- modCore

@[simp] theorem State.modCore_pending (s : State) (c : Nat) (g : Core → Core) : (s.modCore c g).pending = s.pending := rfl
@[simp] theorem State.modCore_clock (s : State) (c : Nat) (g : Core → Core) : (s.modCore c g).clock = s.clock := rfl
@[simp] theorem State.modCore_fuses (s : State) (c : Nat) (g : Core → Core) : (s.modCore c g).fuses = s.fuses := rfl
@[simp] theorem State.modCore_free (s : State) (c : Nat) (g : Core → Core) : (s.modCore c g).free = s.free := rfl
@[simp] theorem State.modCore_regs (s : State) (c : Nat) (g : Core → Core) : (s.modCore c g).regs = s.regs := rfl
@[simp] theorem State.modCore_brews (s : State) (c : Nat) (g : Core → Core) : (s.modCore c g).brews = s.brews := rfl
@[simp] theorem State.modCore_hbm (s : State) (c : Nat) (g : Core → Core) : (s.modCore c g).hbm = s.hbm := rfl
@[simp] theorem State.modCore_hbmOut (s : State) (c : Nat) (g : Core → Core) : (s.modCore c g).hbmOut = s.hbmOut := rfl
@[simp] theorem State.modCore_book (s : State) (c : Nat) (g : Core → Core) : (s.modCore c g).book = s.book := rfl
@[simp] theorem State.modCore_tele (s : State) (c : Nat) (g : Core → Core) : (s.modCore c g).tele = s.tele := rfl
@[simp] theorem State.modCore_shadow (s : State) (c : Nat) (g : Core → Core) : (s.modCore c g).shadow = s.shadow := rfl
@[simp] theorem State.modCore_net (s : State) (c : Nat) (g : Core → Core) : (s.modCore c g).net = s.net := rfl
@[simp] theorem State.modCore_coll (s : State) (c : Nat) (g : Core → Core) : (s.modCore c g).coll = s.coll := rfl
@[simp] theorem State.modCore_exp (s : State) (c : Nat) (g : Core → Core) : (s.modCore c g).exp = s.exp := rfl
@[simp] theorem State.modCore_board (s : State) (c : Nat) (g : Core → Core) : (s.modCore c g).board = s.board := rfl
@[simp] theorem State.modCore_brewAuth (s : State) (c : Nat) (g : Core → Core) : (s.modCore c g).brewAuth = s.brewAuth := rfl
@[simp] theorem State.modCore_hbmUe (s : State) (c : Nat) (g : Core → Core) : (s.modCore c g).hbmUe = s.hbmUe := rfl
@[simp] theorem State.modCore_hold (s : State) (c : Nat) (g : Core → Core) : (s.modCore c g).hold = s.hold := rfl
@[simp] theorem State.modCore_kettle (s : State) (c : Nat) (g : Core → Core) : (s.modCore c g).kettle = s.kettle := rfl
@[simp] theorem State.modCore_waking (s : State) (c : Nat) (g : Core → Core) : (s.modCore c g).waking = s.waking := rfl
@[simp] theorem State.modCore_out (s : State) (c : Nat) (g : Core → Core) : (s.modCore c g).out = s.out := rfl
@[simp] theorem State.modCore_reg (s : State) (c : Nat) (g : Core → Core) (x : Reg) (j : Nat) : (s.modCore c g).reg x j = s.reg x j := rfl
@[simp] theorem State.modCore_fld (s : State) (c : Nat) (g : Core → Core) (x : Fld) (j : Nat) : (s.modCore c g).fld x j = s.fld x j := rfl
@[simp] theorem State.modCore_bit (s : State) (c : Nat) (g : Core → Core) (x : Fld) (j : Nat) : (s.modCore c g).bit x j = s.bit x j := rfl

-- freed

@[simp] theorem State.freed_pending (s : State) : (s.freed).pending = s.pending := rfl
@[simp] theorem State.freed_clock (s : State) : (s.freed).clock = s.clock := rfl
@[simp] theorem State.freed_fuses (s : State) : (s.freed).fuses = s.fuses := rfl
@[simp] theorem State.freed_regs (s : State) : (s.freed).regs = s.regs := rfl
@[simp] theorem State.freed_cores (s : State) : (s.freed).cores = s.cores := rfl
@[simp] theorem State.freed_brews (s : State) : (s.freed).brews = s.brews := rfl
@[simp] theorem State.freed_hbm (s : State) : (s.freed).hbm = s.hbm := rfl
@[simp] theorem State.freed_hbmOut (s : State) : (s.freed).hbmOut = s.hbmOut := rfl
@[simp] theorem State.freed_book (s : State) : (s.freed).book = s.book := rfl
@[simp] theorem State.freed_tele (s : State) : (s.freed).tele = s.tele := rfl
@[simp] theorem State.freed_shadow (s : State) : (s.freed).shadow = s.shadow := rfl
@[simp] theorem State.freed_net (s : State) : (s.freed).net = s.net := rfl
@[simp] theorem State.freed_coll (s : State) : (s.freed).coll = s.coll := rfl
@[simp] theorem State.freed_exp (s : State) : (s.freed).exp = s.exp := rfl
@[simp] theorem State.freed_board (s : State) : (s.freed).board = s.board := rfl
@[simp] theorem State.freed_brewAuth (s : State) : (s.freed).brewAuth = s.brewAuth := rfl
@[simp] theorem State.freed_hbmUe (s : State) : (s.freed).hbmUe = s.hbmUe := rfl
@[simp] theorem State.freed_hold (s : State) : (s.freed).hold = s.hold := rfl
@[simp] theorem State.freed_kettle (s : State) : (s.freed).kettle = s.kettle := rfl
@[simp] theorem State.freed_waking (s : State) : (s.freed).waking = s.waking := rfl
@[simp] theorem State.freed_out (s : State) : (s.freed).out = s.out := rfl
@[simp] theorem State.freed_reg (s : State) (x : Reg) (j : Nat) : (s.freed).reg x j = s.reg x j := rfl
@[simp] theorem State.freed_fld (s : State) (x : Fld) (j : Nat) : (s.freed).fld x j = s.fld x j := rfl
@[simp] theorem State.freed_bit (s : State) (x : Fld) (j : Nat) : (s.freed).bit x j = s.bit x j := rfl
@[simp] theorem State.freed_core (s : State) (d : Nat) : (s.freed).core d = s.core d := rfl

-- tick

@[simp] theorem State.tick_pending (s : State) : (s.tick).pending = s.pending := rfl
@[simp] theorem State.tick_fuses (s : State) : (s.tick).fuses = s.fuses.blown s.kettle.blow := rfl
@[simp] theorem State.tick_free (s : State) : (s.tick).free = s.free := rfl
@[simp] theorem State.tick_regs (s : State) : (s.tick).regs = trainPorts s.net.ports s.regs := rfl
@[simp] theorem State.tick_cores (s : State) : (s.tick).cores = s.cores := rfl
@[simp] theorem State.tick_brews (s : State) : (s.tick).brews = s.brews := rfl
@[simp] theorem State.tick_hbm (s : State) : (s.tick).hbm = s.hbm := rfl
@[simp] theorem State.tick_hbmOut (s : State) : (s.tick).hbmOut = s.hbmOut := rfl
@[simp] theorem State.tick_book (s : State) : (s.tick).book = s.book := rfl
@[simp] theorem State.tick_tele (s : State) : (s.tick).tele = s.tele := rfl
@[simp] theorem State.tick_shadow (s : State) : (s.tick).shadow = s.shadow := rfl
@[simp] theorem State.tick_net (s : State) : (s.tick).net = s.net := rfl
@[simp] theorem State.tick_coll (s : State) : (s.tick).coll = s.coll := rfl
@[simp] theorem State.tick_exp (s : State) : (s.tick).exp = s.exp := rfl
@[simp] theorem State.tick_board (s : State) : (s.tick).board = s.board := rfl
@[simp] theorem State.tick_brewAuth (s : State) : (s.tick).brewAuth = s.brewAuth := rfl
@[simp] theorem State.tick_hbmUe (s : State) : (s.tick).hbmUe = s.hbmUe := rfl
@[simp] theorem State.tick_hold (s : State) : (s.tick).hold = s.hold := rfl
@[simp] theorem State.tick_kettle (s : State) : (s.tick).kettle = s.kettle := rfl
@[simp] theorem State.tick_waking (s : State) : (s.tick).waking = s.waking := rfl
@[simp] theorem State.tick_out (s : State) : (s.tick).out = s.out := rfl
/-- A port that is not declared down stays as it is. -/
theorem trainPort_of_ne (p : Nat) (m : SMap Word)
    (h : wbits (m.lk (Reg.PORT_HEALTH.rst p) (Reg.PORT_HEALTH.off p)) 0 3 ≠ 1) : trainPort p m = m := if_neg h

/-- Where no port is declared down a tick changes no register. -/
theorem State.tick_regs_of_none_down (s : State) (h : ∀ x ∈ s.net.ports, s.fld F.PORT_HEALTH_LSTATE x.1 ≠ 1) : s.tick.regs = s.regs := by
  rw [State.tick_regs, trainPorts]
  generalize s.net.ports = l at h
  induction l with
  | nil => rfl
  | cons x t ih =>
    rw [List.foldl_cons, trainPort_of_ne x.1 s.regs (h x List.mem_cons_self)]
    exact ih (fun y hy => h y (List.mem_cons_of_mem x hy))

@[simp] theorem State.tick_core (s : State) (d : Nat) : (s.tick).core d = s.core d := rfl

-- hushed

@[simp] theorem State.hushed_pending (s : State) : (s.hushed).pending = s.pending := rfl
@[simp] theorem State.hushed_clock (s : State) : (s.hushed).clock = s.clock := rfl
@[simp] theorem State.hushed_fuses (s : State) : (s.hushed).fuses = s.fuses := rfl
@[simp] theorem State.hushed_free (s : State) : (s.hushed).free = s.free := rfl
@[simp] theorem State.hushed_regs (s : State) : (s.hushed).regs = s.regs := rfl
@[simp] theorem State.hushed_cores (s : State) : (s.hushed).cores = s.cores := rfl
@[simp] theorem State.hushed_brews (s : State) : (s.hushed).brews = s.brews := rfl
@[simp] theorem State.hushed_hbm (s : State) : (s.hushed).hbm = s.hbm := rfl
@[simp] theorem State.hushed_hbmOut (s : State) : (s.hushed).hbmOut = s.hbmOut := rfl
@[simp] theorem State.hushed_book (s : State) : (s.hushed).book = s.book := rfl
@[simp] theorem State.hushed_tele (s : State) : (s.hushed).tele = s.tele := rfl
@[simp] theorem State.hushed_shadow (s : State) : (s.hushed).shadow = s.shadow := rfl
@[simp] theorem State.hushed_net (s : State) : (s.hushed).net = s.net := rfl
@[simp] theorem State.hushed_coll (s : State) : (s.hushed).coll = s.coll := rfl
@[simp] theorem State.hushed_exp (s : State) : (s.hushed).exp = s.exp := rfl
@[simp] theorem State.hushed_board (s : State) : (s.hushed).board = s.board := rfl
@[simp] theorem State.hushed_brewAuth (s : State) : (s.hushed).brewAuth = s.brewAuth := rfl
@[simp] theorem State.hushed_hbmUe (s : State) : (s.hushed).hbmUe = s.hbmUe := rfl
@[simp] theorem State.hushed_hold (s : State) : (s.hushed).hold = s.hold := rfl
@[simp] theorem State.hushed_kettle (s : State) : (s.hushed).kettle = s.kettle := rfl
@[simp] theorem State.hushed_waking (s : State) : (s.hushed).waking = s.waking := rfl
@[simp] theorem State.hushed_reg (s : State) (x : Reg) (j : Nat) : (s.hushed).reg x j = s.reg x j := rfl
@[simp] theorem State.hushed_fld (s : State) (x : Fld) (j : Nat) : (s.hushed).fld x j = s.fld x j := rfl
@[simp] theorem State.hushed_bit (s : State) (x : Fld) (j : Nat) : (s.hushed).bit x j = s.bit x j := rfl
@[simp] theorem State.hushed_core (s : State) (d : Nat) : (s.hushed).core d = s.core d := rfl

-- emit

@[simp] theorem State.emit_pending (s : State) (o : Out) : (s.emit o).pending = s.pending := rfl
@[simp] theorem State.emit_clock (s : State) (o : Out) : (s.emit o).clock = s.clock := rfl
@[simp] theorem State.emit_fuses (s : State) (o : Out) : (s.emit o).fuses = s.fuses := rfl
@[simp] theorem State.emit_free (s : State) (o : Out) : (s.emit o).free = s.free := rfl
@[simp] theorem State.emit_regs (s : State) (o : Out) : (s.emit o).regs = s.regs := rfl
@[simp] theorem State.emit_cores (s : State) (o : Out) : (s.emit o).cores = s.cores := rfl
@[simp] theorem State.emit_brews (s : State) (o : Out) : (s.emit o).brews = s.brews := rfl
@[simp] theorem State.emit_hbm (s : State) (o : Out) : (s.emit o).hbm = s.hbm := rfl
@[simp] theorem State.emit_hbmOut (s : State) (o : Out) : (s.emit o).hbmOut = s.hbmOut := rfl
@[simp] theorem State.emit_book (s : State) (o : Out) : (s.emit o).book = s.book := rfl
@[simp] theorem State.emit_tele (s : State) (o : Out) : (s.emit o).tele = s.tele := rfl
@[simp] theorem State.emit_shadow (s : State) (o : Out) : (s.emit o).shadow = s.shadow := rfl
@[simp] theorem State.emit_net (s : State) (o : Out) : (s.emit o).net = s.net := rfl
@[simp] theorem State.emit_coll (s : State) (o : Out) : (s.emit o).coll = s.coll := rfl
@[simp] theorem State.emit_exp (s : State) (o : Out) : (s.emit o).exp = s.exp := rfl
@[simp] theorem State.emit_board (s : State) (o : Out) : (s.emit o).board = s.board := rfl
@[simp] theorem State.emit_brewAuth (s : State) (o : Out) : (s.emit o).brewAuth = s.brewAuth := rfl
@[simp] theorem State.emit_hbmUe (s : State) (o : Out) : (s.emit o).hbmUe = s.hbmUe := rfl
@[simp] theorem State.emit_hold (s : State) (o : Out) : (s.emit o).hold = s.hold := rfl
@[simp] theorem State.emit_kettle (s : State) (o : Out) : (s.emit o).kettle = s.kettle := rfl
@[simp] theorem State.emit_waking (s : State) (o : Out) : (s.emit o).waking = s.waking := rfl
@[simp] theorem State.emit_reg (s : State) (o : Out) (x : Reg) (j : Nat) : (s.emit o).reg x j = s.reg x j := rfl
@[simp] theorem State.emit_fld (s : State) (o : Out) (x : Fld) (j : Nat) : (s.emit o).fld x j = s.fld x j := rfl
@[simp] theorem State.emit_bit (s : State) (o : Out) (x : Fld) (j : Nat) : (s.emit o).bit x j = s.bit x j := rfl
@[simp] theorem State.emit_core (s : State) (o : Out) (d : Nat) : (s.emit o).core d = s.core d := rfl

-- modPort

@[simp] theorem State.modPort_pending (s : State) (p : Nat) (g : Port → Port) : (s.modPort p g).pending = s.pending := rfl
@[simp] theorem State.modPort_clock (s : State) (p : Nat) (g : Port → Port) : (s.modPort p g).clock = s.clock := rfl
@[simp] theorem State.modPort_fuses (s : State) (p : Nat) (g : Port → Port) : (s.modPort p g).fuses = s.fuses := rfl
@[simp] theorem State.modPort_free (s : State) (p : Nat) (g : Port → Port) : (s.modPort p g).free = s.free := rfl
@[simp] theorem State.modPort_regs (s : State) (p : Nat) (g : Port → Port) : (s.modPort p g).regs = s.regs := rfl
@[simp] theorem State.modPort_cores (s : State) (p : Nat) (g : Port → Port) : (s.modPort p g).cores = s.cores := rfl
@[simp] theorem State.modPort_brews (s : State) (p : Nat) (g : Port → Port) : (s.modPort p g).brews = s.brews := rfl
@[simp] theorem State.modPort_hbm (s : State) (p : Nat) (g : Port → Port) : (s.modPort p g).hbm = s.hbm := rfl
@[simp] theorem State.modPort_hbmOut (s : State) (p : Nat) (g : Port → Port) : (s.modPort p g).hbmOut = s.hbmOut := rfl
@[simp] theorem State.modPort_book (s : State) (p : Nat) (g : Port → Port) : (s.modPort p g).book = s.book := rfl
@[simp] theorem State.modPort_tele (s : State) (p : Nat) (g : Port → Port) : (s.modPort p g).tele = s.tele := rfl
@[simp] theorem State.modPort_shadow (s : State) (p : Nat) (g : Port → Port) : (s.modPort p g).shadow = s.shadow := rfl
@[simp] theorem State.modPort_coll (s : State) (p : Nat) (g : Port → Port) : (s.modPort p g).coll = s.coll := rfl
@[simp] theorem State.modPort_exp (s : State) (p : Nat) (g : Port → Port) : (s.modPort p g).exp = s.exp := rfl
@[simp] theorem State.modPort_board (s : State) (p : Nat) (g : Port → Port) : (s.modPort p g).board = s.board := rfl
@[simp] theorem State.modPort_brewAuth (s : State) (p : Nat) (g : Port → Port) : (s.modPort p g).brewAuth = s.brewAuth := rfl
@[simp] theorem State.modPort_hbmUe (s : State) (p : Nat) (g : Port → Port) : (s.modPort p g).hbmUe = s.hbmUe := rfl
@[simp] theorem State.modPort_hold (s : State) (p : Nat) (g : Port → Port) : (s.modPort p g).hold = s.hold := rfl
@[simp] theorem State.modPort_kettle (s : State) (p : Nat) (g : Port → Port) : (s.modPort p g).kettle = s.kettle := rfl
@[simp] theorem State.modPort_waking (s : State) (p : Nat) (g : Port → Port) : (s.modPort p g).waking = s.waking := rfl
@[simp] theorem State.modPort_out (s : State) (p : Nat) (g : Port → Port) : (s.modPort p g).out = s.out := rfl
@[simp] theorem State.modPort_reg (s : State) (p : Nat) (g : Port → Port) (x : Reg) (j : Nat) : (s.modPort p g).reg x j = s.reg x j := rfl
@[simp] theorem State.modPort_fld (s : State) (p : Nat) (g : Port → Port) (x : Fld) (j : Nat) : (s.modPort p g).fld x j = s.fld x j := rfl
@[simp] theorem State.modPort_bit (s : State) (p : Nat) (g : Port → Port) (x : Fld) (j : Nat) : (s.modPort p g).bit x j = s.bit x j := rfl
@[simp] theorem State.modPort_core (s : State) (p : Nat) (g : Port → Port) (d : Nat) : (s.modPort p g).core d = s.core d := rfl

-- setObj

@[simp] theorem State.setObj_pending (s : State) (n : Nat) (o : Obj) : (s.setObj n o).pending = s.pending := rfl
@[simp] theorem State.setObj_clock (s : State) (n : Nat) (o : Obj) : (s.setObj n o).clock = s.clock := rfl
@[simp] theorem State.setObj_fuses (s : State) (n : Nat) (o : Obj) : (s.setObj n o).fuses = s.fuses := rfl
@[simp] theorem State.setObj_free (s : State) (n : Nat) (o : Obj) : (s.setObj n o).free = s.free := rfl
@[simp] theorem State.setObj_regs (s : State) (n : Nat) (o : Obj) : (s.setObj n o).regs = s.regs := rfl
@[simp] theorem State.setObj_cores (s : State) (n : Nat) (o : Obj) : (s.setObj n o).cores = s.cores := rfl
@[simp] theorem State.setObj_brews (s : State) (n : Nat) (o : Obj) : (s.setObj n o).brews = s.brews := rfl
@[simp] theorem State.setObj_hbm (s : State) (n : Nat) (o : Obj) : (s.setObj n o).hbm = s.hbm := rfl
@[simp] theorem State.setObj_hbmOut (s : State) (n : Nat) (o : Obj) : (s.setObj n o).hbmOut = s.hbmOut := rfl
@[simp] theorem State.setObj_book (s : State) (n : Nat) (o : Obj) : (s.setObj n o).book = s.book := rfl
@[simp] theorem State.setObj_tele (s : State) (n : Nat) (o : Obj) : (s.setObj n o).tele = s.tele := rfl
@[simp] theorem State.setObj_shadow (s : State) (n : Nat) (o : Obj) : (s.setObj n o).shadow = s.shadow := rfl
@[simp] theorem State.setObj_net (s : State) (n : Nat) (o : Obj) : (s.setObj n o).net = s.net := rfl
@[simp] theorem State.setObj_coll (s : State) (n : Nat) (o : Obj) : (s.setObj n o).coll = s.coll := rfl
@[simp] theorem State.setObj_exp (s : State) (n : Nat) (o : Obj) : (s.setObj n o).exp = s.exp := rfl
@[simp] theorem State.setObj_brewAuth (s : State) (n : Nat) (o : Obj) : (s.setObj n o).brewAuth = s.brewAuth := rfl
@[simp] theorem State.setObj_hbmUe (s : State) (n : Nat) (o : Obj) : (s.setObj n o).hbmUe = s.hbmUe := rfl
@[simp] theorem State.setObj_hold (s : State) (n : Nat) (o : Obj) : (s.setObj n o).hold = s.hold := rfl
@[simp] theorem State.setObj_kettle (s : State) (n : Nat) (o : Obj) : (s.setObj n o).kettle = s.kettle := rfl
@[simp] theorem State.setObj_waking (s : State) (n : Nat) (o : Obj) : (s.setObj n o).waking = s.waking := rfl
@[simp] theorem State.setObj_out (s : State) (n : Nat) (o : Obj) : (s.setObj n o).out = s.out := rfl
@[simp] theorem State.setObj_reg (s : State) (n : Nat) (o : Obj) (x : Reg) (j : Nat) : (s.setObj n o).reg x j = s.reg x j := rfl
@[simp] theorem State.setObj_fld (s : State) (n : Nat) (o : Obj) (x : Fld) (j : Nat) : (s.setObj n o).fld x j = s.fld x j := rfl
@[simp] theorem State.setObj_bit (s : State) (n : Nat) (o : Obj) (x : Fld) (j : Nat) : (s.setObj n o).bit x j = s.bit x j := rfl
@[simp] theorem State.setObj_core (s : State) (n : Nat) (o : Obj) (d : Nat) : (s.setObj n o).core d = s.core d := rfl

-- keep

@[simp] theorem State.keep_pending (t s : State) : (t.keep s).pending = s.pending := rfl
@[simp] theorem State.keep_clock (t s : State) : (t.keep s).clock = s.clock := rfl
@[simp] theorem State.keep_fuses (t s : State) : (t.keep s).fuses = s.fuses := rfl
@[simp] theorem State.keep_free (t s : State) : (t.keep s).free = t.free := rfl
@[simp] theorem State.keep_regs (t s : State) : (t.keep s).regs = t.regs := rfl
@[simp] theorem State.keep_cores (t s : State) : (t.keep s).cores = t.cores := rfl
@[simp] theorem State.keep_brews (t s : State) : (t.keep s).brews = t.brews := rfl
@[simp] theorem State.keep_hbm (t s : State) : (t.keep s).hbm = t.hbm := rfl
@[simp] theorem State.keep_hbmOut (t s : State) : (t.keep s).hbmOut = t.hbmOut := rfl
@[simp] theorem State.keep_book (t s : State) : (t.keep s).book = t.book := rfl
@[simp] theorem State.keep_tele (t s : State) : (t.keep s).tele = t.tele := rfl
@[simp] theorem State.keep_shadow (t s : State) : (t.keep s).shadow = t.shadow := rfl
@[simp] theorem State.keep_net (t s : State) : (t.keep s).net = t.net := rfl
@[simp] theorem State.keep_coll (t s : State) : (t.keep s).coll = t.coll := rfl
@[simp] theorem State.keep_exp (t s : State) : (t.keep s).exp = t.exp := rfl
@[simp] theorem State.keep_board (t s : State) : (t.keep s).board = t.board := rfl
@[simp] theorem State.keep_brewAuth (t s : State) : (t.keep s).brewAuth = t.brewAuth := rfl
@[simp] theorem State.keep_hbmUe (t s : State) : (t.keep s).hbmUe = t.hbmUe := rfl
@[simp] theorem State.keep_hold (t s : State) : (t.keep s).hold = t.hold := rfl
@[simp] theorem State.keep_kettle (t s : State) : (t.keep s).kettle = t.kettle := rfl
@[simp] theorem State.keep_waking (t s : State) : (t.keep s).waking = t.waking := rfl
@[simp] theorem State.keep_out (t s : State) : (t.keep s).out = t.out := rfl
@[simp] theorem State.keep_core (t s : State) (d : Nat) : (t.keep s).core d = t.core d := rfl
@[simp] theorem State.keep_reg (t s : State) (x : Reg) (j : Nat) : (t.keep s).reg x j = t.reg x j := rfl

end Sys2Proof.Machine
end

