-- ==== Sys2Proof/Laws/Table.lean ====
section
/-!
SUPPORT. Tables: what a read after a write gives, and that a write keeps the order of the keys and the canonical form.
-/
namespace Sys2Proof.Machine

open Sys2Proof

variable {α : Type}

@[simp] theorem SMap.lk_nil (d : α) (k : Nat) : SMap.lk ([] : SMap α) d k = d := rfl

theorem SMap.rising_cons {k : Nat} {v : α} {t : SMap α} : SMap.Rising ((k, v) :: t) ↔ (∀ x ∈ t, k < x.1) ∧ SMap.Rising t := by
  simp [SMap.Rising, List.pairwise_cons]

theorem SMap.lk_absent {t : SMap α} {d : α} {k : Nat} (h : ∀ x ∈ t, x.1 ≠ k) : t.lk d k = d := by
  induction t with
  | nil => rfl
  | cons x t ih =>
    obtain ⟨k', v⟩ := x
    have h1 : k' ≠ k := h (k', v) List.mem_cons_self
    simp only [SMap.lk, h1, if_false]
    exact ih fun y hy => h y (List.mem_cons_of_mem _ hy)

variable [DecidableEq α]

/-- A write changes no other key, whatever that key reads as where it is not listed. -/
theorem SMap.lk_put_other (m : SMap α) (d e : α) (k j : Nat) (v : α) (h : j ≠ k) : (m.put d k v).lk e j = m.lk e j := by
  induction m with
  | nil => by_cases hv : v = d <;> simp [SMap.put, SMap.lk, hv, Ne.symm h]
  | cons x t ih =>
    obtain ⟨k', v'⟩ := x
    simp only [SMap.put]
    by_cases h1 : k < k'
    · by_cases hv : v = d <;> simp [h1, hv, SMap.lk, Ne.symm h]
    · by_cases h2 : k = k'
      · subst h2
        by_cases hv : v = d <;> simp [hv, SMap.lk, Ne.symm h]
      · simp only [h1, h2, if_false, SMap.lk, ih]

/-- A key written with a value that is not the default reads that value. -/
theorem SMap.lk_put_ne (m : SMap α) (d : α) (k : Nat) (v : α) (hv : v ≠ d) : (m.put d k v).lk d k = v := by
  induction m with
  | nil => simp [SMap.put, SMap.lk, hv]
  | cons x t ih =>
    obtain ⟨k', v'⟩ := x
    simp only [SMap.put]
    by_cases h1 : k < k'
    · simp [h1, hv, SMap.lk]
    · by_cases h2 : k = k'
      · simp [h2, hv, SMap.lk]
      · simp only [h1, h2, if_false, SMap.lk, Ne.symm h2, ih]

/-- A key of a table in order reads what was written to it. -/
theorem SMap.lk_put_self (m : SMap α) (d : α) (k : Nat) (v : α) (h : m.Rising) : (m.put d k v).lk d k = v := by
  by_cases hv : v = d
  · subst hv
    induction m with
    | nil => simp [SMap.put]
    | cons x t ih =>
      obtain ⟨k', v'⟩ := x
      obtain ⟨hlt, ht⟩ := SMap.rising_cons.1 h
      simp only [SMap.put, if_true]
      by_cases h1 : k < k'
      · simp only [h1, if_true]
        exact SMap.lk_absent fun y hy => by
          rcases List.mem_cons.1 hy with rfl | hy
          · exact Nat.ne_of_gt h1
          · exact Nat.ne_of_gt (Nat.lt_trans h1 (hlt y hy))
      · by_cases h2 : k = k'
        · subst h2
          simp only [h1, if_false, if_true]
          exact SMap.lk_absent fun y hy => Nat.ne_of_gt (hlt y hy)
        · simp only [h1, h2, if_false, SMap.lk, Ne.symm h2]
          exact ih ht
  · exact SMap.lk_put_ne m d k v hv

theorem SMap.mem_put {m : SMap α} {d : α} {k : Nat} {v : α} {x : Nat × α} (h : x ∈ m.put d k v) : x ∈ m ∨ x = (k, v) ∧ v ≠ d := by
  induction m with
  | nil => by_cases hv : v = d <;> simp [SMap.put, hv] at h; exact .inr ⟨h, hv⟩
  | cons y t ih =>
    obtain ⟨k', v'⟩ := y
    simp only [SMap.put] at h
    by_cases h1 : k < k'
    · by_cases hv : v = d
      · simp only [h1, hv, if_true] at h; exact .inl h
      · simp only [h1, hv, if_true, if_false] at h
        rcases List.mem_cons.1 h with h | h
        · exact .inr ⟨h, hv⟩
        · exact .inl h
    · by_cases h2 : k = k'
      · by_cases hv : v = d
        · simp [h2, hv] at h
          exact .inl (List.mem_cons_of_mem _ (by simpa using h))
        · simp [h2, hv] at h
          rcases List.mem_cons.1 (by simpa using h) with h | h
          · exact .inr ⟨by rw [h, h2], hv⟩
          · exact .inl (List.mem_cons_of_mem _ h)
      · simp only [h1, h2, if_false] at h
        rcases List.mem_cons.1 h with h | h
        · exact .inl (h ▸ List.mem_cons_self)
        · exact (ih h).imp (List.mem_cons_of_mem _) id

/-- A write keeps the keys in order. -/
theorem SMap.rising_put (m : SMap α) (d : α) (k : Nat) (v : α) (h : m.Rising) : (m.put d k v).Rising := by
  induction m with
  | nil => by_cases hv : v = d <;> simp [SMap.put, SMap.Rising, hv]
  | cons x t ih =>
    obtain ⟨k', v'⟩ := x
    obtain ⟨hlt, ht⟩ := SMap.rising_cons.1 h
    simp only [SMap.put]
    by_cases h1 : k < k'
    · by_cases hv : v = d
      · simp only [h1, hv, if_true]; exact h
      · simp only [h1, hv, if_true, if_false]
        refine SMap.rising_cons.2 ⟨fun y hy => ?_, h⟩
        rcases List.mem_cons.1 hy with rfl | hy
        · exact h1
        · exact Nat.lt_trans h1 (hlt y hy)
    · by_cases h2 : k = k'
      · subst h2
        by_cases hv : v = d
        · simp only [hv, Nat.lt_irrefl, if_true, if_false]; exact ht
        · simp only [hv, Nat.lt_irrefl, if_true, if_false]; exact SMap.rising_cons.2 ⟨hlt, ht⟩
      · simp only [h1, h2, if_false]
        refine SMap.rising_cons.2 ⟨fun y hy => ?_, ih ht⟩
        rcases SMap.mem_put hy with hy | ⟨rfl, -⟩
        · exact hlt y hy
        · exact Nat.lt_of_le_of_ne (Nat.not_lt.1 h1) (Ne.symm h2)

theorem SMap.wfFrom_iff {d : α} {m : SMap α} {lo : Nat} :
    SMap.wfFrom d lo m = true ↔ m.Rising ∧ (∀ x ∈ m, lo ≤ x.1) ∧ ∀ x ∈ m, x.2 ≠ d := by
  induction m generalizing lo with
  | nil => simp [SMap.wfFrom, SMap.Rising]
  | cons x t ih =>
    obtain ⟨k, v⟩ := x
    simp only [SMap.wfFrom, Bool.and_eq_true, decide_eq_true_eq, ih, SMap.rising_cons, List.forall_mem_cons]
    constructor
    · rintro ⟨⟨h1, h2⟩, h3, h4, h5⟩
      exact ⟨⟨fun y hy => h4 y hy, h3⟩, ⟨h1, fun y hy => Nat.le_of_lt (Nat.lt_of_le_of_lt h1 (h4 y hy))⟩, h2, h5⟩
    · rintro ⟨⟨h1, h2⟩, ⟨h3, -⟩, h4, h5⟩
      exact ⟨⟨h3, h4⟩, h2, fun y hy => h1 y hy, h5⟩

/-- A table is in canonical form where its keys rise and it lists no default. -/
theorem SMap.wf_iff {d : α} {m : SMap α} : SMap.wf d m = true ↔ m.Rising ∧ ∀ x ∈ m, x.2 ≠ d := by
  simp [SMap.wf, SMap.wfFrom_iff]

/-- A write keeps the canonical form. -/
theorem SMap.wf_put (m : SMap α) (d : α) (k : Nat) (v : α) (h : SMap.wf d m = true) : SMap.wf d (m.put d k v) = true := by
  obtain ⟨h1, h2⟩ := SMap.wf_iff.1 h
  refine SMap.wf_iff.2 ⟨SMap.rising_put m d k v h1, fun x hx => ?_⟩
  rcases SMap.mem_put hx with hx | ⟨rfl, hv⟩
  · exact h2 x hx
  · exact hv

theorem SMap.wf_rising {m : SMap α} {d : α} (h : SMap.wf d m = true) : m.Rising := (SMap.wf_iff.1 h).1

-- Byte memories --------------------------------------------------------------------------------------------

/-- Writing bytes keeps the canonical form. -/
theorem Mem.wf_wr (m : SMap Byte) (d : Byte) (a : Nat) (bs : List Byte) (h : Memory.wf d m = true) : Memory.wf d (Mem.wr m d a bs) = true := by
  induction bs generalizing m a with
  | nil => exact h
  | cons b t ih => exact ih _ _ (SMap.wf_put m d a b h)

/-- A byte outside what is written reads as before. -/
theorem Mem.lk_wr_other (m : SMap Byte) (d : Byte) (a : Nat) (bs : List Byte) (j : Nat) (h : j < a ∨ a + bs.length ≤ j) :
    (Mem.wr m d a bs).lk d j = m.lk d j := by
  induction bs generalizing m a with
  | nil => rfl
  | cons b t ih =>
    simp only [List.length_cons] at h
    rw [Mem.wr, ih _ _ (by omega), SMap.lk_put_other _ _ _ _ _ _ (by omega)]

/-- The i-th byte written is read back. -/
theorem Mem.lk_wr_self (m : SMap Byte) (d : Byte) (a : Nat) (bs : List Byte) (i : Nat) (hw : Memory.wf d m = true) (h : i < bs.length) :
    (Mem.wr m d a bs).lk d (a + i) = bs[i] := by
  induction bs generalizing m a i with
  | nil => simp at h
  | cons b t ih =>
    cases i with
    | zero =>
      rw [Mem.wr, Mem.lk_wr_other _ _ _ _ _ (by omega)]
      exact SMap.lk_put_self m d a b (SMap.wf_rising hw)
    | succ i =>
      have e : a + (i + 1) = a + 1 + i := by omega
      rw [Mem.wr, e, ih _ _ _ (SMap.wf_put m d a b hw) (by simpa using h)]
      rfl

end Sys2Proof.Machine
end

