-- ==== Sys2Proof/Laws/Registers.lean ====
section
/-!
SUPPORT. Fields of words, registers and cores: what a read after a write gives, and that every write keeps the tables in order.
-/
namespace Sys2Proof.Machine

open Sys2Proof

-- Fields of words ---------------------------------------------------------------------------------------------

/-- wset as arithmetic. -/
theorem wset_toNat_aux (x lo n v : Nat) : x - (bitsOf x lo n) <<< lo + (v % 2 ^ n) <<< lo = 2 ^ lo * (2 ^ n * (x / 2 ^ lo / 2 ^ n) + v % 2 ^ n) + x % 2 ^ lo := by
  have h1 : 2 ^ lo * (x / 2 ^ lo) + x % 2 ^ lo = x := Nat.div_add_mod ..
  have h2 : 2 ^ n * (x / 2 ^ lo / 2 ^ n) + (x / 2 ^ lo) % 2 ^ n = x / 2 ^ lo := Nat.div_add_mod ..
  simp only [bitsOf, Nat.shiftRight_eq_div_pow, Nat.shiftLeft_eq]
  have h3 : 2 ^ lo * (2 ^ n * (x / 2 ^ lo / 2 ^ n)) + 2 ^ lo * ((x / 2 ^ lo) % 2 ^ n) = 2 ^ lo * (x / 2 ^ lo) := by rw [← Nat.mul_add, h2]
  rw [Nat.mul_add, Nat.mul_comm ((x / 2 ^ lo) % 2 ^ n), Nat.mul_comm (v % 2 ^ n)]
  omega

/-- A bit of a word with a field replaced. -/
theorem getLsbD_wset (w : Word) (lo n v j : Nat) (hj : j < 64) : (wset w lo n v).getLsbD j = if lo ≤ j ∧ j < lo + n then v.testBit (j - lo) else w.getLsbD j := by
  have e : (wset w lo n v).getLsbD j = (2 ^ lo * (2 ^ n * (w.toNat / 2 ^ lo / 2 ^ n) + v % 2 ^ n) + w.toNat % 2 ^ lo).testBit j := by
    rw [← wset_toNat_aux]
    simp [wset, BitVec.getLsbD, BitVec.toNat_ofNat, Nat.testBit_mod_two_pow, hj, -Nat.reducePow]
  rw [e, Nat.testBit_two_pow_mul_add _ (Nat.mod_lt _ (Nat.two_pow_pos _)), Nat.testBit_two_pow_mul_add _ (Nat.mod_lt _ (Nat.two_pow_pos _))]
  by_cases h1 : j < lo
  · have : ¬ (lo ≤ j ∧ j < lo + n) := by omega
    simp [h1, this, Nat.testBit_mod_two_pow, BitVec.getLsbD]
  · by_cases h2 : j - lo < n
    · have : (lo ≤ j ∧ j < lo + n) := by omega
      simp [h1, h2, this, Nat.testBit_mod_two_pow]
    · have : ¬ (lo ≤ j ∧ j < lo + n) := by omega
      simp [h1, h2, this, Nat.testBit_div_two_pow, BitVec.getLsbD]
      congr 1; omega

/-- A bit of a field. -/
theorem wbits_testBit (w : Word) (lo n j : Nat) : (wbits w lo n).testBit j = (decide (j < n) && w.getLsbD (lo + j)) := by
  simp [wbits, bitsOf, Nat.testBit_mod_two_pow, Nat.testBit_shiftRight, BitVec.getLsbD]

/-- Fields whose bits agree are equal. -/
theorem wbits_ext {a b : Word} {lo n : Nat} (h : ∀ j, j < n → a.getLsbD (lo + j) = b.getLsbD (lo + j)) : wbits a lo n = wbits b lo n := by
  apply Nat.eq_of_testBit_eq; intro j; rw [wbits_testBit, wbits_testBit]
  by_cases hj : j < n <;> simp [hj, h]

/-- Part of a field that was copied from v. -/
theorem wbits_wset_sub (w v : Word) (lo n lo' n' : Nat) (h : lo + n ≤ 64) (h' : lo ≤ lo' ∧ lo' + n' ≤ lo + n) : wbits (wset w lo n (wbits v lo n)) lo' n' = wbits v lo' n' := by
  apply wbits_ext; intro j hj
  rw [getLsbD_wset _ _ _ _ _ (by omega), if_pos (by omega), wbits_testBit]
  have e : lo + (lo' + j - lo) = lo' + j := by omega
  have e2 : lo' + j - lo < n := by omega
  simp [e, e2]

/-- A field beside the one replaced. -/
theorem wbits_wset_off (w : Word) (lo n v lo' n' : Nat) (h : lo' + n' ≤ 64) (h' : lo' + n' ≤ lo ∨ lo + n ≤ lo') : wbits (wset w lo n v) lo' n' = wbits w lo' n' := by
  apply wbits_ext; intro j hj
  rw [getLsbD_wset _ _ _ _ _ (by omega), if_neg (by omega)]

/-- A bit of a field that was copied from v. -/
theorem getLsbD_wset_in (w v : Word) (lo n j : Nat) (h : lo + n ≤ 64) (h' : lo ≤ j ∧ j < lo + n) : (wset w lo n (wbits v lo n)).getLsbD j = v.getLsbD j := by
  rw [getLsbD_wset _ _ _ _ _ (by omega), if_pos h', wbits_testBit]
  have e : lo + (j - lo) = j := by omega
  have e2 : j - lo < n := by omega
  simp [e, e2]

/-- A bit beside the field replaced. -/
theorem getLsbD_wset_off (w : Word) (lo n v j : Nat) (h : j < 64) (h' : j < lo ∨ lo + n ≤ j) : (wset w lo n v).getLsbD j = w.getLsbD j := by
  rw [getLsbD_wset _ _ _ _ _ h, if_neg (by omega)]

/-- A field that was replaced. -/
theorem wbits_wset_self (w : Word) (lo n v : Nat) (h : lo + n ≤ 64) : wbits (wset w lo n v) lo n = v % 2 ^ n := by
  apply Nat.eq_of_testBit_eq
  intro j
  rw [wbits_testBit, Nat.testBit_mod_two_pow]
  by_cases hj : j < n
  · rw [getLsbD_wset _ _ _ _ _ (by omega), if_pos (by omega)]
    simp
  · simp [hj]

/-- A field is below its width's power of two. -/
theorem wbits_lt (w : Word) (lo n : Nat) : wbits w lo n < 2 ^ n := Nat.mod_lt _ (Nat.two_pow_pos n)

/-- A one-bit field. -/
theorem wbits_one (w : Word) (j : Nat) : wbits w j 1 = if w.getLsbD j then 1 else 0 := by
  apply Nat.eq_of_testBit_eq; intro i
  rw [wbits_testBit]
  by_cases hi : i < 1
  · have : i = 0 := by omega
    subst this
    cases h : w.getLsbD j <;> simp
  · split <;> simp [hi]; cases i <;> simp_all [Nat.testBit_succ]

-- Registers ----------------------------------------------------------------------------------------------------

theorem State.reg_setReg_self (s : State) (r : Reg) (i : Nat) (w : Word) (h : s.regs.Rising) : (s.setReg r i w).reg r i = w :=
  SMap.lk_put_self _ _ _ _ h

theorem State.reg_setReg_other (s : State) (r x : Reg) (i j : Nat) (w : Word) (h : x.off j ≠ r.off i) : (s.setReg r i w).reg x j = s.reg x j :=
  SMap.lk_put_other _ _ _ _ _ _ h

theorem State.rising_setReg (s : State) (r : Reg) (i : Nat) (w : Word) (h : s.regs.Rising) : (s.setReg r i w).regs.Rising :=
  SMap.rising_put _ _ _ _ h

theorem State.rising_setFld (s : State) (f : Fld) (i v : Nat) (h : s.regs.Rising) : (s.setFld f i v).regs.Rising := SMap.rising_put _ _ _ _ h

theorem State.rising_bumpN (s : State) (f : Fld) (i n : Nat) (h : s.regs.Rising) : (s.bumpN f i n).regs.Rising := SMap.rising_put _ _ _ _ h

theorem State.rising_bump (s : State) (f : Fld) (i : Nat) (h : s.regs.Rising) : (s.bump f i).regs.Rising := SMap.rising_put _ _ _ _ h

/-- A field reads what was written to it. -/
theorem State.fld_setFld_self (s : State) (f : Fld) (i v : Nat) (h : s.regs.Rising) (hw : f.lo + f.w ≤ 64) :
    (s.setFld f i v).fld f i = v % 2 ^ f.w := by
  rw [State.fld, State.setFld, State.reg_setReg_self _ _ _ _ h, wbits_wset_self _ _ _ _ hw]

/-- A field of another register reads as before. -/
theorem State.fld_setFld_other (s : State) (f x : Fld) (i j v : Nat) (h : x.reg.off j ≠ f.reg.off i) : (s.setFld f i v).fld x j = s.fld x j := by
  rw [State.fld, State.setFld, State.reg_setReg_other _ _ _ _ _ _ h, State.fld]

/-- Another field of the register reads as before. -/
theorem State.fld_setFld_beside (s : State) (f x : Fld) (i v : Nat) (h : s.regs.Rising) (hr : x.reg = f.reg) (hw : x.lo + x.w ≤ 64)
    (hd : x.lo + x.w ≤ f.lo ∨ f.lo + f.w ≤ x.lo) : (s.setFld f i v).fld x i = s.fld x i := by
  rw [State.fld, State.setFld, hr, State.reg_setReg_self _ _ _ _ h, wbits_wset_off _ _ _ _ _ _ hw hd, State.fld, hr]

-- Cores --------------------------------------------------------------------------------------------------------

/-- A core reads what was written to it; for a core that is not the one of an unlisted number no order is needed. -/
theorem State.core_setCore_self (s : State) (c : Nat) (k : Core) (h : s.cores.Rising) : (s.setCore c k).core c = k := SMap.lk_put_self _ _ _ _ h

theorem State.core_setCore_ne (s : State) (c : Nat) (k : Core) (h : k ≠ {}) : (s.setCore c k).core c = k := SMap.lk_put_ne _ _ _ _ h

theorem Core.ne_default {k : Core} (h : k.st ≠ .idle) : k ≠ {} := fun e => h (by rw [e])

/-- A core that is not IDLE reads what was written to it. -/
theorem State.core_setCore_st (s : State) (c : Nat) (k : Core) (h : k.st ≠ .idle) : (s.setCore c k).core c = k :=
  SMap.lk_put_ne _ _ _ _ (Core.ne_default h)

theorem State.core_setCore_other (s : State) (c d : Nat) (k : Core) (h : d ≠ c) : (s.setCore c k).core d = s.core d :=
  SMap.lk_put_other _ _ _ _ _ _ h

theorem State.rising_setCore (s : State) (c : Nat) (k : Core) (h : s.cores.Rising) : (s.setCore c k).cores.Rising := SMap.rising_put _ _ _ _ h

end Sys2Proof.Machine
end

