-- ==== Sys2Proof/Laws/Meaning.lean ====
section
/-!
SUPPORT. What the shared operations behind the meanings answer: one lemma for each.
-/
namespace Sys2Proof.Machine

open Sys2Proof

-- Events and commands -----------------------------------------------------------------------------------------

/-- An event whose condition holds takes its effect. -/
theorem actIf_true {b : Bool} {f : State → State} {s : State} (h : b = true) : actIf b f s = .next (s.after f) := by subst h; rfl

theorem actIf_false {b : Bool} {f : State → State} {s : State} (h : b = false) : actIf b f s = .next s := by subst h; rfl

theorem actAllIf_true {b : Bool} {f : State → State} {s : State} (h : b = true) : actAllIf b f s = .next (s.afterAll f) := by subst h; rfl

theorem actAllIf_false {b : Bool} {f : State → State} {s : State} (h : b = false) : actAllIf b f s = .next s := by subst h; rfl

/-- All that an event can do: nothing, or its effect. -/
theorem actIf_cases {b : Bool} {f : State → State} {s t : State} (h : actIf b f s = .next t) : t = s ∨ b = true ∧ t = s.after f := by
  cases b with
  | false => exact .inl (by injection h with h; exact h.symm)
  | true => exact .inr ⟨rfl, by injection h with h; exact h.symm⟩

theorem actAllIf_cases {b : Bool} {f : State → State} {s t : State} (h : actAllIf b f s = .next t) : t = s ∨ b = true ∧ t = s.afterAll f := by
  cases b with
  | false => exact .inl (by injection h with h; exact h.symm)
  | true => exact .inr ⟨rfl, by injection h with h; exact h.symm⟩

/-- An event answers a next state and leaves the queue, the clock and the fuses. -/
theorem actIf_next (b : Bool) (f : State → State) (s : State) :
    ∃ t, actIf b f s = .next t ∧ t.pending = s.pending ∧ t.clock = s.clock ∧ t.fuses = s.fuses := by
  cases b with
  | false => exact ⟨s, rfl, rfl, rfl, rfl⟩
  | true => exact ⟨_, rfl, rfl, rfl, rfl⟩

theorem actAllIf_next (b : Bool) (f : State → State) (s : State) : ∃ t, actAllIf b f s = .next t ∧ t.pending = s.pending := by
  cases b with
  | false => exact ⟨s, rfl, rfl⟩
  | true => exact ⟨_, rfl, rfl⟩

-- The control core ---------------------------------------------------------------------------------------------

theorem ctl_next {c : CoreId} {i : Instr} {f : Core → Core} {s : State} (h : s.runs c i = true) :
    ctl c i f s = .next (s.cored c (f (s.core c))) := actIf_true h

theorem ctlRd_next {c : CoreId} {i : Instr} {rd : GReg} {v : Core → Word} {s : State} (h : s.runs c i = true) :
    ctlRd c i rd v s = .next (s.wrote c rd (v (s.core c))) := actIf_true h

theorem alu_next {c : CoreId} {i : Instr} {rd a b : GReg} {f : Word → Word → Word} {s : State} (h : s.runs c i = true) :
    alu c i rd a b f s = .next (s.wrote c rd (f ((s.core c).gr a) ((s.core c).gr b))) := actIf_true h

-- The queues ---------------------------------------------------------------------------------------------------

theorem vqRun_does {i : Instr} {c : CoreId} {opc : Nat} {chk : State → Cmd → Nat → Bool} {rep : Cmd → Nat → State → State}
    (h : ∀ s, exec i s = vqRun c opc chk rep s) : VqDoes i c opc chk rep := by
  intro s hd hi ho hn hc
  rw [h]
  simp only [vqRun, hi]
  refine (actIf_true (decide_eq_true ho)).trans ?_
  simp only [State.after, hn, hc, if_true, if_false]

theorem startCmd_does {i : Instr} {c : CoreId} {q opc : Nat} {chk : State → Cmd → Nat → Bool}
    (h : ∀ s, exec i s = startCmd c q opc chk s) : StartDoes i c q opc chk := by
  intro s hd hi ho hf hn hc
  rw [h]
  simp only [startCmd, hi]
  refine (actIf_true (by simp [ho, hf])).trans ?_
  simp only [State.after, hn, hc, if_false, if_true]

theorem finishCmd_does {i : Instr} {c : CoreId} {q opc : Nat} {rep : Cmd → Nat → State → State}
    (h : ∀ s, exec i s = finishCmd c q opc rep s) : FinishDoes i c q opc rep := by
  intro s f l hf ho hc
  rw [h]
  simp only [finishCmd, hf]
  exact actIf_true (by simp [ho, hc])

-- Frames -------------------------------------------------------------------------------------------------------

theorem consume_takes {op : Src → Instr} {u : Machine.Unit} (h : ∀ f s, exec (op f) s = consume u f s) : TakenBy op u :=
  fun f s hf => (h f s).trans (actIf_true hf)

-- Control space ------------------------------------------------------------------------------------------------

theorem ctlWrite_ok {w : Option Who} {r : Reg} {i : Nat} {v : Word} {s : State} (h : s.ctlCheck w r i v = none) :
    ctlWrite w r i v s = (true, ctlApply r i v s) := by simp [ctlWrite, h]

theorem State.accepts_on {b : Party} {r : Reg} {i : Nat} {v : Word} {s : State} (h : s.accepts b r i v = true) : s.kettleOn = true := by
  simp only [State.accepts, Bool.and_eq_true] at h
  exact h.1.1.1

/-- An accepted write is applied. -/
theorem partyWrite_ok {b : Party} {r : Reg} {i : Nat} {v : Word} {s : State} (h : s.accepts b r i v = true) :
    partyWrite b (r.off i) v s.hushed = ctlApply r i v s.hushed := by
  simp only [State.accepts, Bool.and_eq_true, decide_eq_true_eq] at h
  obtain ⟨⟨⟨-, h2⟩, h3⟩, h4⟩ := h
  cases b with
  | oob =>
    simp only [decide_eq_true_eq] at h4
    simp only [partyWrite, oobWriteAt, h2, ctlWrite_ok h4]
  | fnid n =>
    simp only [decide_eq_true_eq, Bool.and_eq_true] at h4
    simp [partyWrite, h2, h3, h4.1, ctlWrite_ok h4.2]

/-- A row that writes one register does what the register's effect is on the values that the row asks for. -/
theorem regRow_does {op : Party → Word → Instr} {r : Reg} {i : Nat} {ask : State → Word → Bool} {eff : Word → Word → Word → State → State}
    (hx : ∀ b v s, exec (op b v) s = regRow (fun s => ask s v) b r i v s) (hh : ∀ (s : State) (v : Word), ask s.hushed v = ask s v)
    (he : ∀ (s : State) (v : Word) (t : State), ask s v = true →
      ctlEffect r i (ctlRead s r i) (ctlNew r i (ctlRead s r i) v) v t = eff (ctlRead s r i) (ctlNew r i (ctlRead s r i) v) v t) :
    WriteDoes op r i ask eff := by
  intro b v s ha hk
  rw [hx]
  refine (actIf_true ?_).trans ?_
  · simp only [State.accepts_on ha, Bool.true_and]
    rw [← hh]
    exact hk
  · simp only [State.after]
    rw [partyWrite_ok ha, ctlApply, he s.hushed v _ hk]

end Sys2Proof.Machine
end

