-- ==== Sys2Proof/Laws/Memory.lean ====
section
/-!
SUPPORT. Every operation over the byte memories keeps their canonical form: writes of bytes to HBM, Rod and instruction memory, and programming and
erasing flash.
-/
namespace Sys2Proof.Machine

open Sys2Proof

/-- Programming flash keeps the canonical form. -/
theorem wf_flashProg (a : Nat) (bs : List Byte) (m : SMap Byte) (h : Memory.wf 0xFF m = true) : Memory.wf 0xFF (flashProg a bs m) = true := by
  induction bs generalizing a m with
  | nil => exact h
  | cons b t ih => exact ih _ _ (SMap.wf_put m _ _ _ h)

/-- Erasing a sector of flash keeps the canonical form. -/
theorem wf_flashErase (a : Nat) (m : SMap Byte) (h : Memory.wf 0xFF m = true) : Memory.wf 0xFF (flashErase a m) = true := by
  obtain ⟨h1, h2⟩ := SMap.wf_iff.1 h
  refine SMap.wf_iff.2 ⟨?_, fun x hx => h2 x (List.mem_of_mem_filter hx)⟩
  exact h1.sublist (List.Sublist.map _ List.filter_sublist)

/-- A control core's or an engine's write to Rod memory keeps its canonical form. -/
theorem wf_wrMem (k : Core) (a : Nat) (bs : List Byte) (h : Memory.wf 0 k.rmem = true) : Memory.wf 0 (k.wrMem a bs).rmem = true :=
  Mem.wf_wr k.rmem 0 a bs h

/-- What becomes good again of HBM's ECC changes no byte of it. -/
theorem hbmHeal_hbm (o n : Nat) (s : State) : (hbmHeal o n s).hbm = s.hbm ∧ (hbmHeal o n s).cores = s.cores ∧ (hbmHeal o n s).kettle = s.kettle := by
  have : ∀ (l : List Nat) (t : State), (eachDo l (fun w s => { s with hbmUe := s.hbmUe.put false w false }) t).hbm = t.hbm ∧
      (eachDo l (fun w s => { s with hbmUe := s.hbmUe.put false w false }) t).cores = t.cores ∧
      (eachDo l (fun w s => { s with hbmUe := s.hbmUe.put false w false }) t).kettle = t.kettle := by
    intro l
    induction l with
    | nil => exact fun t => ⟨rfl, rfl, rfl⟩
    | cons x l ih => exact fun t => ih _
  exact this _ _

/-- What a write to router weights opens is no byte of HBM. -/
theorem spoilHbm_hbm (o n : Nat) (s : State) : (spoilHbm o n s).hbm = s.hbm := rfl

/-- A write to HBM keeps its canonical form. -/
theorem wf_memWr_hbm (a : Nat) (bs : List Byte) (s : State) (h : Memory.wf 0 s.hbm = true) : Memory.wf 0 (memWr a bs s).hbm = true := by
  unfold memWr
  split
  · rw [spoilHbm_hbm, (hbmHeal_hbm _ _ _).1]
    exact Mem.wf_wr _ _ _ _ h
  · exact h
  · exact h
  · exact h

end Sys2Proof.Machine
end

