-- ==== Sys2Proof/Laws/Records.lean ====
section
/-!
SUPPORT. What counting, forming records and a core's fault can change: registers, the book and the stream, and of a fault the core.
-/
namespace Sys2Proof.Machine

open Sys2Proof

theorem recOnly_refl (s : State) : s.RecOnly s := rfl

theorem recOnly_trans {s t u : State} (h1 : s.RecOnly t) (h2 : t.RecOnly u) : s.RecOnly u := by
  unfold State.RecOnly at *
  rw [h1] at h2
  exact h2

theorem recOnly_core {s t : State} (h : s.RecOnly t) (c : Nat) : t.core c = s.core c := by
  unfold State.RecOnly at h
  rw [h]
  rfl

theorem recOnly_setReg (s : State) (r : Reg) (i : Nat) (w : Word) : s.RecOnly (s.setReg r i w) := rfl

theorem recOnly_setFld (s : State) (f : Fld) (i v : Nat) : s.RecOnly (s.setFld f i v) := rfl

theorem recOnly_bumpN (s : State) (f : Fld) (i n : Nat) : s.RecOnly (s.bumpN f i n) := rfl

theorem recOnly_bump (s : State) (f : Fld) (i : Nat) : s.RecOnly (s.bump f i) := rfl

theorem recOnly_raise (s : State) (f : Fld) (i v : Nat) : s.RecOnly (s.raise f i v) := rfl

/-- A change for each element in turn, each of registers and records alone. -/
theorem recOnly_eachDo {α : Type} {f : α → State → State} (h : ∀ (x : α) (s : State), s.RecOnly (f x s)) (l : List α) (s : State) : s.RecOnly (eachDo l f s) := by
  induction l generalizing s with
  | nil => exact recOnly_refl s
  | cons x l ih => exact recOnly_trans (h x s) (ih (f x s))

theorem recOnly_bookPut (r : Rec) (s : State) : s.RecOnly (bookPut r s) := by
  unfold bookPut
  dsimp only
  split
  · rfl
  · split
    · rfl
    · split <;> rfl

theorem recOnly_newRec (typ die : Nat) (pay : List Word) (s : State) : s.RecOnly (newRec typ die pay s).2 := rfl

theorem recOnly_flushCoal (s : State) : s.RecOnly (flushCoal s) := by
  unfold flushCoal
  refine recOnly_trans (t := { s with book := _ }) rfl (recOnly_eachDo (fun c s => ?_) _ _)
  dsimp only
  exact recOnly_trans (recOnly_newRec 0x16 c.die [BitVec.ofNat 64 ((c.typ % 256) <<< 56 + (c.die % 256) <<< 48 + c.excess % 2 ^ 32)] s) (recOnly_bookPut _ _)

theorem recOnly_bookEvent (r : Rec) (s : State) : s.RecOnly (bookEvent r s) := by
  unfold bookEvent
  dsimp only
  split
  · exact recOnly_trans (t := { s with book := _ }) rfl (recOnly_bookPut _ _)
  · split
    · exact recOnly_trans (t := { s with book := _ }) rfl (recOnly_bookPut _ _)
    · rfl

theorem recOnly_addRec (typ die : Nat) (pay : List Word) (s : State) : s.RecOnly (addRec typ die pay s) :=
  recOnly_trans (recOnly_flushCoal s) (recOnly_trans (recOnly_newRec typ die pay _) (recOnly_trans (t := { (newRec typ die pay (flushCoal s)).2 with tele := _ }) rfl
    (recOnly_bookEvent _ _)))

theorem recOnly_faultRec (die : Nat) (w2 : Word) (core : Nat) (s : State) : s.RecOnly (faultRec die w2 core s) := recOnly_addRec _ _ _ _

theorem recOnly_raiseFault (f : Fld) (die : Nat) (w2 : Word) (core : Nat) (s : State) : s.RecOnly (raiseFault f die w2 core s) :=
  recOnly_trans (recOnly_setFld _ _ _ _) (recOnly_faultRec _ _ _ _)

theorem recOnly_bookExcess (r : Rec) (s : State) : s.RecOnly (bookExcess r s) := by
  unfold bookExcess
  dsimp only
  split <;> rfl

theorem recOnly_hazard (c : Nat) (h : Hazard) (reg rep : Nat) (pc : BitVec 16) (s : State) : s.RecOnly (hazard c h reg rep pc s) := by
  unfold hazard
  dsimp only
  split
  · split <;> rfl
  · split <;> rfl


/-- All that a fault of a core changes beside registers and records: of a core that is not in FAULT already, STATE, the stall and the error. -/
theorem coreFault_core (c : Nat) (e : RodErr) (q : Nat) (pc : BitVec 16) (s : State) (h : (s.core c).st ≠ .fault) :
    (coreFault c e q pc s).core c = { s.core c with st := .fault, stall := none, err := e.code, errq := q, erraddr := pc, drain := false } := by
  unfold coreFault
  dsimp only
  rw [if_neg h, recOnly_core (recOnly_faultRec _ _ _ _), State.core_setCore_st _ _ _ (by simp)]

theorem coreFault_other (c d : Nat) (e : RodErr) (q : Nat) (pc : BitVec 16) (s : State) (h : d ≠ c) :
    (coreFault c e q pc s).core d = s.core d := by
  unfold coreFault
  dsimp only
  split
  · rw [State.core_setCore_other _ _ _ _ h]
  · rw [recOnly_core (recOnly_faultRec _ _ _ _), State.core_setCore_other _ _ _ _ h]

end Sys2Proof.Machine
end

