-- ==== Sys2Proof/Machine/Package.lean ====
section
/-!
DEFINITION. What the board sees of the package: the supply rails (R395 to R400), the levels of the sideband pins (R402), which lane transmitters are
electrically idle (R410), and the net of each land (R416 to R418).
-/
namespace Sys2Proof.Machine

open Sys2Proof

-- Supplies (Table 15.1) -------------------------------------------------------------------------------------------------------------

/-- The supply rails. -/
inductive Rail where
  | kettle | io33 | hbmVpp | sram | io18 | hbmVdd | core | d2d | serdes | hbmVddq | serdesA
deriving DecidableEq, Repr

/-- Limits of a rail: voltages in mV, the current in mA, and the group of the power-up sequence. -/
structure RailSpec where
  nominal : Nat
  low : Nat
  high : Nat
  absMax : Nat
  current : Nat
  group : Nat
deriving DecidableEq, Repr

/-- Table 15.1. -/
def Rail.spec : Rail → RailSpec
  | .kettle => ⟨800, 776, 824, 950, 16000, 0⟩
  | .io33 => ⟨3300, 3135, 3465, 3800, 500, 0⟩
  | .hbmVpp => ⟨1800, 1746, 1854, 2100, 14000, 1⟩
  | .sram => ⟨800, 776, 824, 950, 120000, 2⟩
  | .io18 => ⟨1800, 1746, 1854, 2100, 1000, 2⟩
  | .hbmVdd => ⟨1100, 1067, 1133, 1500, 220000, 2⟩
  | .core => ⟨750, 728, 772, 900, 1300000, 3⟩
  | .d2d => ⟨750, 728, 772, 900, 60000, 3⟩
  | .serdes => ⟨750, 735, 765, 900, 340000, 3⟩
  | .hbmVddq => ⟨400, 388, 412, 550, 180000, 3⟩
  | .serdesA => ⟨1200, 1176, 1224, 1400, 120000, 4⟩

/-- A voltage in mV lies in the rail's recommended range (R394, R395). -/
def Rail.inRange (r : Rail) (mv : Nat) : Bool := within r.spec.low r.spec.high mv

/-- A rail of groups 1 to 4 other than VDD_CORE is watched at 90 % of its nominal (R400). -/
def Rail.watched (r : Rail) : Bool := r ≠ .core && decide (0 < r.spec.group)

/-- Such a rail has fallen below its level: the case of RAIL_UNDERVOLTAGE (R400). -/
def Rail.under (r : Rail) (mv : Nat) : Bool := r.watched && decide (10 * mv < 9 * r.spec.nominal)

-- Sideband pins (Table 15.3) ----------------------------------------------------------------------------------------------------------

/-- The levels that the board sees with the recommended resistors, true for high; and whether the device drives READY and FABRIC_UP. -/
structure Pins where
  faultN : Bool
  thermtripN : Bool
  alertN : Bool
  ready : Bool
  fabricUp : Bool
  driven : Bool
  presentN : Bool
  spiCsN : Option Bool
deriving DecidableEq, Repr

/-- The output pins. Unpowered and in reset READY and FABRIC_UP are three-stated, which the board sees low; an open-drain pin is high where nothing asserts it;
PRESENT_N is ground inside the package; SPI_CS_N is high unpowered and otherwise none: the Kettle controller drives it as its flash accesses run, which the
manual does not give (R402). -/
def State.pins (s : State) : Pins :=
  { faultN := !s.faultPin
    thermtripN := !(s.kettleOn && s.kettle.trip)
    alertN := !(s.kettleOn && s.kettle.alert)
    ready := s.ready
    fabricUp := s.fabricUp
    driven := s.kettleOn && s.kettle.pwrok && s.kettle.rstn
    presentN := false
    spiCsN := if s.kettleOn then none else some true }

-- Lane transmitters (R407, R410) ------------------------------------------------------------------------------------------------------------

/-- A lane's transmitter is electrically idle: unpowered, in reset, in KETTLE-ONLY, in a thermal trip, in a DISABLED port, or one of lanes 1 and up of a port
in keepalive (R390, R410). -/
def State.laneIdle (s : State) (l : Nat) : Bool :=
  match s.lanePort l with
  | none => true
  | some p => s.kettle.phase ≠ .up || s.lstate p = 0 || ((s.lstate p = 6 || (s.port p).ka = .entering) && l ≠ 4 * p)

/-- The transmit (b = 0) or receive (b = 1) pair of lane l of port p is inverted, as TXINV and RXINV in force say (R406, R407). -/
def State.laneInverted (s : State) (p l b : Nat) : Bool := (s.laneCfgNow p l).getLsbD (32 + b)

/-- The interface that a port forms at full rate: its lanes, and the PMD they meet (R405). -/
def State.interface (s : State) (p : Nat) : Nat × Pmd := ((s.port p).lanes, (s.port p).pmd)

/-- The physical lane that carries logical lane i of a port in one direction, at full rate; reversed bit b of LANE_PMAP: 0 transmit, 1 receive (R407). -/
def State.physLane (s : State) (p i b : Nat) : Nat :=
  let w := if (s.port p).wide then 8 else 4
  if (s.pmapNow p).getLsbD b then 4 * p + w - 1 - i else 4 * p + i

-- Lands (R416 to R418) ------------------------------------------------------------------------------------------------------------------------

/-- What a land carries. -/
inductive Wire where
  | gnd
  | rail (r : Rail)
  | tx (lane : Nat) (positive : Bool)
  | rx (lane : Nat) (positive : Bool)
  | pin (name : String)
deriving DecidableEq, Repr

/-- The row and column of the land at (u, v) of an edge: 0 top, 1 right, 2 bottom, 3 left (R416). -/
def edgeLand (s u v : Nat) : Nat × Nat :=
  match s with
  | 0 => (v, u)
  | 1 => (u, 107 - v)
  | 2 => (107 - v, 107 - u)
  | _ => (107 - u, v)

/-- The (u, v) on an edge of the land at a row and column. -/
def edgeCoord (s row col : Nat) : Nat × Nat :=
  match s with
  | 0 => (col, row)
  | 1 => (row, 107 - col)
  | 2 => (107 - col, 107 - row)
  | _ => (107 - row, col)

/-- The edge of a lane and the first land of its cell (R417). -/
def laneCell (l : Nat) : Nat × Nat × Nat :=
  let k := l / 64
  let j := l % 64
  (k / 2, 22 + 32 * (k % 2) + 2 * (j % 16), 1 + 4 * (j / 16))

/-- The row and column of a lane's land: du 0 for P and 1 for N, dv 0 to transmit and 2 to receive. -/
def laneLand (l du dv : Nat) : Nat × Nat :=
  let (s, u, v) := laneCell l
  edgeLand s (u + du) (v + dv)

/-- The net of the land at (u, v) of an edge among the lane cells: u from 22 to 85, v from 1 to 16 (R417). -/
def cellNet (s u v : Nat) : Wire :=
  let x := u - 22
  let l := 64 * (2 * s + x / 32) + 16 * ((v - 1) / 4) + x % 32 / 2
  match (v - 1) % 4 with
  | 0 => .tx l (x % 2 = 0)
  | 2 => .rx l (x % 2 = 0)
  | _ => .gnd

/-- The strips: v from 18 to 21, u from 22 to 85 (R418). -/
def stripNet (u v : Nat) : Wire :=
  match v with
  | 19 => if u % 2 = 0 then .rail .serdesA else .gnd
  | 20 => if u % 2 = 1 then .rail .serdes else .gnd
  | _ => if u % 2 = 0 then .rail .serdes else .gnd

/-- The corners: u and v from 1 to 21 (R418). -/
def cornerNet (u v : Nat) : Wire :=
  if (u + v) % 2 = 0 then .gnd
  else if v ≤ 7 then .rail .hbmVddq
  else if v ≤ 14 then .rail .hbmVdd
  else if v ≤ 18 then .rail .d2d
  else .rail .hbmVpp

/-- The centre: rows and columns 22 to 85 (R418). -/
def centreNet (row col : Nat) : Wire :=
  if (row + col) % 2 = 0 then .gnd else if row % 8 = 5 && decide (29 ≤ row) then .rail .sram else .rail .core

/-- Table 15.9. -/
def pinRow : Nat → List Wire
  | 1 => [.gnd, .pin "REFCLK_P", .pin "REFCLK_N", .gnd, .pin "MGMT_TXP", .pin "MGMT_TXN", .gnd, .pin "MGMT_RXP", .pin "MGMT_RXN", .gnd]
  | 3 => [.rail .kettle, .gnd, .rail .kettle, .gnd, .rail .kettle, .gnd, .rail .kettle, .gnd, .rail .kettle, .gnd]
  | 4 => [.gnd, .rail .kettle, .gnd, .rail .kettle, .gnd, .rail .kettle, .gnd, .rail .kettle, .gnd, .rail .kettle]
  | 5 => [.rail .kettle, .gnd, .rail .kettle, .gnd, .rail .kettle, .gnd, .rail .io33, .gnd, .rail .io33, .gnd]
  | 6 => [.pin "SPI_CLK", .pin "SPI_CS_N", .pin "SPI_IO0", .pin "SPI_IO1", .pin "SPI_IO2", .pin "SPI_IO3", .pin "SMB_SCL", .pin "SMB_SDA", .rail .io18, .gnd]
  | 7 => [.pin "SYS_PWROK", .pin "SYS_RST_N", .pin "FAULT_N", .pin "THERMTRIP_N", .pin "ALERT_N", .pin "READY", .pin "FABRIC_UP", .pin "PRESENT_N", .rail .io18, .gnd]
  | 8 => [.pin "BOOTSEL", .pin "SMBADDR0", .pin "SMBADDR1", .pin "SMBADDR2", .pin "RECOV", .pin "TCK", .pin "TMS", .pin "TDI", .pin "TDO", .pin "TRST_N"]
  | 9 => [.pin "VSNS0_P", .pin "VSNS0_N", .pin "VSNS1_P", .pin "VSNS1_N", .pin "VSNS2_P", .pin "VSNS2_N", .pin "VSNS3_P", .pin "VSNS3_N", .gnd, .gnd]
  | 10 => [.rail .kettle, .gnd, .rail .kettle, .gnd, .rail .kettle]
  | _ => []

/-- The net of the land at a row and column, each from 1 to 106 (R417, R418). -/
def landNet (row col : Nat) : Wire :=
  if row ≤ 10 && decide (col ≤ 10) then (pinRow row).getD (col - 1) .gnd
  else if within 22 85 row && within 22 85 col then centreNet row col
  else
    match (List.range 4).find? (fun s => let (u, v) := edgeCoord s row col; decide (u ≤ 85) && decide (v ≤ 21)) with
    | none => .gnd
    | some s =>
      let (u, v) := edgeCoord s row col
      if u ≤ 21 then cornerNet u v
      else if v ≤ 16 then cellNet s u v
      else if v = 17 then .gnd
      else stripNet u v

end Sys2Proof.Machine
end

