-- ==== Sys2Proof/Tests/Slice0.lean ====
section
/-!
SUPPORT. Tests of the model's own: ill-formed commands that the checks refuse, words of Table 3.4 read back, single steps worked out by hand from
the manual, and for each statement a state and operands that meet its hypotheses.
-/
namespace Sys2Proof.Tests

open Sys2Proof Sys2Proof.Machine

set_option Elab.async false

-- Helpers ------------------------------------------------------------------------------------------------------------------------------------

/-- A state with Rod core 0 alone. -/
def one (k : Core) : State := { cores := [(0, k)] }

/-- Core 0 in RUN at address 0, where the word of i stands, with g1 to g3 as given. -/
def runCore (i : Instr) (a b d : Word := 0) : Core :=
  { st := .run
    g := SMap.put (SMap.put (SMap.put ([] : SMap Word) 0 1 a) 0 2 b) 0 3 d
    imem := Mem.wr [] 0 0 (bytesLE 4 ((encodeRod i).getD 0).toNat) }

def running (i : Instr) (a b d : Word := 0) : State := one (runCore i a b d)

/-- A command word with the opcode, COUNT and further bits. -/
def cw (opc count : Nat) (more : Nat := 0) : CmdWord := BitVec.ofNat 128 (opc <<< 120 + count <<< 96 + more)

/-- Core 0 in RUN with a command at the head of queue q. -/
def queued (q : Nat) (w : CmdWord) : State := one { st := .run, q := [(q, { wait := [{ w := w }] })] }

/-- Core 0 in RUN with a command in execution in queue q. -/
def flying (q : Nat) (w : CmdWord) (todo : List Nat := []) : State :=
  one { st := .run, q := [(q, { fly := [{ cmd := { w := w }, id := 0, left := [0], todo := todo }] })] }

/-- The step goes on and the state after it is as p says. -/
def goes (o : Host.Outcome State Fault Refusal) (p : State → Bool) : Bool :=
  match o with
  | .next t => p t
  | _ => false

-- Ill-formed commands ------------------------------------------------------------------------------------------------------------------------

def emptyFrame : Frame := { h0 := 0, h1 := 0, h2 := 0, h3 := 0, payload := [], trailer := 0 }

def arrival (f : Frame) : RxFrame := { frame := f, startOk := true, endOk := true, cut := none }

def message (mop : Nat) (data sig : List Byte) : CtlMsg :=
  { w0 := mkWord [(0x4A4D, 48), (1, 40), (mop, 32), (data.length, 0)], w1 := 0, w2 := 0, w3 := 0, data := data, sig := sig, fromAddr := 1, fromPort := 1 }

theorem test_wf_arset : (Instr.arset 0 1 6 2).wellFormed = false ∧ (Instr.arset 0 1 5 2).wellFormed = true := by decide

theorem test_wf_arget : (Instr.arget 0 1 2 15).wellFormed = false := by decide

/-- A control message whose signature is cut. -/
theorem test_wf_message : (Instr.hello (message 0 [] [1])).wellFormed = false ∧ (Instr.hello (message 0 [] [])).wellFormed = true := by decide

/-- A frame of more than 4,096 payload bytes, and one that is cut behind its end. -/
theorem test_wf_frame :
    (Instr.mreqLoad (.port 0 (arrival { emptyFrame with payload := List.replicate 4097 0 }))).wellFormed = false ∧
      (Instr.uncorrectableCodeword 0 (some { arrival emptyFrame with cut := some 1 })).wellFormed = false ∧
      (Instr.mreqLoad (.port 0 (arrival emptyFrame))).wellFormed = true := by decide +kernel

-- Words of Table 3.4 -------------------------------------------------------------------------------------------------------------------------

/-- OP 0x00, RD 4, RS1 5, RS2 6, FN 1. -/
theorem test_word_sub (c : CoreId) : decodeRod c 0b000000_00100_00101_00110_00000000001 = some (.sub c 4 5 6) := rfl

/-- OP 0x09, RD 7, RS1 8, IMM 0x8001. -/
theorem test_word_shori (c : CoreId) : decodeRod c 0b001001_00111_01000_1000000000000001 = some (.shori c 7 8 0x8001) := rfl

/-- OP 0x13: the RD position holds the register stored. -/
theorem test_word_sw (c : CoreId) : decodeRod c 0b010011_00011_00010_0000000000000100 = some (.sw c 3 2 4) := rfl

/-- OP 0x1D. -/
theorem test_word_bgeu (c : CoreId) : decodeRod c 0b011101_00001_00010_1111111111111110 = some (.bgeu c 1 2 0xFFFE) := rfl

/-- OP 0x21, FLD 5. -/
theorem test_word_arget (c : CoreId) : decodeRod c 0b100001_00001_00000_0011_0101_00000000 = some (.arget c 1 3 5) := rfl

/-- OP 0x29, queue 3. -/
theorem test_word_qcnt (c : CoreId) : decodeRod c 0b101001_00001_00000_00000_00000000011 = some (.qcnt c 1 3) := rfl

/-- FLD 6 and a nonzero bit of [7:0] in format S, queue 5, FN 12. -/
theorem test_word_illegal (c : CoreId) :
    decodeRod c 0b100001_00001_00000_0011_0110_00000000 = none ∧ decodeRod c 0b101101_00000_00000_0011_0000_00000001 = none ∧
      decodeRod c 0b101000_00000_00010_00011_00000000101 = none ∧ decodeRod c 0b000000_00001_00010_00011_00000001100 = none :=
  ⟨rfl, rfl, rfl, rfl⟩

-- The machine as a whole ---------------------------------------------------------------------------------------------------------------------

theorem reset_memOk : State.reset.MemOk := ⟨rfl, rfl, fun _ => ⟨rfl, rfl⟩⟩

theorem reset_tablesOk : State.reset.TablesOk := by
  constructor <;> simp [State.reset, SMap.Rising]

theorem witness_idleStep : State.reset.pending = [] ∧ State.reset.ClockOk ∧ step State.reset = .next State.reset.tick := ⟨rfl, Nat.le_refl 0, rfl⟩

theorem witness_fuses : exec .jtagIdcode State.reset = .next (State.reset.after (fun t =>
    sends (.jtag ((List.range 32).map (fun i => (0x12610AB7 : BitVec 32).getLsbD i))) (setTap .idcode t))) := rfl

/-- The fuses blow one by one up to the image's security version, and stop there (R371). -/
theorem test_fuses : ({ fuses := { svn := 3 }, kettle := { blow := 5 } } : State).tick.fuses.svn = 4 ∧
    ({ fuses := { svn := 3 }, kettle := { blow := 5 } } : State).tick.tick.tick.fuses.svn = 5 ∧
    (({ fuses := { svn := 3 }, kettle := { blow := 5 } } : State).tick.cold .off 0).tick.fuses.svn = 4 := ⟨rfl, rfl, rfl⟩

theorem witness_hbm : State.reset.TablesOk ∧ State.reset.MemOk ∧ hbmSize - 1 + ([1] : List Byte).length ≤ hbmSize ∧
    0 < hbmSize - 1 ∧ ¬ Reg.off .ROD_CTRL 0 = Reg.off F.ROD_CMD_TALLY_EMPTY.reg 0 ∧ F.ROD_CMD_TALLY_EMPTY.lo + F.ROD_CMD_TALLY_EMPTY.w ≤ 64 :=
  ⟨reset_tablesOk, reset_memOk, by decide, by decide, by decide, by decide⟩

-- Control core -------------------------------------------------------------------------------------------------------------------------------

/-- One instruction of each row of Table 3.4 at the program counter of a running core. -/
def coreRows : List Instr :=
  ([.add 0 1 2 3, .sub 0 1 2 3, .and 0 1 2 3, .or 0 1 2 3, .xor 0 1 2 3, .sll 0 1 2 3, .srl 0 1 2 3, .sra 0 1 2 3, .slt 0 1 2 3, .sltu 0 1 2 3,
    .mul 0 1 2 3, .mulhu 0 1 2 3, .addi 0 1 2 5, .andi 0 1 2 5, .ori 0 1 2 5, .xori 0 1 2 5, .slli 0 1 2 5, .srli 0 1 2 5, .srai 0 1 2 5, .lui 0 1 5,
    .shori 0 1 2 5, .slti 0 1 2 5] : List Instr) ++
  ([.ld 0 1 2 8, .lw 0 1 2 4, .st 0 1 2 8, .sw 0 1 2 4, .beq 0 1 2 4, .bne 0 1 2 4, .blt 0 1 2 4, .bge 0 1 2 4, .bltu 0 1 2 4, .bgeu 0 1 2 4,
    .jal 0 4, .jalr 0 1 2 4, .arset 0 1 2 3, .arget 0 1 2 3, .arstep 0 1 2, .araddr 0 1 2, .push 0 4 1 2, .qcnt 0 1 4, .tsig 0 1, .twait 0 1,
    .tread 0 1 1, .rdstep 0 1, .rdcyc 0 1, .rdent 0 1, .rdid 0 1, .stepend 0, .halt 0] : List Instr)

theorem witness_zeroWord : (Instr.add 5 1 0 0).wellFormed = true ∧ (encodeRod (.add 5 1 0 0)).isSome = true ∧ encodeRod (.add 5 0 0 0) = none := by
  decide +kernel

/-- A store of the memory engine that no token orders meets a load and a store of the control core (R83); one of the control core's own meets neither. -/
theorem test_shared :
    (({ log := [⟨4, 0, 8, 64, true⟩] } : Share).clash 6 (4, 8, false) = [8, 9, 10, 11]) ∧ (({ log := [⟨4, 0, 8, 64, false⟩] } : Share).clash 6 (4, 8, false) = []) ∧
    (({ log := [⟨4, 0, 8, 64, false⟩] } : Share).clash 5 (68, 8, true) = [68, 69, 70, 71]) ∧ (({ log := [⟨5, 0, 8, 64, true⟩] } : Share).clash 6 (8, 8, false) = []) ∧
    ((({ log := [⟨4, 0, 8, 64, true⟩], own := [(4, 1)] } : Share).signal 4 3).take 5 3 1).clash 6 (8, 8, false) = [] := by decide +kernel

theorem witness_runs : coreRows.all (fun i => i.wellFormed && (encodeRod i).isSome && (running i).runs 0 i) = true := by decide +kernel

/-- Loads and stores at an address that R71 permits, the last one among them, and at those that it does not: the first one above, and misaligned ones. -/
theorem witness_loadsAndStores :
    ((runCore (.ld 0 1 2 8) 0 0x7FFF0).gr 2 + (8 : BitVec 16).signExtend 64).toNat = 0x7FFF8 ∧
      ((runCore (.sw 0 1 2 4) 0 0x7FFF8).gr 2 + (4 : BitVec 16).signExtend 64).toNat = 0x7FFFC ∧
      0x80000 ≤ ((runCore (.ld 0 1 2 8) 0 0x7FFF8).gr 2 + (8 : BitVec 16).signExtend 64).toNat ∧
      ((runCore (.st 0 1 2 8) 0 4).gr 2 + (8 : BitVec 16).signExtend 64).toNat % 8 ≠ 0 ∧
      ((runCore (.lw 0 1 2 4) 0 2).gr 2 + (4 : BitVec 16).signExtend 64).toNat % 4 ≠ 0 ∧
      0x80000 ≤ ((runCore (.sw 0 1 2 4) 0 0x7FFFC).gr 2 + (4 : BitVec 16).signExtend 64).toNat := by decide +kernel

/-- 2^63 - 1 + 1 wraps; a write to g0 is discarded; the program counter passes the instruction. -/
theorem test_add : goes (exec (.add 0 1 2 3) (running (.add 0 1 2 3) 0 0x7FFFFFFFFFFFFFFF 1))
    (fun t => (t.core 0).gr 1 = 0x8000000000000000 && (t.core 0).pc = 4) = true ∧
    goes (exec (.add 0 0 2 3) (running (.add 0 0 2 3) 0 5 6)) (fun t => (t.core 0).gr 0 = 0 && (t.core 0).pc = 4) = true := by decide +kernel

/-- The high half of (2^64 - 1)². -/
theorem test_mulhu : goes (exec (.mulhu 0 1 2 3) (running (.mulhu 0 1 2 3) 0 0xFFFFFFFFFFFFFFFF 0xFFFFFFFFFFFFFFFF))
    (fun t => (t.core 0).gr 1 = 0xFFFFFFFFFFFFFFFE) = true := by decide +kernel

/-- A shift takes the six low bits of its count; SRA keeps the sign. -/
theorem test_shift : goes (exec (.sll 0 1 2 3) (running (.sll 0 1 2 3) 0 1 65)) (fun t => (t.core 0).gr 1 = 2) = true ∧
    goes (exec (.sra 0 1 2 3) (running (.sra 0 1 2 3) 0 0x8000000000000000 63)) (fun t => (t.core 0).gr 1 = 0xFFFFFFFFFFFFFFFF) = true := by
  decide +kernel

/-- LUI sign-extends and shifts by 16; ANDI does not sign-extend. -/
theorem test_immediates : goes (exec (.lui 0 1 0x8000) (running (.lui 0 1 0x8000))) (fun t => (t.core 0).gr 1 = 0xFFFFFFFF80000000) = true ∧
    goes (exec (.andi 0 1 2 0x8000) (running (.andi 0 1 2 0x8000) 0 0xFFFFFFFFFFFFFFFF)) (fun t => (t.core 0).gr 1 = 0x8000) = true := by
  decide +kernel

/-- A branch back by one instruction from address 0 wraps to 0xFFFC; JALR clears the two low bits, and links. -/
theorem test_jumps : goes (exec (.beq 0 1 2 0xFFFF) (running (.beq 0 1 2 0xFFFF) 7 7)) (fun t => (t.core 0).pc = 0xFFFC) = true ∧
    goes (exec (.jalr 0 3 1 3) (running (.jalr 0 3 1 3) 0x100)) (fun t => (t.core 0).pc = 0x100 && (t.core 0).gr 3 = 4) = true := by decide +kernel

/-- A word stored with SW is read back zero-extended by LW. -/
theorem test_sw : goes (exec (.sw 0 1 2 4) (running (.sw 0 1 2 4) 0xFFFFFFFF80000001 0))
    (fun t => Mem.rdN (t.core 0).rmem 0 4 8 = 0x80000001) = true := by decide +kernel

/-- An address register of COUNT 2 at IDX 1 wraps: IDX 0, OFF + WRAP (R74). -/
theorem test_step : (AReg.step { base := 16, off := 8, stride := 8, count := 2, wrap := 0xFFFFFFF8, idx := 1 }) =
    { base := 16, off := 0, stride := 8, count := 2, wrap := 0xFFFFFFF8, idx := 0 } := by decide +kernel

theorem witness_strict : ((running (.rdcyc 0 1)).setFld F.GLOBAL_MODE_STRICT 0 1).strict = true ∧
    ((running (.rdent 0 1)).setFld F.GLOBAL_MODE_STRICT 0 1).runs 0 (.rdent 0 1) = true ∧
    ((running (.rdcyc 0 1)).setFld F.GLOBAL_MODE_STRICT 0 1).runs 0 (.rdcyc 0 1) = true ∧ (running (.rdent 0 1)).strict = false := by decide +kernel

/-- 2.0 GHz: 128 ticks a cycle. -/
theorem test_rdcyc : goes (exec (.rdcyc 0 1) { running (.rdcyc 0 1) with clock := { ktick := 1000, rtick := 232 } })
    (fun t => (t.core 0).gr 1 = 6) = true := by decide +kernel

/-- A PUSH that passes the checks into an empty and into a full queue, one that fails them, and a stalled one with room. -/
theorem witness_push :
    cmdOk 4 (pushWord (runCore (.push 0 4 1 2)) 1 2) = true ∧ (runCore (.push 0 4 1 2)).qlen 4 < 32 ∧
      (one { runCore (.push 0 4 1 2) with q := [(4, { wait := List.replicate 32 { w := cw 0 1 } })] }).runs 0 (.push 0 4 1 2) = true ∧
      32 ≤ ({ runCore (.push 0 4 1 2) with q := [(4, { wait := List.replicate 32 { w := cw 0 1 } })] } : Core).qlen 4 ∧
      cmdOk 4 (pushWord (runCore (.push 0 4 1 2) 0 0xFF00000000000000) 1 2) = false ∧ (one { st := .run, stall := some (.push 4 1 2) }).clocked 0 = true := by
  decide +kernel

/-- Tokens: a count of 1 with TWAIT stalled on it; with a queue's head waiting too; and a count of 255. -/
theorem witness_tokens :
    (let k : Core := { st := .run, tok := [(3, 1)], stall := some (.twait 3), q := [(1, { wait := [{ w := cw 0 1 (1 <<< 119 + 3 <<< 115) }] })] };
      (one k).tokWaited 0 3 = true ∧ (one k).headWaits 0 1 3 = true ∧ (one k).headWaits 0 0 3 = false ∧ k.issues = true ∧ (one k).clocked 0 = true) ∧
      (let k : Core := { runCore (.tsig 0 3) with tok := [(3, 255)] };
        (one k).runs 0 (.tsig 0 3) = true ∧ k.tok.lk 0 3 = 255) := by decide +kernel

/-- TWAIT leaves the count to a queue that waits for it (R80). -/
theorem test_twait : goes (exec (.twait 0 3) (one { runCore (.twait 0 3) with tok := [(3, 1)], q := [(1, { wait := [{ w := cw 0 1 (1 <<< 119 + 3 <<< 115) }] })] }))
    (fun t => (t.core 0).stall = some (.twait 3) && (t.core 0).tok.lk 0 3 = 1) = true ∧
    goes (exec (.twait 0 3) (one { runCore (.twait 0 3) with tok := [(3, 1)] })) (fun t => (t.core 0).stall = none && (t.core 0).tok.lk 0 3 = 0) = true := by
  decide +kernel

/-- A bad command faults the core, and what was queued before it goes on: an SNOP completes (R77). -/
theorem test_badcmd : goes (exec (.push 0 4 1 2) (one { runCore (.push 0 4 1 2) 0 0xFF00000000000000 with q := [(2, { wait := [{ w := cw 0 1 }] })] }))
    (fun t => (t.core 0).st = .fault && (t.core 0).err = 3 && goes (exec (.snop 0) t) (fun u => (u.core 0).qlen 2 = 0 && (u.core 0).st = .fault)) = true := by
  decide +kernel

/-- The head of FQ waits for token 3 and, being an FSYNC without reply space, takes no count; with space it does so at its own row (R80, R96). -/
theorem test_requestToken :
    (let k : Core := { st := .run, tok := [(3, 1)], q := [(3, { wait := [{ w := cw 4 1 (1 <<< 119 + 3 <<< 115) }] })] };
     let s : State := (one k).setFld F.CADDY_QUOTA_CEIL (coreSlot 0) 8 |>.setFld F.CADDY_POOL_COUNT 0 64;
      (one k).headWaits 0 3 3 = false ∧ s.headWaits 0 3 3 = true ∧ s.tokWaited 0 3 = false ∧ s.canIssue 0 3 = true) := by decide +kernel

theorem witness_steps :
    (let k : Core := { st := .run, stall := some .stepEnd };
      (one k).clocked 0 = true ∧ (one k).bit F.ROD_CTRL_HALT 0 = false ∧ ∀ q : Fin 5, k.qlen q = 0) ∧
      (let s := one { st := .run, imem := [(3, 0xFC)] };
        s.executing 0 = true ∧ decodeRod 0 (s.core 0).fetch = none) ∧
      (let s := (queued 0 (cw 4 1 (1 <<< 119))).setFld F.ROD_STALL_LIMIT_LIMIT 0 5;
        s.fld F.ROD_STALL_LIMIT_LIMIT 0 ≠ 0 ∧ s.stalled 0 (.queue 0) = true) ∧
      (one { st := .loaded }).bit F.ROD_CTRL_HALT 0 = false ∧ ((one { st := .run, held := true }).core 0).held = true := by decide +kernel

/-- The release of a loaded core: RUN at ENTRY (R65). -/
theorem test_release : (let t := releaseCore 0 0 ((one { st := .loaded, pc := 8 }).setFld F.ROD_ENTRY_ENTRY 0 0x40);
    (t.core 0).st = .run ∧ (t.core 0).pc = 0x40) := by decide +kernel

-- Engines ------------------------------------------------------------------------------------------------------------------------------------

/-- The state with core 0 named by a Brew in slot 0 that has all Beads, one seed and a quota, with buffers to draw on. -/
def brewed (s : State) : State :=
  { s with brews := [(0, some { cores := [0], beadFirst := 0, beadLast := 8191, nseed := 1 })] }.setFld F.SCHED_SEEDN_NSEED 0 1 |>.setFld
    F.CADDY_QUOTA_CEIL (coreSlot 0) 8 |>.setFld F.CADDY_POOL_COUNT 0 64

/-- The head command of queue q with opcode opc issues, and passes a check in its one repeat. -/
def passes (q opc : Nat) (chk : State → Cmd → Nat → Bool) : Bool :=
  let s := brewed (queued q (cw opc 1))
  let h : Cmd := { w := cw opc 1 }
  s.issuable 0 q = some h && cwOpc h.w = opc && cwCount h.w = 1 && ((s.core 0).queue q).fly.isEmpty && s.fld F.SCHED_SEEDN_NSEED 0 = 1 &&
    chk (if q = 0 then vqIssue 0 h s.hushed else popHead 0 q s.hushed) h 0

theorem witness_vectorLanes : ([0x00, 0x03, 0x04, 0x05, 0x06, 0x07, 0x08, 0x09, 0x0A, 0x0B, 0x0C, 0x0D, 0x0E, 0x0F, 0x10, 0x11, 0x12, 0x13, 0x16, 0x17,
    0x18] : List Nat).all (fun o => passes 0 o vqFree) = true ∧ passes 0 0x01 (vqMem 4 256) = true ∧
    passes 0 0x14 (fun k h r => vqMem 1 ((cwFinF h.w).tensorBytes 64) k h r) = true := by decide +kernel

theorem witness_storesAndBeads :
    passes 0 0x02 (vqMem 1 256) = true ∧ passes 0 0x15 (fun k h r => vqMem 1 ((cwFoutF h.w).tensorBytes 64) k h r) = true ∧
      passes 0 0x20 (fun k h r => vqMem 4 ((cwFinF h.w).tensorBytes 64) k h r) = true ∧
      passes 0 0x21 (beadArgs 0 4 64 (fun h => (cwFinF h.w).tensorBytes 64)) = true ∧
      passes 0 0x22 (beadArgs 0 4 64 (fun h => (cwFinF h.w).tensorBytes 64)) = true ∧ passes 0 0x23 (beadArgs 0 16 64 (fun _ => 1024)) = true ∧
      passes 0 0x24 (beadArgs 0 4 64 (fun h => (cwFoutF h.w).tensorBytes 64)) = true ∧ passes 0 0x25 (beadArgs 0 16 64 (fun _ => 1024)) = true ∧
      passes 0 0x26 (beadArgs 0 0 64 (fun _ => 0)) = true ∧ passes 0 0x27 (vqMem 4 32) = true ∧
      passes 0 0x28 (fun k h r => beadArgs 0 4 256 (fun _ => tileBytes (cwFinF h.w) (Mem.rd (k.core 0).rmem 0 (h.xAddr r) 1028)) k h r) = true := by
  decide +kernel

/-- VIADD of V1 and V2 into V3: the sum is visible from slot 2 on (R84). -/
def vectorCore : Core :=
  { st := .run, v := [(1, List.replicate 64 0xFFFFFFFF), (2, List.replicate 64 2)], q := [(0, { wait := [{ w := cw 4 1 (3 <<< 15 + 1 <<< 10 + 2 <<< 5) }] })] }

theorem test_viadd : goes (exec (.viadd 0) (one vectorCore))
    (fun t => (t.core 0).vreg 3 = List.replicate 64 0 && ((commitVec 0 2 t).core 0).vreg 3 = List.replicate 64 1) = true := by decide +kernel

theorem witness_vectorLatency : (State.reset.core 0).vpend = [] ∧ (List.replicate 64 (0 : Lane)).length = 64 := ⟨rfl, rfl⟩

/-- A command of VQ whose ARX is 2 or as given (for BCLR: whose ARY is 1), which its check refuses, on a core in RUN. -/
def refused (opc : Nat) (chk : State → Cmd → Nat → Bool) (ax : BitVec 48 := 2) : Bool :=
  let h : Cmd := { w := cw opc 1, x := { base := ax }, y := { base := if opc = 0x26 then 1 else 0 } }
  let s := brewed (one { st := .run, q := [(0, { wait := [h] })] })
  s.issuable 0 0 = some h && (s.core 0).st = .run && cwCount h.w = 1 && !chk (vqIssue 0 h s.hushed) h 0

/-- And a store whose last byte is the first above Rod memory. -/
theorem witness_vectorRange : refused 0x01 (vqMem 4 256) = true ∧ refused 0x21 (beadArgs 0 4 64 (fun h => (cwFinF h.w).tensorBytes 64)) = true ∧
    refused 0x23 (beadArgs 0 16 64 (fun _ => 1024)) = true ∧ refused 0x25 (beadArgs 0 16 64 (fun _ => 1024)) = true ∧
    refused 0x26 (beadArgs 0 0 64 (fun _ => 0)) = true ∧ refused 0x27 (vqMem 4 32) = true ∧
    refused 0x14 (fun k h r => vqMem 1 ((cwFinF h.w).tensorBytes 64) k h r) 0x7FFFF = true ∧
    refused 0x15 (fun k h r => vqMem 1 ((cwFoutF h.w).tensorBytes 64) k h r) 0x7FFFF = true ∧
    refused 0x20 (fun k h r => vqMem 4 ((cwFinF h.w).tensorBytes 64) k h r) = true ∧
    refused 0x22 (beadArgs 0 4 64 (fun h => (cwFinF h.w).tensorBytes 64)) = true ∧ refused 0x24 (beadArgs 0 4 64 (fun h => (cwFoutF h.w).tensorBytes 64)) = true ∧
    refused 0x28 (fun k h r => beadArgs 0 4 256 (fun _ => tileBytes (cwFinF h.w) (Mem.rd (k.core 0).rmem 0 (h.xAddr r) 1028)) k h r) = true ∧
    (let h : Cmd := { w := cw 1 1, x := { base := 2 } };
     let s := one { st := .fault, drain := true, q := [(0, { wait := [h] })] };
      s.issuable 0 0 = some h ∧ vqMem 4 256 (vqIssue 0 h s.hushed) h 0 = false) ∧
    vqMem 1 256 State.reset { w := cw 2 1, x := { base := 0x7FF01 } } 0 = false ∧
    vqMem 1 256 State.reset { w := cw 2 1, x := { base := 0x7FF00 } } 0 = true := by decide +kernel

theorem witness_emptyCommands : ([1, 2, 4] : List Nat).all (fun q => passes q 0 vqFree) = true ∧ passes 3 0 vqFree = true ∧
    ((queued 3 (cw 0 1)).core 0).fqFree = true ∧
    (((List.range 0x19 ++ (List.range 9).map (· + 0x20)).map (0, ·) ++ ([0, 1] : List Nat).map (1, ·) ++ (List.range 8).map (2, ·) ++
        (List.range 6).map (3, ·) ++ (List.range 4).map (4, ·)) : List (Nat × Nat)).all (fun x =>
      (queued x.1 (cw x.2 0)).issuable 0 x.1 = some { w := cw x.2 0 } && cwOpc (cw x.2 0) = x.2 && cwCount (cw x.2 0) = 0 &&
        !cwWv (cw x.2 0) && !cwSv (cw x.2 0) && ((queued x.1 (cw x.2 0)).core 0 |>.queue x.1).fly.isEmpty) = true ∧
    (let w := cw 0 0 (1 <<< 119 + 3 <<< 115); let v := cw 0 0 (1 <<< 114 + 5 <<< 110);
      cwWv w = true ∧ cwSv w = false ∧ cwWtk w = 3 ∧ cwWv v = false ∧ cwSv v = true ∧ cwStk v = 5 ∧ (one { st := .run, tok := [(5, 254)] }).core 0 ≠ {} ∧
        ((one { st := .run, tok := [(5, 254)] }).core 0).tok.lk 0 5 ≠ 255) := by
  decide +kernel

theorem witness_engineStart :
    passes 1 0x01 (tmmOk1 0) = true ∧
      passes 2 0x01 (fun _ h r => sqArgs [(h.xAddr r, 8 * cwImm h.w)] (h.yAddr r, 8 * sqK h (cwImm h.w))) = true ∧
      passes 2 0x02 (fun _ h r => sqArgs [(h.xAddr r, 8 * immLo h), (h.zAddr r, 8 * immHi h)] (h.yAddr r, 8 * sqK h (immLo h + immHi h))) = true ∧
      passes 2 0x07 (fun s h r => sqArgs [] (h.yAddr r, 8) && (s.brewSeed 0 (cwXarg h.w % 256)).isSome) = true ∧
      passes 4 0x01 (mcopyOk 0) = true ∧ passes 4 0x02 (fun s h r => mqOk 0 (mqY h) true (h.yAddr r) (mfillLen h) s) = true := by decide +kernel

/-- SFILT, SCOMP, SSCAN and SPICK over one record or word, and MGATHER of zero bytes a row, at addresses apart. -/
theorem witness_engineStart_more :
    (let h (opc imm : Nat) : Cmd := { w := cw opc 1 (imm <<< 64), y := { base := 0x1000 }, z := { base := 0x2000 } };
     let s := brewed (queued 2 (cw 3 1));
      sqArgs [((h 3 1).xAddr 0, 8 * cwImm (h 3 1).w), ((h 3 1).zAddr 0, 8)] ((h 3 1).yAddr 0, 8 + 8 * (sfiltOut 0 s (h 3 1) 0).length) = true ∧
      sqArgs [((h 4 1).xAddr 0, 4 * cwImm (h 4 1).w), ((h 4 1).zAddr 0, 4 * cwImm (h 4 1).w)]
        ((h 4 1).yAddr 0, 8 + 4 * (scompOut 0 s (h 4 1) 0).length) = true ∧
      sqArgs [((h 5 1).xAddr 0, 4 * cwImm (h 5 1).w)] ((h 5 1).yAddr 0, 8 * cwImm (h 5 1).w) = true ∧
      sqArgs [((h 6 1).xAddr 0, 8 * immLo (h 6 1)), ((h 6 1).zAddr 0, 8)] ((h 6 1).yAddr 0, 8) = true ∧
      mqOk 0 0 false ((h 3 0).zAddr 0) 256 s = true ∧
      (List.range 64).all (fun i => mgatherRowOk 0 (h 3 0) 0 i ((mgatherIdx 0 (h 3 0) 0 s).getD i 0) s) = true) := by decide +kernel

theorem witness_engineFinish :
    ([(1, 1), (2, 1), (2, 2), (2, 3), (2, 4), (2, 5), (2, 6), (2, 7), (4, 1), (4, 2), (4, 3)] : List (Nat × Nat)).all (fun x =>
      !((flying x.1 (cw x.2 1)).core 0 |>.queue x.1).fly.isEmpty && (flying x.1 (cw x.2 1)).clocked 0 && cwOpc (cw x.2 1) = x.2) = true ∧
    ((flying 1 (cw 1 1)).core 0).st ≠ .idle := by decide +kernel

/-- MFILL of 16 words at ARY. -/
def fillCore : Core :=
  { st := .run, q := [(4, { fly := [{ cmd := { w := cw 2 1 (0x01020304 <<< 64 + 16 <<< 32), y := { base := 64 } }, id := 0, left := [0] }] })] }

theorem test_mfill : goes (exec (.mfillComplete 0) (one fillCore)) (fun t => Mem.rdN (t.core 0).rmem 0 64 4 = 0x01020304) = true := by decide +kernel

theorem witness_fabricEngine :
    ([1, 2, 3, 4, 5] : List Nat).all (fun o => fqHead 0 o (queued 3 (cw o 1)) = some { w := cw o 1 }) = true ∧
      (fsendNext 0 (brewed (flying 3 (cw 1 1) [0]))).isSome = true ∧ ((queued 3 (cw 3 1)).core 0).fqSending = none ∧
      (queued 3 (cw 3 1)).strict = false ∧ fmemFadd 0 { w := cw 3 1 } (queued 3 (cw 3 1)) = false ∧
      (let f : Fly := { cmd := { w := cw 3 1 }, id := 0, left := [0], todo := [0] };
        let s := brewed (flying 3 (cw 3 1) [0]);
        (s.core 0).fqSending = some f ∧ (requestNext 0 (fmemUnit 0) f s).isSome = true) ∧
      (let f : Fly := { cmd := { w := cw 4 1 }, id := 0, left := [0], todo := [0] };
        let s := brewed (flying 3 (cw 4 1) [0]);
        (s.core 0).fqSending = some f ∧ (requestNext 0 (fsyncUnit 0) f s).isSome = true ∧ s.finishing 0 = true) ∧
      (let q : FReq := { id := 0, rep := 0, dst := 1, seq := 0, ary := 0, rlen := 8 };
        ((one { st := .run, freqs := [q] }).core 0).freqs[0]? = some q ∧ q.sync = false) := by decide +kernel

/-- Under strict mode: FRECV of MODE 1, and FMEM of an FADD32 record at ARX. -/
theorem witness_strictOrder :
    (let s := (queued 3 (cw 2 1 (1 <<< 46))).setFld F.GLOBAL_MODE_STRICT 0 1;
      s.strict = true ∧ fqHead 0 2 s = some { w := cw 2 1 (1 <<< 46) } ∧ cwMode (cw 2 1 (1 <<< 46)) = 1) ∧
    (let s := (one { st := .run, rmem := Mem.wr [] 0 0 (bytesLE 8 (0x1D <<< 48)), q := [(3, { wait := [{ w := cw 3 1 }] })] }).setFld F.GLOBAL_MODE_STRICT 0 1;
      s.strict = true ∧ fqHead 0 3 s = some { w := cw 3 1 } ∧ fmemFadd 0 { w := cw 3 1 } s = true ∧ (s.core 0).fqSending = none) := by decide +kernel

-- Frames ---------------------------------------------------------------------------------------------------------------------------------------

/-- A frame of a kind with H1 and a payload, to this switch unless dst says otherwise. -/
def fr (kind h1 : Nat) (pay : List Byte := []) (dst : Fnid := 0x8000) (src : Fnid := 0) (vc : Nat := 0) : Frame :=
  ({ kind := kind, vc := vc, dst := dst, h1 := BitVec.ofNat 64 h1, payload := pay } : Hdr).frame src 0 0 false

/-- A state in which the frame waits at ingress as stored frame 0, come on port 0. -/
def waits (f : Frame) (p : Option Nat := some 0) : State := { net := { inbox := [0], bufs := [(0, some { frame := f, inPort := p })], nextBuf := 1 } }

/-- The unit is offered the frame that waits. -/
def offers (u : Machine.Unit) (f : Frame) : Bool := u.offered (.inbox 0) (waits f)

/-- Port 0 carries words: present, UP, with credit granted on each VC. -/
def upPort : State :=
  { net := { ports := [(0, { present := true, coord := some 0, acct := (List.range 16).map (fun v => (v, { freed := 64, limit := 64 })) })] } : State }.setLstate 0 5
    |>.setFld F.CADDY_POOL_COUNT 0 64 |>.setFld F.CADDY_QUOTA_CEIL 0 64

/-- A BEAT frame whose START word is bad, one whose HCRC is bad, one that passes, and one with a reserved KIND. -/
theorem witness_frameChecks :
    (let f := fr 9 0;
      f.hcrcOk = true ∧ upPort.headFail 0 f = none ∧ (rxHead 0 (arrival f) upPort).1.isSome = true ∧
        (rxHead 0 { arrival f with startOk := false } upPort).1 = none ∧ { f with h3 := f.h3 ^^^ (1 : Word) <<< 63 : Frame }.hcrcOk = false ∧
        upPort.headFail 0 (fr 12 0) = some F.PORT_RXREJ_KINDERR) ∧
    (let s := waits (fr 6 0 (bytesLE 8 0)); let b : Buf := { frame := fr 6 0 (bytesLE 8 0), inPort := some 0 };
      s.waiting 0 = some (0, b) ∧ tainted b.frame = false ∧ b.fresh = false ∧ s.dropped none b.frame true = none) := by decide +kernel

/-- Epoch 0x8000 accepted: the frame's own, 1 and 32,767 ahead, 1 and 32,768 behind. -/
theorem witness_epochCheck :
    (let s := State.reset.setFld F.GLOBAL_MEPOCH_MEPOCH 0 0x8000; let f (e : Nat) : Frame := { fr 1 0 with h3 := BitVec.ofNat 64 e };
      epochExempt (f 0) = false ∧ s.epochFail (f 0x8000) = none ∧ s.epochFail (f 0x8001) = some F.GLOBAL_MEPOCH_AHEAD ∧
        s.epochFail (f 0xFFFF) = some F.GLOBAL_MEPOCH_AHEAD ∧ s.epochFail (f 0x7FFF) = some F.GLOBAL_MEPOCH_OLD ∧
        s.epochFail (f 0) = some F.GLOBAL_MEPOCH_OLD) := by decide +kernel

theorem witness_collectiveRows :
    ([(1, contribUse), (8, contribUse)] : List (Nat × (Nat → Frame → State → Option State))).all (fun x =>
      offers (collUnit (fun k => k = 1 || k = 0 || decide (8 ≤ k)) x.2) (fr 3 0 (bytesLE 8 x.1) (vc := 6))) = true ∧
    offers (collUnit (fun k => k = 2) expsumUse) (fr 3 0 (bytesLE 8 2) (vc := 6)) = true ∧
    offers (collUnit (fun k => k = 3) gexpUse) (fr 3 0 (bytesLE 8 3) (vc := 6)) = true ∧
    offers (collUnit (fun k => k = 4) partialUse) (fr 3 0 (bytesLE 8 4) (vc := 6)) = true ∧
    offers (collUnit (fun k => k = 5) ltallyUse) (fr 3 0 (bytesLE 8 5) (vc := 6)) = true ∧
    offers (collUnit (fun k => k = 6) resultUse) (fr 3 0 (bytesLE 8 6) (vc := 6)) = true ∧
    offers (collUnit (fun k => k = 7) statusUse) (fr 3 0 (bytesLE 8 7) (vc := 6)) = true ∧
    offers (expUnit (fun k => k ≠ 2 && k ≠ 5) actUse) (fr 4 0 (bytesLE 8 1) (vc := 4)) = true ∧
    offers (expUnit (fun k => k = 2) tendUse) (fr 4 0 (bytesLE 8 2) (vc := 4)) = true ∧
    offers (expUnit (fun k => k = 5) expoutUse) (fr 4 0 (bytesLE 8 5) (vc := 4)) = true ∧ offers cancelUnit (fr 6 0 (bytesLE 8 0)) = true := by
  decide +kernel

/-- H1 of a request: the operation code, and the OFFSET of an object of the Counting board. -/
def onObj (op n : Nat) : Nat := op <<< 48 + 0xF000000000 + 64 * n

theorem witness_memoryRows :
    offers (memUnit (fun op => op ≠ 2 && !isAtomicOp op) loadUse reqWait) (fr 1 (1 <<< 48)) = true ∧
    offers (memUnit (· = 2) storeUse reqWait) (fr 1 (2 <<< 48)) = true ∧
    ((List.range 14).map (· + 0x10)).all (fun op => offers (memUnit (· = op) (atomicUse (fun m _ => m)) loggedWait) (fr 1 (op <<< 48))) = true ∧
    offers mrspUnit (fr 2 0) = true ∧ offers doneUnit (fr 7 (0x40 <<< 48)) = true ∧ offers nackUnit (fr 7 (0x41 <<< 48)) = true ∧
    offers releaseUnit (fr 5 (onObj 0x38 0)) = true := by decide +kernel

theorem witness_syncRows :
    offers (syncUnit (· = 0x30) (fun n => !arriveRowOf n) (fun _ _ s => some s) loggedWait) (fr 5 (onObj 0x30 0)) = true ∧
    ([0x31, 0x32, 0x33] : List Nat).all (fun op => offers (syncUnit (· = op) (fun _ => true) (fun _ _ s => some s) reqWait) (fr 5 (onObj op 0))) = true ∧
    offers (syncUnit (fun op => op ≠ opRelease && !(decide (0x30 ≤ op) && decide (op ≤ 0x33))) (fun _ => true) (fun _ _ s => some s) reqWait)
      (fr 5 (onObj 0x34 0)) = true ∧
    ([0xFFFF, 0xFFF0, 0xFFF7, 0xFFE0, 0xFFE7, 0xFFD0, 0xFFD8, 0xFFDF] : List Nat).all (fun n =>
      offers (syncUnit (· = 0x30) (· = n) (fun _ _ s => some s) loggedWait) (fr 5 (onObj 0x30 n))) = true := by decide +kernel

theorem witness_linkRows :
    ([1, 2, 3, 4, 5, 0x10] : List Nat).all (fun t => offers (mgmtUnit (· = t) (fun _ _ s => s)) (fr 8 (t <<< 56))) = true ∧
    offers (mgmtUnit (fun t => !(decide (1 ≤ t) && decide (t ≤ 5)) && t ≠ 0x10) (fun _ _ s => s)) (fr 8 (6 <<< 56)) = true ∧
    upPort.linked 0 = true ∧ (fr 9 0).kind = 9 ∧ (waits (fr 0 0 [] 5 0 3)).forwardOffered (.inbox 0) = true ∧
    (waits (fr 0 0 [] 0xFFFF 0 3)).mcastOffered (.inbox 0) = true := by decide +kernel

-- Chapter 6's worked example of the sampling function (Table 6.7 and the result below it), with the duplicate that R191 drops.
theorem test_sampling_table_6_7 :
    let kept := candAdd [] [⟨0x40400000, 812⟩, ⟨0x403FF000, 40117⟩, ⟨0x40000000, 7⟩, ⟨0x40000000, 51230⟩, ⟨0x3F800000, 99001⟩, ⟨0x3F800000, 7⟩]
    kept.2 = (0, 1) ∧
      sampleFn kept.1 { sampDesc (fun _ => 0) with ktop := 4, topp := 0xC000, iscale := 0x3F800000, greedy := false } 1 0 =
        ⟨40117, 1, 2146030505, 5367255977, 3, 4, 0⟩ := by decide +kernel

-- Memory requests ------------------------------------------------------------------------------------------------------------------------------

/-- An ADD32 at HBM offset 8, and one at the last four bytes of HBM. -/
theorem witness_atomic :
    ([8, 0x23FFFFFFFC] : List Nat).all (fun o =>
      let f := fr 1 (0x10 <<< 48 + o) (bytesLE 8 5);
      placeOf f.offset = .hbm o && decide (o + atomicWidth f.opc ≤ hbmSize) && !State.reset.hbmUeIn o (atomicWidth f.opc)) = true := by decide +kernel

/-- A STORE of one byte and one that ends at the last byte of HBM. -/
theorem witness_store :
    ([(0, 1), (0x23FFFFFFF8, 8)] : List (Nat × Nat)).all (fun x =>
      let f := fr 1 (2 <<< 48 + x.1) (List.replicate x.2 0xAA);
      let s := waits f;
      placeOf f.offset = .hbm x.1 && f.operand.length = f.len && decide (x.1 + f.len ≤ hbmSize) && !s.hbmGone x.1 && !s.storeUe x.1 f.len &&
        (s.buf 0).isSome && (s.buf 0).map Buf.inPort = some (some 0)) = true := by decide +kernel

/-- The ACK of a store that crossed from die 1 to die 4 keeps a cell of its VC there (R258). -/
theorem test_crossedStore : (let s : State := { net := { inbox := [0], bufs := [(0, some { frame := fr 1 (2 <<< 48) [], inPort := some 0, charge := .cross 1 4 3 2 })] } }
    (ackStore 0 0 s).board.dones.map DoneRec.charge) = [.cross 1 4 3 1] := by decide +kernel

/-- Log entries LIVE and SPENT under the key of the request, and a key that the log does not hold. -/
theorem witness_appliedOnce :
    (let f : Frame := { fr 1 ((0x8010 <<< 48 : Nat) + 8) (bytesLE 8 5) with h2 := (3 : Word) <<< 24 };
     let e (r : Option (Nat × List Byte)) : LogEnt := ⟨0, 3, 0x10, 8, f.operand, r⟩;
     let s (r : Option (Nat × List Byte)) : State := { board := { log := [e r] } };
      (s (some (0, []))).logOf f.src f.tag = some (e (some (0, []))) ∧ (s none).logOf f.src f.tag = some (e none) ∧
        (e none).op = f.op % 2 ^ 15 ∧ (e none).off = f.offset ∧ 2 ^ 15 ≤ f.op ∧
        State.reset.logOf f.src f.tag = none ∧ State.reset.logFull = false) := by decide +kernel

/-- An object whose COUNT has reached TARGET; one that has not; one with TARGET 0. -/
theorem witness_release :
    (let s (c t : Nat) : State := { board := { objs := [(5, { count := c, target := t })] } };
      (s 3 3).obj 5 = { count := 3, target := 3 } ∧ ((s 3 3).obj 5).released = false ∧ ((s 2 3).obj 5).count < ((s 2 3).obj 5).target ∧
        ((s 3 0).obj 5).target = 0) := by decide +kernel

/-- GENERATION counts up to the largest value of its width (R11). -/
theorem test_release_saturates : ((releaseTest 5 9 { board := { objs := [(5, { count := 3, target := 3, gen := 2 ^ 64 - 1 })] } }).obj 5).gen = 2 ^ 64 - 1 := by
  decide +kernel

/-- ARRIVE brings COUNT to TARGET: the object releases, with AUTO at COUNT 0 again. -/
theorem test_release_auto :
    (let s : State := { board := { objs := [(5, { count := 3, target := 3, word2 := 2 ^ 17 })] } };
      ((s.obj 5).auto = true ∧ ((releaseTest 5 9 s).obj 5).count = 0 ∧ ((releaseTest 5 9 s).obj 5).gen = 1 ∧
        ((releaseTest 5 9 s).obj 5).lastSrc = 9)) := by decide +kernel

-- Events of the units --------------------------------------------------------------------------------------------------------------------------

/-- An open instance of descriptor 0 with no members and one block; and an open layer step of layer descriptor 0 with a token. -/
def unitsOpen : State :=
  { coll := { insts := [{ samp := false, desc := 0, slot := 0, inst := 0, grp := 0, step := 0 }] },
    exp := { layers := [{ desc := 0, slot := 0, layer := 0, step := 0, toks := [{ owner := 1, no := 0 }], busy := [⟨0, 1, 0, 0, false⟩] }] },
    net := { unmatched := [0], bufs := [(0, some { frame := fr 3 0 })], nextBuf := 1 } : State }.setReg .SCHED_COLL 2 (1 <<< 40)
    |>.setReg .SCHED_COLL 3 (0xFFFF <<< 16)

theorem witness_unitEvents :
    (let s := unitsOpen;
     let x : Inst := { samp := false, desc := 0, slot := 0, inst := 0, grp := 0, step := 0 };
     let t : Tok := { owner := 1, no := 0 };
     let l : Layer := { desc := 0, slot := 0, layer := 0, step := 0, toks := [t], busy := [⟨0, 1, 0, 0, false⟩] };
     s.instNo 0 0 = some x ∧ s.blockReady (s.descOf x) x 0 = true ∧ s.bit F.ROD_ISLAND_ASLEEP (s.blockCore (s.descOf x) x.step 0 / 4) = false ∧
       s.bit F.GLOBAL_HOLD_INHOLD 0 = false ∧ s.net.unmatched[0]? = some 0 ∧ (s.buf 0).all (fun b => b.only = none) = true ∧
       s.layerNo 0 0 = some l ∧ ([((1 : Fnid), (0 : BitVec 32))] : List (Fnid × BitVec 32)).eraseDups = [(1, 0)] ∧ l.tok 1 0 = some t ∧
       tokReady (s.xdesc l.desc) t = true ∧ (s.routerCores (s.xdesc l.desc)).all (fun c => !s.bit F.ROD_ISLAND_ASLEEP (c / 4)) = true ∧
       l.busy.find? (fun z => z.owner = 1 && z.no = 0 && z.blk = 0) = some ⟨0, 1, 0, 0, false⟩ ∧
       s.bit F.ROD_ISLAND_ASLEEP (s.mapCore ((s.xdesc l.desc).cmbase + 0) / 4) = false) := by decide +kernel

/-- With a HOLD, and with an island asleep that has work: nothing happens (Table 12.8, R386). -/
theorem witness_unitEventsStopped :
    (let s := unitsOpen.setReg .SCHED_XLAYER 1 (32 <<< 54);
     let x : Inst := { samp := false, desc := 0, slot := 0, inst := 0, grp := 0, step := 0 };
     let l : Layer := { desc := 0, slot := 0, layer := 0, step := 0, toks := [{ owner := 1, no := 0 }], busy := [⟨0, 1, 0, 0, false⟩] };
     let asleep (c : Nat) : State := s.setFld F.ROD_ISLAND_ASLEEP (c / 4) 1;
     (s.setFld F.GLOBAL_HOLD_INHOLD 0 1).bit F.GLOBAL_HOLD_INHOLD 0 = true ∧
     (let u := asleep (s.blockCore (s.descOf x) x.step 0); u.instNo 0 0 = some x ∧ u.bit F.ROD_ISLAND_ASLEEP (u.blockCore (u.descOf x) x.step 0 / 4) = true) ∧
     (let u := asleep (((s.routerCores (s.xdesc l.desc)).headD 0));
      u.layerNo 0 0 = some l ∧ (u.routerCores (u.xdesc l.desc)).any (fun c => u.bit F.ROD_ISLAND_ASLEEP (c / 4)) = true) ∧
     (let u := asleep (s.mapCore ((s.xdesc l.desc).cmbase + 0));
      u.layerNo 0 0 = some l ∧ l.busy.find? (fun z => z.owner = 1 && z.no = 0 && z.blk = 0) = some ⟨0, 1, 0, 0, false⟩ ∧
        u.bit F.ROD_ISLAND_ASLEEP (u.mapCore ((u.xdesc l.desc).cmbase + 0) / 4) = true)) := by decide +kernel

/-- Commands that do nothing at the head of each queue: with COUNT 0 or 1, with no token, with one that is granted, with one that is there. -/
theorem witness_nops : ([1, 2, 3, 4] : List Nat).all (fun q =>
    let k (h : Cmd) : Core := { st := .run, tok := [(3, 1)], q := [(q, { wait := [h] })] }
    (one (k { w := 0 })).clocked 0 && (k { w := cw 0 1 }).queue q = { wait := [{ w := cw 0 1 }], fly := [] } &&
      (k { w := cw 0 0 }).queue q = { wait := [{ w := cw 0 0 }], fly := [] } && cwOpc (cw 0 0) = 0 && !cwWv (cw 0 1) &&
      (let w := cw 0 1 (1 <<< 119 + 3 <<< 115)
       cwWv w && cwOpc w = 0 && cwWtk w = 3 && decide ((one (k { w := w })).waitersBefore 0 q 3 < (k { w := w }).tok.lk 0 3) && (k { w := w }).issues)) = true := by decide +kernel

/-- An empty SNOP is counted in EMPTY, an FNOP is not; a frame that no FRECV took in time is gone. -/
theorem test_nop : goes (exec (.snop 0) (queued 2 (cw 0 0))) (fun t => (t.core 0).qlen 2 = 0 && t.fld F.ROD_CMD_TALLY_EMPTY 0 = 1) = true ∧
    goes (exec (.fnop 0) (queued 3 (cw 0 1))) (fun t => (t.core 0).qlen 3 = 0 && t.fld F.ROD_CMD_TALLY_EMPTY 0 = 0) = true ∧
    goes (exec (.collUnmatchedExpiry 0) unitsOpen) (fun t => t.net.unmatched = []) = true := by decide +kernel

-- Resequencer, egress, link words --------------------------------------------------------------------------------------------------------------

/-- Port 0 with a frame at the head of queue 0 and credit to send it. -/
def sending (credit : Nat) : State :=
  { upPort with net := { upPort.net with
      ports := [(0, { present := true, coord := some 0, q := [(0, { ents := [{ buf := 0 }] }), (4, { ents := [{ buf := 1 }] })],
                      acct := [(0, { lastFreed := credit, limit := 64 })] })],
      bufs := [(0, some { frame := fr 8 0 }), (1, some { frame := fr 3 0 (vc := 6) })], nextBuf := 2 } }

theorem witness_reseqAndEgress :
    (let e : RsEntry := { src := 1, dst := 2, nexp := 0, slots := [(3, .held 0)] };
     let s : State := { net := { reseq := [(8, [e, { src := 1, dst := 3, nexp := 0 }])] } };
      s.holds 8 1 2 3 = true ∧ s.entry 8 1 2 = some e ∧ e.learning = true ∧ s.entry 8 1 3 = some { src := 1, dst := 3, nexp := 0 } ∧
        ({ src := 1, dst := 3, nexp := 0 } : RsEntry).anyHeld = false) ∧
    (sending 64).nextQueue 0 = some 0 ∧ (sending 64).linked 0 = true ∧ ((sending 64).port 0).tx = none ∧
    (((sending 0).port 0).queue 4).live[0]? = some { buf := 1 } ∧ (sending 0).starved 0 4 = true ∧
    (({ net := { ports := [(0, { tx := some (0, 1) })] } } : State).port 0).tx = some (0, 1) := by decide +kernel

/-- CREDIT and CSYNC words with a good CHK; a word with a bad one, and one of a type that Table 7.5 does not hold. -/
theorem witness_linkWords :
    upPort.linked 0 = true ∧ lwGood (linkWord 0xC1 3 100) = true ∧ lwType (linkWord 0xC1 3 100) = 0xC1 ∧ lwVc (linkWord 0xC1 3 100) = 3 ∧
      lwCount (linkWord 0xC1 3 100) = 100 ∧ lwGood (linkWord 0xC2 3 100) = true ∧ lwType (linkWord 0xC2 3 100) = 0xC2 ∧
      lwGood (linkWord 0xC1 3 100 ^^^ 1) = false ∧ lwKnown (linkWord 0x12 0 0) = false ∧ (upPort.port 0).resync = false ∧
      ((upPort.modPort 0 (fun x => { x with resync := true })).port 0).resync = true := by decide +kernel

/-- A CREDIT word of VC 3 with FREED 100 sets LASTFREED. -/
theorem test_credit : goes (exec (.creditRx 0 (linkWord 0xC1 3 100)) upPort) (fun t => ((t.port 0).account 3).lastFreed = 100) = true := by decide +kernel

-- Control space --------------------------------------------------------------------------------------------------------------------------------

/-- The out-of-band party's write is accepted, and has the value that the row asks for. -/
def takes (r : Reg) (i : Nat) (v : Word) (ask : State → Word → Bool := fun _ _ => true) (s : State := State.reset) : Bool := s.accepts .oob r i v && ask s.hushed v

theorem witness_registerWrites :
    takes .ROD_CTRL 3 1 (fun s v => v.getLsbD 0 && !s.bit F.ROD_CTRL_HALT 3) = true ∧
    takes .ROD_CTRL 3 0 (fun s v => !v.getLsbD 0 && s.bit F.ROD_CTRL_HALT 3) (State.reset.setFld F.ROD_CTRL_HALT 3 1) = true ∧
    takes .ROD_CTRL 255 2 (fun _ v => v.getLsbD 1) = true ∧ takes .ROD_CTRL 0 4 (fun _ v => v.getLsbD 2) = true ∧
    takes .PORT_EGCFG 0 0x100 (fun _ v => v.getLsbD 8) upPort = true ∧
    takes .ROUTE_BANK 1 1 (fun s v => s.fld F.ROUTE_BANK_STATE 1 = 0 && wbits v 0 2 = 1) = true ∧
    takes .ROUTE_BANK 1 0 (fun s v => s.fld F.ROUTE_BANK_STATE 1 = 1 && wbits v 0 2 = 0) (State.reset.setFld F.ROUTE_BANK_STATE 1 1) = true ∧
    takes .ROUTE_BANK 1 2 (fun s v => s.fld F.ROUTE_BANK_STATE 1 = 1 && wbits v 0 2 = 2) (State.reset.setFld F.ROUTE_BANK_STATE 1 1) = true := by
  decide +kernel

/-- A Brew in slot 0 with the authorised endpoint 7, which claims the placement entries, and its writes of the tables of placement: an entry, and EFFSTEP. -/
theorem witness_placementWrites :
    (let s : State := { brews := [(0, some { authep := [7], ranges := List.replicate 13 (0, 65536) })] };
      s.accepts (.fnid 7) .SCHED_PLACE 65535 5 = true ∧ s.accepts (.fnid 7) .SCHED_PLACE 0 5 = true) ∧
    (let s : State := { brewAuth := [7] };
      s.accepts (.fnid 7) .SCHED_PLACE 131071 5 = true ∧ s.accepts (.fnid 7) .SCHED_PLACE_EFF 1 5 = true) := by decide +kernel

/-- The clear commands, and those of the operator. -/
theorem witness_commandWrites :
    ([.CADDY_CLR, .SCHED_EXP_CLR, .ROUTE_TALLY_CLR, .SCHED_BREACH_CLR, .GLOBAL_STRICT_CLR, .MEMREG_CLR, .CBOARD_CLR, .GLOBAL_REJ_CLR, .BEAD_TALLY_CLR,
      .SCHED_COLL_CLR, .SCHED_SAMP_CLR, .KETTLE_HEALTH_CLR] : List Reg).all (fun r => takes r 0 1 (fun _ v => v.getLsbD 0)) = true ∧
    takes .PORT_FRCLR 0 1 (fun _ v => v.getLsbD 0) upPort = true ∧
    takes .KETTLE_HEALTH_CLR 0 0xF (fun _ v => v.getLsbD 3 && v.getLsbD 2 && v.getLsbD 1) = true ∧
    (let s : State := { brews := [(2, some { authep := [7] })] };
      takes .SCHED_REWIND_CMD 2 0 (fun _ _ => true) s = true ∧ takes .SCHED_UNLOAD 0 0xA (fun _ v => v.getLsbD 3) s = true ∧
        takes .AUDIT_RECHK 0 0xA (fun _ v => v.getLsbD 3) s = true) ∧
    takes .GLOBAL_MODE 0 1 (fun s v => v.getLsbD 0 != s.strict) = true ∧
    takes .GLOBAL_UNITCMD 0 0xC00 (fun _ v => v.getLsbD 11 && v.getLsbD 10 && wbits v 8 2 = 0) upPort = true ∧
    takes .GLOBAL_UNITCMD 0 0x800 (fun _ v => v.getLsbD 11 && !v.getLsbD 10 && wbits v 8 2 = 0) upPort = true ∧
    takes .GLOBAL_UNITCMD 0 0xDFF (fun _ v => v.getLsbD 11 && v.getLsbD 10 && wbits v 8 2 = 1) = true ∧
    takes .GLOBAL_UNITCMD 0 0x9FF (fun _ v => v.getLsbD 11 && !v.getLsbD 10 && wbits v 8 2 = 1) = true ∧
    takes .GLOBAL_UNITCMD 0 0xE0B (fun _ v => v.getLsbD 11 && v.getLsbD 10 && wbits v 8 2 = 2) = true ∧
    takes .GLOBAL_UNITCMD 0 0xA0B (fun _ v => v.getLsbD 11 && !v.getLsbD 10 && wbits v 8 2 = 2) = true ∧
    ([4, 5, 6] : List Word).all (fun v => takes .KETTLE_PWR_CMD 0 v (fun _ v => v.getLsbD 2)) = true ∧
    takes .TALLY_TELE_CFG 0 (State.reset.reg .TALLY_TELE_CFG 0 ||| 1 <<< 21) (fun s v => v.getLsbD 21 && !s.bit F.TALLY_TELE_CFG_REPLAY 0) = true := by
  decide +kernel

/-- Out of band, a value that the field does not take; from an authority FNID, a field of class OOB. -/
theorem witness_rejectedWrite :
    Reg.at? (Reg.off .KETTLE_SHADOW_CFG 0) = some (.KETTLE_SHADOW_CFG, 0) ∧ Reg.off .KETTLE_SHADOW_CFG 0 % 8 = 0 ∧
    State.reset.ctlCheck none .KETTLE_SHADOW_CFG 0 (State.reset.setFld F.KETTLE_SHADOW_CFG_RATE 0 21 |>.reg .KETTLE_SHADOW_CFG 0) = some .value ∧
    State.reset.ctlCheck none .KETTLE_SHADOW_CFG 0 (State.reset.setFld F.KETTLE_SHADOW_CFG_RATE 0 20 |>.reg .KETTLE_SHADOW_CFG 0) = none ∧
    State.reset.ctlCheck none .SCHED_PLACE 0 1 = some .breww ∧
    (let s : State := { brewAuth := [7] };
      s.controlOpen ⟨7, none⟩ false = true ∧ s.ctlCheck (some ⟨7, none⟩) .GLOBAL_MODE 0 1 = some .oobw) := by decide +kernel

theorem witness_accessClasses :
    (Reg.fields .GLOBAL_MODE 0).any (fun f => f.acc = .oob && decide (f.lo ≤ f.hi) && decide (f.hi < 64) &&
      wbits (ctlRead State.reset .GLOBAL_MODE 0) f.lo (f.hi + 1 - f.lo) ≠ wbits 3 f.lo (f.hi + 1 - f.lo)) = true ∧
    (Reg.fields .SCHED_COLL 0).any (fun f => f.acc = .brew && decide (f.lo ≤ f.hi) && decide (f.hi < 64) &&
      wbits (ctlRead State.reset .SCHED_COLL 0) f.lo (f.hi + 1 - f.lo) ≠ wbits (BitVec.allOnes 64) f.lo (f.hi + 1 - f.lo)) = true := by decide +kernel

/-- A core LOADED, one in STEPWAIT and in quarantine, one that HALT stopped, and one in RUN. -/
theorem witness_halt :
    (one { st := .loaded }).core 0 = { st := .loaded } ∧ (one { st := .stepwait, quar := true }).core 0 = { st := .stepwait, quar := true } ∧
    (one { st := .halted, prior := .run }).core 0 = { st := .halted, prior := .run } ∧
    (haltSet 0 (one { st := .run })).core 0 = { st := .halted, prior := .run } := by decide +kernel

-- What waits, Brews and their events -----------------------------------------------------------------------------------------------------------

/-- A commit record of 256 bytes with the words given, and its RCRC. -/
def record (ws : List (Nat × Nat)) : List Byte :=
  let put (bs : List Byte) (x : Nat × Nat) : List Byte := bs.take (8 * x.1) ++ bytesLE 8 x.2 ++ bs.drop (8 * x.1 + 8)
  let bs := (([(0, 0x57455242 <<< 32 + 1), (2, 256 <<< 32)] : List (Nat × Nat)) ++ ws).foldl put (List.replicate 256 (0 : Byte))
  bs.take 16 ++ bytesLE 4 (crc32 bs).toNat ++ bs.drop 20

/-- A commit runs for the record at offset 0. -/
def committing (ws : List (Nat × Nat)) (brews : SMap (Option Brew) := []) : State :=
  { hbm := Mem.wr [] 0 0 (record ws), brews := brews, board := { commit := some { off := 0, fnid := 7 } } }

set_option maxRecDepth 20000 in
/-- A record that is not there; one whose range ends above its table; one that claims an admitted Brew's core; and one that none of this is wrong with. -/
theorem witness_commit :
    (let t (s : State) : Brew := recBrew 0 7 (s.hbmFetch 0 256);
      ({ committing [] with hbm := [] } : State).recSound 0 = false ∧
      ((committing [(10, 1 <<< 32 + 16384)]).recSound 0 = true ∧ (committing [(10, 1 <<< 32 + 16384)]).recInRange (t (committing [(10, 1 <<< 32 + 16384)])) = false) ∧
      (let s := committing [(5, 1)] [(0, some { cores := [0] })];
        s.recSound 0 = true ∧ s.recInRange (t s) = true ∧ s.brewList.any (fun y => y.2.clashes (t s)) = true) ∧
      (let s := committing [(5, 1), (10, 1 <<< 32 + 16383)] [(0, some { cores := [1] })];
        s.recSound 0 = true ∧ s.recInRange (t s) = true ∧ s.brewList.any (fun y => y.2.clashes (t s)) = false ∧ s.kaPorts (t s) = [])) := by
  decide +kernel

set_option maxRecDepth 20000 in
/-- A commit that waited for port 0, which is UP again: the record that it read is what it goes on with (R382, R390). -/
theorem witness_commitPorts :
    (let r : CommitRun := { off := 0, fnid := 7, ports := [0], rcd := record [] };
     let s : State := { upPort with board := { commit := some r } };
      r.ports ≠ [] ∧ s.kaPorts (recBrew 0 7 r.rcd) = [] ∧ s.lstate 0 = 5) := by decide +kernel

theorem witness_brewEvents :
    (waits (fr 1 (0x10 <<< 48) (bytesLE 8 0))).net.inbox.find? (waits (fr 1 (0x10 <<< 48) (bytesLE 8 0))).awaitsLog = some 0 ∧
    (let s : State := { board := { dones := [⟨1, 2, 3, 0, 0, .none⟩], log := [⟨1, 2, 0x10, 0, [], some (0, [])⟩], pendRel := [(5, none)] } };
      s.board.dones.any (fun d => d.src = 1) = true ∧ s.logOf 1 2 = some ⟨1, 2, 0x10, 0, [], some (0, [])⟩ ∧
        s.board.pendRel.find? (fun x => x.1 = 5) = some (5, none) ∧ s.net.relCells.lk 0 0 < 64 ∧
        s.creditFor (s.form (relHdr 5 none s)) = true) ∧
    (State.reset.setFld F.ROUTE_BANK_STATE 1 3).fld F.ROUTE_BANK_STATE 1 = 3 ∧
    (let s := ({ brews := [(2, some { cores := [0] })], board := { unload := some ⟨2, none, true⟩, recheck := 2 } } : State).setFld F.SCHED_REWIND_BUSY 2 1
        |>.setFld F.AUDIT_RECHK_BUSY 0 1;
     let b : Brew := { cores := [0] };
      s.brews.lk none 2 = some b ∧ s.bit F.SCHED_REWIND_BUSY 2 = true ∧ s.freeCores b = b.cores ∧ s.partsFree b = true ∧
        s.board.unload = some ⟨2, none, true⟩ ∧ s.bit F.AUDIT_RECHK_BUSY 0 = true) := by decide +kernel

-- Links, power, boot ---------------------------------------------------------------------------------------------------------------------------

theorem witness_linkEvents :
    upPort.linked 0 = true ∧ upPort.laneLive 0 3 = true ∧ (upPort.setLstate 0 6).linked 0 = true ∧ (upPort.setLstate 0 6).laneLive 0 0 = true ∧
    (upPort.setLstate 0 6).laneLive 0 3 = false ∧ (upPort.setLstate 0 1).trains 0 = false ∧ (upPort.setLstate 0 2).trains 0 = true ∧
    (upPort.setLstate 0 1).tick.trains 0 = true ∧ ((upPort.setLstate 0 3).port 0).probBad ≠ (upPort.setLstate 0 3).now + 1 ∧
    ((upPort.setLstate 0 2).modPort 0 (fun x => { x with rest := true })).lstate 0 = 2 ∧ (upPort.setLstate 0 3).lstate 0 = 3 ∧
    ({ kettle := { phase := .up } } : State).kettle.phase = .up := by decide +kernel

/-- A port that may enter keepalive and has been idle for its IDLEMS. -/
def quietPort : State :=
  ({ upPort.modPort 0 (fun x => { x with kaok := true }) with clock := { ktick := 10 ^ 12 } } : State).setFld F.PORT_KA_ENABLE 0 1

theorem witness_keepalive :
    quietPort.kaReady 0 = true ∧ (quietPort.port 0).ka = .none ∧ (quietPort.port 0).lastData + ms (quietPort.fld F.PORT_KA_IDLEMS 0) ≤ quietPort.now ∧
    ((upPort.modPort 0 (fun x => { x with ka := .entering })).port 0).ka = .entering ∧
    ((upPort.modPort 0 (fun x => { x with ka := .leaving })).port 0).ka = .leaving ∧
    (upPort.modPort 0 (fun x => { x with returning := true })).portList.find?
      (fun p => ((upPort.modPort 0 (fun x => { x with returning := true })).port p).returning) = some 0 := by decide +kernel

/-- In a phase, with SYS_PWROK high. -/
def phased (p : Phase) : State := { kettle := { phase := p, pwrok := true } }

theorem witness_holdAndResets :
    (phased .up).railsOn = true ∧ (phased .up).bit F.GLOBAL_HOLD_INHOLD 0 = false ∧ (phased .up).kettle.pwrok = true ∧ (phased .up).kettle.trip = false ∧
    ((phased .up).setFld F.GLOBAL_HOLD_INHOLD 0 1).bit F.GLOBAL_HOLD_INHOLD 0 = true ∧ (phased .brownout).kettle.phase = .brownout ∧
    (phased .off).kettle.phase = .off ∧ tripTemp 0 ≤ (920 : BitVec 16).toInt ∧ tripTemp 23 ≤ (840 : BitVec 16).toInt ∧
    (phased .inReset).kettleOn = true ∧ (phased .inReset).kettle.pwrok = true ∧ (phased .hot).kettleOn = true ∧ (phased .kettleOnly).kettleOn = true ∧
    (phased .hot).kettle.phase = .hot ∧ (List.range 24).all (fun d => decide ((phased .hot).dieTemp d < 760)) = true := by decide +kernel

/-- A rail out of its range resets a device in KETTLE-ONLY, and ends EXTEST (R398 to R400, R412). -/
theorem test_rail : goes (exec .railUndervoltage { kettle := { phase := .kettleOnly, pwrok := true, jtagIr := .extest } })
    (fun t => t.kettle.phase = .brownout && t.kettle.jtagIr = .bypass && t.fld F.KETTLE_BOOT_CAUSE 0 = 2) = true := by decide +kernel

/-- 0.630 V is no reset, below it is; 115 °C trips a core die, an eighth below does not. -/
theorem test_limits : goes (exec (.brownoutReset 630) (phased .up)) (fun t => t = phased .up) = true ∧
    goes (exec (.thermalTrip 0 919) (phased .up)) (fun t => t = phased .up) = true ∧
    goes (exec (.brownoutReset 629) (phased .up)) (fun t => t.kettle.phase = .brownout) = true := by decide +kernel

theorem witness_bootAndPower :
    State.reset.kettle.phase = .inReset ∧ (phased .booting).kettle.phase = .booting ∧
    (let c : ImageContent := default;
     let s : State := { kettle := { phase := .verified, chosen := some c } };
      s.kettle.phase = .verified ∧ s.kettle.chosen = some c) ∧
    (let s : State := { kettle := { phase := .up, move := .toIdle } };
      s.kettle.phase = .up ∧ s.kettle.move = .toIdle) ∧
    (let s := ({ kettle := { phase := .up, move := .fromIdle } } : State).setFld F.KETTLE_PWR_STAT_STATE 0 2;
      s.idle = true ∧ s.kettle.move = .fromIdle) := by decide +kernel

/-- PACE at its ends and between them (R393). -/
theorem test_pace : nextPace 64 500 600 false false = 64 ∧ nextPace 1 700 600 false false = 1 ∧ nextPace 10 700 600 false false = 9 ∧
    nextPace 10 587 600 false false = 11 ∧ nextPace 10 588 600 false false = 10 ∧ nextPace 10 587 600 false true = 10 ∧ nextPace 11 500 600 true false = 5 := by
  decide +kernel

-- Health, records, out of band -----------------------------------------------------------------------------------------------------------------

theorem witness_monitors :
    (let s := { upPort with kettle := { phase := .up } };
      s.kettleOn = true ∧ s.awake 5 = true ∧ s.laneTrained 3 = true ∧ s.heldAwake 5 = false ∧
        (List.range 4).all (fun j => s.coreIdle (4 * 5 + j)) = true ∧ s.unitsOn = true ∧ s.hbmOut.contains 3 = false ∧
        s.kettle.stackQuiz.contains 3 = false ∧ (s.core 0).quizzable = true ∧ s.bit F.ROD_ISLAND_ASLEEP 0 = false) ∧
    ({ waking := [(5, true)] } : State).waking.find? (fun y => y.1 = 5) = some (5, true) ∧
    ({ brews := [(0, some { ranges := List.replicate 13 (0, 4096) })], kettle := { preDue := [(4095, [0])] } } : State).prewakeIsDue 4095 = true ∧
    ({ brews := [(0, some { ranges := List.replicate 13 (0, 4096) })] } : State).prewakeIsDue 4095 = false ∧
    (let s := ((State.reset.setFld F.GLOBAL_UNITCMD_BUSY 0 1).setFld F.GLOBAL_UNITCMD_KIND 0 2).setFld F.GLOBAL_UNITCMD_INDEX 0 11;
      s.bit F.GLOBAL_UNITCMD_BUSY 0 = true ∧ s.fld F.GLOBAL_UNITCMD_KIND 0 = 2 ∧ s.fld F.GLOBAL_UNITCMD_INDEX 0 = 11) ∧
    (let x : ShadowChk := { kind := 0, subject := 0, checker := 1, ref := 0, blk := 0, step := 0, out := [], size := 0, binS := 0, load := 0, start := 0 };
     let y : ShadowChk := { x with chkOut := some [1], arbiter := some 2 };
     let s : State := { shadow := { checks := [x, y] } };
      s.shadow.checks[0]? = some x ∧ x.chkOut = none ∧ s.shadow.checks[1]? = some y) ∧
    ((State.reset.setFld F.KETTLE_QUIZ_CFG_COREINT 0 5).setFld F.KETTLE_QUIZ_CFG_STACKINT 0 5).fld F.KETTLE_QUIZ_CFG_COREINT 0 ≠ 0 ∧
    ((State.reset.setFld F.KETTLE_QUIZ_CFG_COREINT 0 5).setFld F.KETTLE_QUIZ_CFG_STACKINT 0 5).fld F.KETTLE_QUIZ_CFG_STACKINT 0 ≠ 0 ∧
    ((one { st := .quiz, prior := .idle }).core 0).st = .quiz ∧ (upPort.setLstate 0 3).lstate 0 = 3 ∧
    ((upPort.modPort 0 (fun x => { x with quiz := some {} })).port 0).quiz.isSome = true ∧
    ({ kettle := { stackQuiz := [3] } } : State).kettle.stackQuiz.contains 3 = true := by decide +kernel

/-- A contribution that an open instance holds, and a layer step that is open. -/
theorem witness_ecc :
    (let x : Inst := { samp := false, desc := 0, slot := 0, inst := 0, grp := 0, step := 0, held := [{ src := 2, blks := [5], buf := 0 }] };
     let s : State := { coll := { insts := [x] } };
      s.instNo 0 0 = some x ∧ x.holds 2 5 = true ∧ x.holds 2 6 = false) ∧ (unitsOpen.layerNo 0 0).isSome = true ∧ (0x23FFFFFFFF : BitVec 48).toNat < hbmSize := by
  decide +kernel

theorem witness_book :
    (let s : State := { kettle := { restored := true } };
      s.kettleOn = true ∧ (dropOld (flushCoal s)).book.queue = []) ∧
    (let r : Rec := ⟨2, 0xFF, 0, 0, []⟩;
     let s : State := { kettle := { restored := true }, book := { queue := [(0, r)] } };
      (dropOld (flushCoal s)).book.queue = [(0, r)] ∧ 0 < (dropOld (flushCoal s)).book.budget) ∧
    (State.reset.setFld F.TALLY_TELE_CFG_REPLAY 0 1).bit F.TALLY_TELE_CFG_REPLAY 0 = true := by decide +kernel

/-- A refill adds 20, and stops at 4,096. -/
theorem test_budget : goes (exec .bookBudgetRefill { book := { budget := 4080 } }) (fun t => t.book.budget = 4096) = true ∧
    goes (exec .bookBudgetRefill { book := { budget := 0 } }) (fun t => t.book.budget = 20) = true := by decide +kernel

theorem witness_pldm :
    State.reset.smbusTakes { (default : PldmReq) with addr := 0x40, pecOk := true } = true ∧ leAt ([0, 0, 0, 0, 2] : List Byte) 0 1 = 0 ∧ leAt ([0, 0, 0, 0, 0, 2] : List Byte) 5 1 = 2 ∧
    (let r : PldmReq := { (default : PldmReq) with addr := 0x40, pecOk := true, ptype := 2, code := 0x12 };
      State.reset.smbusTakes r = true ∧ ¬ (r.ptype = 0 ∧ (r.code = 2 ∨ r.code = 3 ∨ r.code = 4 ∨ r.code = 5)) ∧
        ¬ (r.ptype = 2 ∧ (r.code = 0x11 ∨ r.code = 0x21 ∨ r.code = 0x50 ∨ r.code = 0x51))) ∧
    (let r : PldmReq := { (default : PldmReq) with ptype := 0, code := 6 };
      ¬ (r.ptype = 0 ∧ (r.code = 2 ∨ r.code = 3 ∨ r.code = 4 ∨ r.code = 5)) ∧ ¬ (r.ptype = 2 ∧ (r.code = 0x11 ∨ r.code = 0x21))) ∧
    isNumeric (leAt ([14, 0, 0] : List Byte) 0 2) = true ∧ leAt ([11, 0, 0, 0] : List Byte) 0 2 = 11 ∧
    leAt ([14, 0, 0, 0, 0, 0, 0, 0, 1, 0, 0, 0, 0] : List Byte) 0 4 ≤ 14 ∧ leAt ([14, 0, 0, 0, 0, 0, 0, 0, 1, 0, 0, 0, 0] : List Byte) 8 1 = 1 := by
  decide +kernel

/-- MOP, SEQ, ARG and data of a message; r = s = z, the message's digest; and the key, which is (z, y) less the base point, so that u1 = u2 = 1. -/
abbrev Signed := Nat × Nat × Nat × List Byte × Nat × Nat × Nat

def Signed.msg (x : Signed) : CtlMsg :=
  { w0 := mkWord [(0x4A4D, 48), (1, 40), (x.1, 32), (x.2.2.2.1.length, 0)], w1 := 0, w2 := BitVec.ofNat 64 x.2.1, w3 := BitVec.ofNat 64 x.2.2.1,
    data := x.2.2.2.1, sig := bytesBE 48 x.2.2.2.2.1 ++ bytesBE 48 x.2.2.2.2.1, fromAddr := 1, fromPort := 1 }

/-- The device runs an image with the message's key as operator key 0. -/
def Signed.state (x : Signed) : State :=
  { kettle := { phase := .up, pwrok := true, image := some { (default : ImageContent) with keys := [(0, x.2.2.2.2.2)] } } }

def signedMessages : List Signed :=
  ([(1, 1, 0xFF01000010, [], 0xa9272cb754f205cb099df28659eb8eb058c8e6d8fad34295fafed0152397805d0e7931aeb795105a544642e62c193718,
     0xf6b512557623f1819d4104003bc44cf2c2a26aff2e7d580a4d4e7f60e0bbb666e3195bb27e8dc14a7ac2fa43ac31e9c7, 0x3aaeed0bb289c919eb08c355876ccccdf1b77d24d585db7903e606cc0fbbd43f344e0ae135793a325a36bcd414b39927)] : List Signed) ++
  ([(2, 2, 0xFF00000000, [1, 0, 0, 0, 0, 0, 0, 0], 0x83fbe1662d4f2ec2da99f1d1edb14fa58df3903835ea7a6194c88d762a2d20d7499b41af0c7333eed23a6dffb613ca64,
     0x2ddc42228bc36f3a260f3a3161720ff65c2c89e1c6418bdb4f0e7765d8938cda9f652e538f3084d5fc2443fe33b3f5d0, 0xc493773b9da294ff9533dad6fb3886355086f03d5f50d0d9556065222a652a6c1200b85f1a2ca4c4c1be21929e6f8304)] : List Signed) ++
  ([(3, 2, 0x0, [], 0xce2244b8b4bcade1bec3506373465336a03d1b547511feed03241d876df2797247e230010547cb6ab2739dfb36e71f7c,
     0x29ed354fa18ece0d2f4487399328f8c3116c78632cff17001214c4d9d47db3b630ccc80f2e852505cc2fb6ed90332006, 0x6f9031825212ce698df5b7c74c129065997558a19997bd5dcdcfab47fb5cd0667838586e7f29e8e31eab441dce537134)] : List Signed) ++
  ([(4, 2, 0x1800000, [], 0xb032bb7b4a796dc0aa81151f0ca95884369eb2a6c7d1bf28ec29067227f0d5b13145d9604c21b42da6176f0d4d5c9ec,
     0xb9b261ab2d740f2cc4fdcbc79acbc90ba0471a3cd6ef655321a75f7a1e89c595f1cda45477e026adcf3d9ae64da702c9, 0x12abf15eed97f152ee32d7907d79826631230be3329bb508909344dc0311717861a63d36f8b505a345db848ff91d4e4d)] : List Signed) ++
  ([(5, 3, 0x18000FF, [90], 0x7ea9a00e30b2a95dec7efcf8825ed0047908a34c7457892e662c6cbdf375f3f006667a7c0b1a760d1a79084227e9181e,
     0xb5cf6c37de6e6665b87f98bb7f74c74bbdc57ee616bf7a66d9e62c90d54c1421234249d3bc2b373c2f4e350d615c8f8c, 0x24e8d6dcdde8c45c03aae1ed8e591d5e1e4fc9a41bd90a3c04644e8c8481d46cb772968ffcba3d92670ccb71e9098c9f)] : List Signed) ++
  ([(6, 2, 0x0, [], 0x781fc2a2ed9b73eb49c06e599f5cc7c840b1df00522c05e2f73a72ab355a07eaf8fc3ebec5329cbc0a791865dd5c1d86,
     0xc304c896e54b40be45188812ee02e605abc1ee17983649652bf0a2d39bfee43e1c326d4658748aa107aef549cc8836e2, 0x173621533828ca2ddd295be79a7cedb145c630a55c3836fe5a234d8a1ffdb5462bb4397f1526ae70a255871b8c0e6e80)] : List Signed) ++
  ([(7, 2, 0x0, [], 0x9ce262c981a3d3761e93f9f70c1da1c4a116e4a4dd9cdb319758252b05e73a7857f32e2c9574e18c57ab88aed1669069,
     0xc0b58d17fc9f5af2c5c2ca01f7ea4d2a5d9c8cd2b2de0f4724472444ada5478d622caf5441b172e33ce6b43c23a7f40, 0x89a368135d6f016013dd5c4a887504b8dafcbc59957d668050764c6b0c0daca587f34892bcddad542b57041359d26b70)] : List Signed) ++
  []

theorem witness_authentic : signedMessages.all (fun x => x.msg.formed && x.msg.mop = x.1 && x.state.authentic x.msg) = true := by decide +kernel

theorem witness_controlMessages :
    ([1, 2, 3, 4, 5, 6, 7] : List Nat) = signedMessages.map Prod.fst ∧
    signedMessages.all (fun x =>
      (x.1 ≠ 2 || ((x.state.opData x.msg).length = 8 &&
        (oobWriteFull x.msg.arg (BitVec.ofNat 64 (natLE (x.state.opData x.msg))) (x.state.hushed.seqUsed x.msg)).1)) &&
      (x.1 ≠ 4 || x.state.slotOpen x.msg.arg 1) &&
      (x.1 ≠ 5 || (x.state.slotOpen x.msg.arg (x.state.opData x.msg).length && decide (x.msg.arg % 256 + (x.state.opData x.msg).length ≤ 256)))) = true ∧
    signedMessages.all (fun x => !x.msg.busy && x.state.authentic { x.msg with busy := true }) = true ∧
    (message 0 [] []).formed = true ∧ (message 0 [] []).mop = 0 := by decide +kernel

/-- IMGERASE while the flash is in use: BUSY, and the SEQ may be used again (Table 14.10). -/
theorem test_busy : signedMessages.all (fun x => x.1 ≠ 4 ||
    goes (exec (.imgerase { x.msg with busy := true }) x.state) (fun t => t.kettle.seqs = [] && t.kettle.flash = [] && t.regs = x.state.regs && t.out ≠ [])) = true := by
  decide +kernel

/-- A message whose SEQ is not above the last one fails. -/
theorem test_replayed : signedMessages.all (fun x => !(x.state.seqUsed x.msg).authentic x.msg) = true := by decide +kernel

theorem witness_ports : State.reset.kettle.phase ≠ .off ∧ State.reset.kettle.rstn = false ∧ State.reset.kettle.phase ≠ .brownout ∧
    ({ kettle := { image := some { (default : ImageContent) with mgmtAddr := 5 } } } : State).myAddr 5 = true ∧ (5 : BitVec 128) ≠ allNodes := by
  refine ⟨by decide, by decide, by decide, ?_, by decide⟩
  simp [State.myAddr]

/-- The checksum of an echo reply with no data, from ::1 to ::2: the complement of 1 + 2 + 8 + 58 + 0x8100 + 0x1234 + 1 (RFC 4443). -/
theorem test_icmpSum : icmpMsg 1 2 129 [0x12, 0x34, 0, 1] = .icmp 1 2 [129, 0, 0x6C, 0x85, 0x12, 0x34, 0, 1] := by decide +kernel

/-- The lands of lane 300 (chapter 15's example), and of two pins. -/
theorem test_lands : laneLand 300 0 0 = (98, 61) ∧ laneLand 300 1 0 = (98, 60) ∧ laneLand 300 0 2 = (96, 61) ∧ laneLand 300 1 2 = (96, 60) ∧
    landNet 98 61 = .tx 300 true ∧ landNet 96 60 = .rx 300 false ∧ landNet 95 61 = .gnd ∧ landNet 7 3 = .pin "FAULT_N" := by decide

/-- The pins right after group 0 is in range: nothing asserted, READY and FABRIC_UP three-stated, SPI_CS_N the flash controller's (Table 15.3). -/
theorem test_pins : State.reset.pins = { faultN := true, thermtripN := true, alertN := true, ready := false, fabricUp := false, driven := false, presentN := false, spiCsN := none } := by
  decide +kernel

/-- A write of LANE_PMAP to a port that is UP waits for its next training (R406, R407). -/
theorem test_pmap : (let s := ctlEffect .LANE_PMAP 0 0 1 1 (storeReg .LANE_PMAP 0 1 upPort)
    (s.reg .LANE_PMAP 0, s.pmapNow 0, (setLink 0 2 s).pmapNow 0)) = (1, 0, 1) := by decide +kernel

end Sys2Proof.Tests
end

/-!
Writes to control space (R7): what R7 judges, what an accepted write stores, and what the rows that write one register do.
-/
namespace Sys2Proof.Machine

open Sys2Proof

/-- A field whose value a write would change has a bit that R7 judges. -/
theorem exists_mem_judgedBits {r : Reg} {old v : Word} {f : RField}
    (h : wbits old f.lo (f.hi + 1 - f.lo) ≠ wbits v f.lo (f.hi + 1 - f.lo)) : ∃ b, b ∈ judgedBits r old v f := by
  by_contra! hnone
  refine h (wbits_ext fun j hj => ?_)
  by_contra hne
  refine hnone (f.lo + j) (List.mem_filter.2 ⟨List.mem_map.2 ⟨j, List.mem_range.2 hj, Nat.add_comm _ _⟩, ?_⟩)
  simp [hne]

/-- R7 judges a write by the state alone, not by what the last command sent. -/
theorem State.hushed_ctlCheck (s : State) (w : Option Who) (r : Reg) (i : Nat) (v : Word) : s.hushed.ctlCheck w r i v = s.ctlCheck w r i v := rfl

theorem State.hushed_controlOpen (s : State) (w : Who) (load : Bool) : s.hushed.controlOpen w load = s.controlOpen w load := rfl

theorem ctlWrite_rejected {w : Option Who} {r : Reg} {i : Nat} {v : Word} {s : State} {x : CtlRej} (h : s.ctlCheck w r i v = some x) :
    ctlWrite w r i v s = (false, s.bump x.fld 0) := by simp [ctlWrite, h]

/-- An event whose condition holds takes an effect that gives the same state here. -/
theorem actIf_after {b : Bool} {f g : State → State} {s : State} (hb : b = true) (h : f s.hushed = g s.hushed) : actIf b f s = .next (s.after g) := by
  rw [actIf_true hb, State.after, h, State.after]

/-- Bit j of r(i) takes the bit written: a field covers it, and none that does is read-only or W1C (Table 0.3). -/
def Reg.takes (r : Reg) (i j : Nat) : Bool :=
  let fs := (r.fields i).filter (fun f => f.lo ≤ j && j ≤ f.hi)
  fs ≠ [] && fs.all (fun f => f.acc ≠ .ro && f.acc ≠ .w1c)

/-- What an accepted write does to one field of the word that the register holds. -/
def writeField (old v w : Word) (f : RField) : Word :=
  let n := f.hi + 1 - f.lo
  match f.acc with
  | .ro => w
  | .w1c => wset w f.lo n (wbits (old &&& ~~~v) f.lo n)
  | _ => wset w f.lo n (wbits v f.lo n)

theorem ctlNew_eq_foldl (r : Reg) (i : Nat) (old v : Word) : ctlNew r i old v = (r.fields i).foldl (writeField old v) old := rfl

/-- A writable field gives each bit that it covers the value written. -/
theorem getLsbD_writeField_in {old v w : Word} {f : RField} {j : Nat} (hj : j < 64) (hf : f.acc ≠ .ro ∧ f.acc ≠ .w1c) (hc : f.lo ≤ j ∧ j ≤ f.hi) :
    (writeField old v w f).getLsbD j = v.getLsbD j := by
  have hset : writeField old v w f = wset w f.lo (f.hi + 1 - f.lo) (wbits v f.lo (f.hi + 1 - f.lo)) := by
    cases hacc : f.acc <;> simp_all [writeField]
  have hin : f.lo ≤ j ∧ j < f.lo + (f.hi + 1 - f.lo) := by omega
  have hlt : j - f.lo < f.hi + 1 - f.lo := by omega
  rw [hset, getLsbD_wset _ _ _ _ _ hj, if_pos hin, wbits_testBit, Nat.add_sub_cancel' hc.1]
  simp [hlt]

/-- A field leaves the bits that it does not cover. -/
theorem getLsbD_writeField_off {old v w : Word} {f : RField} {j : Nat} (hj : j < 64) (hc : ¬ (f.lo ≤ j ∧ j ≤ f.hi)) :
    (writeField old v w f).getLsbD j = w.getLsbD j := by
  have hout : ¬ (f.lo ≤ j ∧ j < f.lo + (f.hi + 1 - f.lo)) := by omega
  simp only [writeField]
  split
  · rfl
  all_goals rw [getLsbD_wset _ _ _ _ _ hj, if_neg hout]

/-- Fields that are all writable where they cover bit j, written in turn: the bit ends as written, or was so from the start. -/
theorem getLsbD_foldl_writeField {old v : Word} {j : Nat} (hj : j < 64) (fs : List RField)
    (hw : ∀ f ∈ fs, f.lo ≤ j ∧ j ≤ f.hi → f.acc ≠ .ro ∧ f.acc ≠ .w1c) (w : Word)
    (h : (∃ f ∈ fs, f.lo ≤ j ∧ j ≤ f.hi) ∨ w.getLsbD j = v.getLsbD j) : (fs.foldl (writeField old v) w).getLsbD j = v.getLsbD j := by
  induction fs generalizing w with
  | nil => exact h.resolve_left (by simp)
  | cons f fs ih =>
    refine ih (fun g hg => hw g (List.mem_cons_of_mem f hg)) _ ?_
    by_cases hc : f.lo ≤ j ∧ j ≤ f.hi
    · exact .inr (getLsbD_writeField_in hj (hw f List.mem_cons_self hc) hc)
    · rw [getLsbD_writeField_off hj hc]
      refine h.imp_left fun ⟨g, hg, hgc⟩ => ⟨g, (List.mem_cons.1 hg).resolve_left ?_, hgc⟩
      rintro rfl
      exact hc hgc

/-- A bit that the register takes holds what was written. -/
theorem getLsbD_ctlNew {r : Reg} {i j : Nat} (old v : Word) (hj : j < 64) (h : r.takes i j = true) : (ctlNew r i old v).getLsbD j = v.getLsbD j := by
  simp only [Reg.takes, Bool.and_eq_true, decide_eq_true_eq, List.all_eq_true, List.mem_filter] at h
  obtain ⟨hne, hall⟩ := h
  obtain ⟨f, hf⟩ := List.exists_mem_of_ne_nil _ hne
  obtain ⟨hmem, hcov⟩ := List.mem_filter.1 hf
  exact getLsbD_foldl_writeField hj _ (fun g hg hc => hall g ⟨hg, by simpa using hc⟩) _ (.inl ⟨f, hmem, by simpa using hcov⟩)

/-- Bits lo to lo + n - 1, all of which the register takes, hold what was written. -/
theorem wbits_ctlNew {r : Reg} {i lo n : Nat} (old v : Word) (hn : lo + n ≤ 64) (h : ∀ j < n, r.takes i (lo + j) = true) :
    wbits (ctlNew r i old v) lo n = wbits v lo n :=
  wbits_ext fun j hj => getLsbD_ctlNew old v (by omega) (h j hj)

/-- The effect of an accepted write to any register is what ctlEffect says. -/
theorem controlRegisterWrite_does (r : Reg) (i : Nat) (off : BitVec 32) (h : off.toNat = r.off i) :
    WriteDoes (fun b v => .controlRegisterWrite b off v) r i (fun _ _ => true) (fun old new v s => ctlEffect r i old new v s) :=
  regRow_does (fun b v s => by simp only [exec, execControlRegisterWrite, regRow, h, Bool.and_true]) (fun _ _ => rfl) (fun _ _ _ _ => rfl)

/-- STATE of a route bank as a party reads it, whatever DRAINLEFT shows. -/
theorem wbits_ctlRead_routeBank (s : State) (b : Fin 2) : wbits (ctlRead s .ROUTE_BANK b) 0 2 = s.fld F.ROUTE_BANK_STATE b := by
  have hread : ctlRead s .ROUTE_BANK b = if s.fld F.ROUTE_BANK_STATE b = 3 then
      fldSet (s.reg .ROUTE_BANK b) F.ROUTE_BANK_DRAINLEFT (200 - (s.now - s.net.drainAt) / us 1) else s.reg .ROUTE_BANK b := rfl
  rw [hread]
  split
  · exact wbits_wset_off _ _ _ _ _ _ (by decide) (by decide)
  · rfl

/-- STATE of a route bank takes what is written. -/
theorem wbits_ctlNew_routeBank (b : Fin 2) (old v : Word) : wbits (ctlNew .ROUTE_BANK b old v) 0 2 = wbits v 0 2 :=
  wbits_ctlNew old v (by decide) (by revert b; decide)

/-- What a write to a route bank does, by the states that it goes from and to (R238). -/
theorem ctlEffect_routeBank (s t : State) (b : Fin 2) (v : Word) :
    ctlEffect .ROUTE_BANK b (ctlRead s .ROUTE_BANK b) (ctlNew .ROUTE_BANK b (ctlRead s .ROUTE_BANK b) v) v t =
      if s.fld F.ROUTE_BANK_STATE b = 0 && wbits v 0 2 = 1 then bankArm t
      else if s.fld F.ROUTE_BANK_STATE b = 1 && wbits v 0 2 = 2 then bankCurrent b t
      else t := by
  simp only [ctlEffect, wbits_ctlRead_routeBank, wbits_ctlNew_routeBank]

-- Commands to units and to the power manager --------------------------------------------------------------------

/-- A unit command reads INDEX, KIND and ACTION alone, which GLOBAL_UNITCMD takes as written. -/
theorem unitCmd_ctlNew (old v : Word) (s : State) : unitCmd (ctlNew .GLOBAL_UNITCMD 0 old v) s = unitCmd v s := by
  have hindex : fldOf (ctlNew .GLOBAL_UNITCMD 0 old v) F.GLOBAL_UNITCMD_INDEX = fldOf v F.GLOBAL_UNITCMD_INDEX :=
    wbits_ctlNew old v (by decide) (by decide)
  have hkind : fldOf (ctlNew .GLOBAL_UNITCMD 0 old v) F.GLOBAL_UNITCMD_KIND = fldOf v F.GLOBAL_UNITCMD_KIND :=
    wbits_ctlNew old v (by decide) (by decide)
  have haction : fldOf (ctlNew .GLOBAL_UNITCMD 0 old v) F.GLOBAL_UNITCMD_ACTION = fldOf v F.GLOBAL_UNITCMD_ACTION :=
    wbits_ctlNew old v (by decide) (by decide)
  unfold unitCmd
  rw [hindex, hkind, haction]

/-- ACTION of a unit command is REMOVE where its bit is set. -/
theorem fldOf_unitAction (v : Word) : decide (fldOf v F.GLOBAL_UNITCMD_ACTION = 1) = v.getLsbD 10 := by
  rw [fldOf, F.GLOBAL_UNITCMD_ACTION, wbits_one]
  cases v.getLsbD 10 <;> rfl

/-- A unit command of kind 0 goes to a port. -/
theorem unitCmd_port {v : Word} (s : State) (h : wbits v 8 2 = 0) :
    unitCmd v s = if v.getLsbD 10 then portRemove (wbits v 0 8) s else portReturn (wbits v 0 8) s := by
  have hkind : fldOf v F.GLOBAL_UNITCMD_KIND = 0 := h
  unfold unitCmd
  rw [hkind, fldOf_unitAction]
  rfl

/-- A unit command of kind 1 goes to a core. -/
theorem unitCmd_core {v : Word} (s : State) (h : wbits v 8 2 = 1) :
    unitCmd v s = if v.getLsbD 10 then coreRemove (wbits v 0 8) s else coreReturn (wbits v 0 8) s := by
  have hkind : fldOf v F.GLOBAL_UNITCMD_KIND = 1 := h
  unfold unitCmd
  rw [hkind, fldOf_unitAction]
  rfl

/-- A unit command of kind 2 goes to a stack. -/
theorem unitCmd_stack {v : Word} (s : State) (h : wbits v 8 2 = 2) :
    unitCmd v s = if v.getLsbD 10 then stackRemove (wbits v 0 8) s else stackReturn (wbits v 0 8) s := by
  have hkind : fldOf v F.GLOBAL_UNITCMD_KIND = 2 := h
  unfold unitCmd
  rw [hkind, fldOf_unitAction]
  rfl

/-- A row of GLOBAL_UNITCMD does what the unit command of its kind and action does. -/
theorem unitRow_does {op : Party → Word → Instr} {kind : Nat} {remove : Bool} {ask : Word → Bool} {eff : Nat → State → State}
    (hx : ∀ b v s, exec (op b v) s = unitRow kind remove b v s)
    (ha : ∀ v, ask v = (v.getLsbD 11 && v.getLsbD 10 == remove && decide (wbits v 8 2 = kind)))
    (he : ∀ v s, v.getLsbD 10 = remove → wbits v 8 2 = kind → unitCmd v s = eff (wbits v 0 8) s) :
    WriteDoes op .GLOBAL_UNITCMD 0 (fun _ v => ask v) (fun _ _ v s => eff (wbits v 0 8) s) := by
  refine regRow_does (fun b v s => ?_) (fun _ _ => rfl) (fun s v t h => ?_)
  · rw [hx, unitRow, ha]
  · simp only [ha, Bool.and_eq_true, beq_iff_eq, decide_eq_true_eq] at h
    obtain ⟨⟨hgo, haction⟩, hkind⟩ := h
    exact (if_pos hgo).trans ((unitCmd_ctlNew _ _ _).trans (he v t haction hkind))

/-- A row of KETTLE_PWR_CMD does what the power command of its state does. -/
theorem pwrRow_does {op : Party → Word → Instr} {target : Nat} {eff : State → State}
    (hx : ∀ b v s, exec (op b v) s = pwrRow target b v s) (he : ∀ v s, wbits v 0 2 = target → pwrCmd v s = eff s) :
    WriteDoes op .KETTLE_PWR_CMD 0 (fun _ v => v.getLsbD 2 && wbits v 0 2 = target) (fun _ _ _ s => eff s) := by
  refine regRow_does hx (fun _ _ => rfl) (fun s v t h => ?_)
  simp only [Bool.and_eq_true, decide_eq_true_eq] at h
  obtain ⟨hgo, htarget⟩ := h
  have hnew : wbits (ctlNew .KETTLE_PWR_CMD 0 (ctlRead s .KETTLE_PWR_CMD 0) v) 0 2 = wbits v 0 2 := wbits_ctlNew _ _ (by decide) (by decide)
  exact (if_pos hgo).trans (he _ t (hnew.trans htarget))

/-- A bit of a word that a register holds, as the one-bit field that it is. -/
theorem State.bit_eq_getLsbD (s : State) (f : Fld) (i : Nat) (hw : f.w = 1) : s.bit f i = (s.reg f.reg i).getLsbD f.lo := by
  simp only [State.bit, State.fld, hw, wbits_one]
  split <;> simp_all

/-- A write that changes STRICT of GLOBAL_MODE forms its record (R310). -/
theorem strictWrite_does : WriteDoes .strictWrite .GLOBAL_MODE 0 (fun s v => v.getLsbD 0 != s.strict)
    (fun _ _ v s => addRec 0x14 dieAll [if v.getLsbD 0 then 1 else 0] s) := by
  refine regRow_does (fun _ _ _ => rfl) (fun _ _ => rfl) (fun s v t h => ?_)
  have hold : (ctlRead s .GLOBAL_MODE 0).getLsbD 0 = s.strict := (s.bit_eq_getLsbD F.GLOBAL_MODE_STRICT 0 rfl).symm
  have hnew : (ctlNew .GLOBAL_MODE 0 (ctlRead s .GLOBAL_MODE 0) v).getLsbD 0 = v.getLsbD 0 := getLsbD_ctlNew _ _ (by decide) (by decide)
  have hask : (s.strict != v.getLsbD 0) = true := by rw [bne_comm]; exact h
  simp only [ctlEffect, hold, hnew, State.when, hask, if_true]

/-- UNLOAD names the slot that is written (R383). -/
theorem unloadWrite_does : WriteDoes .unloadWrite .SCHED_UNLOAD 0 (fun _ v => v.getLsbD 3) (fun _ _ v s => startUnload (wbits v 0 3) none s) := by
  refine regRow_does (fun _ _ _ => rfl) (fun _ _ => rfl) (fun s v t h => (if_pos h).trans ?_)
  rw [wbits_ctlNew _ _ (by decide) (by decide)]

/-- GO of AUDIT_RECHK names the slot that is written (R322). -/
theorem auditRecheckGo_does : WriteDoes .auditRecheckGo .AUDIT_RECHK 0 (fun _ v => v.getLsbD 3)
    (fun _ _ v s => { s.setFld F.AUDIT_RECHK_BUSY 0 1 with board := { s.board with recheck := wbits v 0 3 } }) := by
  refine regRow_does (fun _ _ _ => rfl) (fun _ _ => rfl) (fun s v t h => (if_pos h).trans ?_)
  rw [wbits_ctlNew _ _ (by decide) (by decide)]

/-- REPLAY, clear before the write, starts the replay (R362). -/
theorem journalReplay_does : WriteDoes .journalReplay .TALLY_TELE_CFG 0 (fun s v => v.getLsbD 21 && !s.bit F.TALLY_TELE_CFG_REPLAY 0)
    (fun _ _ _ s => replayStart (s.setFld F.TALLY_TELE_CFG_REPLAY 0 0)) := by
  refine regRow_does (fun _ _ _ => rfl) (fun _ _ => rfl) (fun s v t h => ?_)
  simp only [Bool.and_eq_true, Bool.not_eq_true'] at h
  obtain ⟨hgo, hidle⟩ := h
  have hold : (ctlRead s .TALLY_TELE_CFG 0).getLsbD 21 = false := (s.bit_eq_getLsbD F.TALLY_TELE_CFG_REPLAY 0 rfl).symm.trans hidle
  simp only [ctlEffect, hold, hgo, State.when, Bool.not_false, Bool.and_self, Bool.false_eq_true, if_true, if_false]

end Sys2Proof.Machine

/-!
A device reset (R10, R373): what it carries over of the state before, and what the registers read after it.
-/
namespace Sys2Proof.Machine

open Sys2Proof

-- What repeated changes leave ---------------------------------------------------------------------------------------

/-- A relation that each change of a sequence keeps, and that holds through a sequence of two and of none, the sequence keeps. -/
theorem eachDo_rel {α : Type} {R : State → State → Prop} (hrefl : ∀ s, R s s) (htrans : ∀ s t u, R s t → R t u → R s u) {f : α → State → State}
    (h : ∀ x s, R s (f x s)) (l : List α) (s : State) : R s (eachDo l f s) := by
  induction l generalizing s with
  | nil => exact hrefl s
  | cons x l ih => exact htrans _ _ _ (h x s) (ih (f x s))

/-- What every change of a sequence leaves as it was, the sequence does. -/
theorem eachDo_keeps {α β : Type} (g : State → β) {f : α → State → State} (h : ∀ (x : α) (s : State), g (f x s) = g s) (l : List α) (s : State) :
    g (eachDo l f s) = g s :=
  eachDo_rel (R := fun s t => g t = g s) (fun _ => rfl) (fun _ _ _ h1 h2 => h2.trans h1) h l s

-- Records change one register ---------------------------------------------------------------------------------------

/-- A record that enters the writer's queue changes no register but TALLY_BOOK_STAT, which counts what is dropped (R361). -/
theorem reg_bookPut {x : Reg} {j : Nat} (h : x.off j ≠ Reg.off .TALLY_BOOK_STAT 0) (r : Rec) (s : State) : (bookPut r s).reg x j = s.reg x j := by
  unfold bookPut
  dsimp only
  split
  · rfl
  · split
    · exact s.reg_setReg_other _ _ _ _ _ h
    · split
      · exact State.reg_setReg_other _ _ _ _ _ _ h
      · exact s.reg_setReg_other _ _ _ _ _ h

theorem reg_flushCoal {x : Reg} {j : Nat} (h : x.off j ≠ Reg.off .TALLY_BOOK_STAT 0) (s : State) : (flushCoal s).reg x j = s.reg x j := by
  unfold flushCoal
  refine (eachDo_keeps (fun s => s.reg x j) (fun c t => ?_) _ _).trans rfl
  exact (reg_bookPut h _ _).trans rfl

theorem reg_bookEvent {x : Reg} {j : Nat} (h : x.off j ≠ Reg.off .TALLY_BOOK_STAT 0) (r : Rec) (s : State) : (bookEvent r s).reg x j = s.reg x j := by
  unfold bookEvent
  dsimp only
  split
  · exact reg_bookPut h _ _
  · split
    · exact reg_bookPut h _ _
    · rfl

theorem reg_addRec {x : Reg} {j : Nat} (h : x.off j ≠ Reg.off .TALLY_BOOK_STAT 0) (typ die : Nat) (pay : List Word) (s : State) :
    (addRec typ die pay s).reg x j = s.reg x j :=
  (reg_bookEvent h _ _).trans (reg_flushCoal h s)

theorem addRec_kettle (typ die : Nat) (pay : List Word) (s : State) : (addRec typ die pay s).kettle = s.kettle := by
  rw [recOnly_addRec typ die pay s]

-- What outlasts a device reset (R10, R373) --------------------------------------------------------------------------

/-- What a device reset carries over, whole or in part: the flash, the boot nonce, KETTLE_BOOT and KETTLE_OOB_STAT. -/
def State.outlasts (s : State) : SMap Byte × Word × Word × Word :=
  (s.kettle.flash, s.kettle.bnonce, s.reg .KETTLE_BOOT 0, s.reg .KETTLE_OOB_STAT 0)

theorem outlasts_addRec (typ die : Nat) (pay : List Word) (s : State) : (addRec typ die pay s).outlasts = s.outlasts := by
  simp only [State.outlasts, addRec_kettle, reg_addRec (x := .KETTLE_BOOT) (j := 0) (by decide), reg_addRec (x := .KETTLE_OOB_STAT) (j := 0) (by decide)]

/-- A write to GLOBAL_HOLD touches none of it. -/
theorem outlasts_setFld_hold (s : State) (f : Fld) (v : Nat) (h : f.reg = .GLOBAL_HOLD) : (s.setFld f 0 v).outlasts = s.outlasts := by
  simp only [State.outlasts, State.setFld, h, State.setReg_kettle, s.reg_setReg_other .GLOBAL_HOLD .KETTLE_BOOT 0 0 _ (by decide),
    s.reg_setReg_other .GLOBAL_HOLD .KETTLE_OOB_STAT 0 0 _ (by decide)]

/-- States with the same registers, flash and nonce agree on it. -/
theorem outlasts_congr {s t : State} (hr : t.regs = s.regs) (hf : t.kettle.flash = s.kettle.flash) (hn : t.kettle.bnonce = s.kettle.bnonce) :
    t.outlasts = s.outlasts := by
  simp only [State.outlasts, State.reg, hr, hf, hn]

/-- When lifetimes were last added up is none of it. -/
theorem outlasts_lifeMark (s : State) (n : Nat) : ({ s with kettle := { s.kettle with lifeMark := n } } : State).outlasts = s.outlasts := rfl

/-- The delivery-bound clock is none of it. -/
theorem outlasts_hold (s : State) (h : HoldSt) : ({ s with hold := h } : State).outlasts = s.outlasts := rfl

theorem outlasts_addLife (s : State) : (addLife s).outlasts = s.outlasts := by
  unfold addLife
  refine (outlasts_lifeMark _ _).trans ?_
  split
  · refine eachDo_keeps State.outlasts ?_ _ _
    exact fun _ _ => outlasts_congr rfl rfl rfl
  · rfl

theorem outlasts_holdEnd (minMv : Nat) (reset : Bool) (s : State) : (holdEnd minMv reset s).outlasts = s.outlasts := by
  unfold holdEnd
  refine (outlasts_addRec _ _ _ _).trans ((eachDo_keeps State.outlasts ?life _ _).trans ((outlasts_hold _ _).trans ?regs))
  case life => exact fun _ _ => outlasts_congr rfl rfl rfl
  case regs =>
    refine (outlasts_setFld_hold _ F.GLOBAL_HOLD_LASTDUR _ rfl).trans ((outlasts_setFld_hold _ F.GLOBAL_HOLD_LASTMINMV _ rfl).trans ?_)
    exact (outlasts_setFld_hold _ F.GLOBAL_HOLD_EVENTS _ rfl).trans (outlasts_setFld_hold _ F.GLOBAL_HOLD_INHOLD _ rfl)

theorem outlasts_holdCut (minMv : Nat) (s : State) : (holdCut minMv s).outlasts = s.outlasts := by
  unfold holdCut
  split
  · exact outlasts_holdEnd _ _ _
  · rfl

/-- What the reset finds once a HOLD has ended and the lifetimes have been added up. -/
def State.atReset (s : State) : State := holdCut s.hold.minMv (addLife s)

theorem State.atReset_outlasts (s : State) : s.atReset.outlasts = s.outlasts := (outlasts_holdCut _ _).trans (outlasts_addLife s)

-- The registers after a device reset --------------------------------------------------------------------------------

/-- KETTLE_BOOT after a device reset: PREFV and PREF as they were, and CAUSE. -/
def bootWord (boot : Word) (cause : Nat) : Word := mkWord [(wbits boot 62 2, 62), (cause, 0)]

/-- The state of a device reset before KETTLE_BOOT and KETTLE_OOB_STAT are written: no register is listed. -/
def State.wiped (s : State) (p : Phase) : State := diesReset { s with regs := [], kettle := s.kettle.fresh p }

theorem State.rising_wiped (s : State) (p : Phase) : (s.wiped p).regs.Rising := .nil

theorem deviceReset_eq (cause : Nat) (p : Phase) (s : State) : deviceReset cause p s =
    ((s.atReset.wiped p).setReg .KETTLE_BOOT 0 (bootWord (s.atReset.reg .KETTLE_BOOT 0) cause)).setFld F.KETTLE_OOB_STAT_ACCEPTED 0
      (s.atReset.fld F.KETTLE_OOB_STAT_ACCEPTED 0) := rfl

theorem getLsbD_bootWord (boot : Word) {cause j : Nat} (hc : cause < 8) (hj : j < 64) :
    (bootWord boot cause).getLsbD j = if j < 62 then cause.testBit j else boot.getLsbD j := by
  have hword : bootWord boot cause = BitVec.ofNat 64 (2 ^ 62 * wbits boot 62 2 + cause) := by
    simp [bootWord, mkWord, Nat.shiftLeft_eq, Nat.mul_comm]
  have hlow : cause < 2 ^ 62 := by omega
  rw [hword, BitVec.getLsbD_ofNat, Nat.testBit_two_pow_mul_add _ hlow, wbits_testBit]
  by_cases h : j < 62
  · simp [h, hj]
  · have hin : j - 62 < 2 := by omega
    have hpos : 62 + (j - 62) = j := by omega
    simp [h, hj, hin, hpos]

/-- The bits of CAUSE above its values are 0. -/
theorem testBit_cause {cause : Nat} (hc : cause < 8) {j : Nat} (hj : 3 ≤ j) : cause.testBit j = false :=
  Nat.testBit_lt_two_pow (lt_of_lt_of_le hc (Nat.pow_le_pow_right (n := 2) (by decide) hj))

theorem wbits_bootWord_cause (boot : Word) {cause : Nat} (hc : cause < 8) : wbits (bootWord boot cause) 0 8 = cause := by
  refine Nat.eq_of_testBit_eq fun j => ?_
  rw [wbits_testBit, Nat.zero_add]
  by_cases hj : j < 8
  · rw [getLsbD_bootWord boot hc (by omega), if_pos (by omega), decide_eq_true hj, Bool.true_and]
  · rw [testBit_cause hc (by omega), decide_eq_false hj, Bool.false_and]

/-- PREF and PREFV, and each of them, are kept. -/
theorem wbits_bootWord_kept (boot : Word) {cause lo n : Nat} (hc : cause < 8) (hlo : 62 ≤ lo) (hn : lo + n ≤ 64) :
    wbits (bootWord boot cause) lo n = wbits boot lo n :=
  wbits_ext fun j hj => (getLsbD_bootWord boot hc (by omega)).trans (if_neg (by omega))

theorem getLsbD_bootWord_between (boot : Word) {cause j : Nat} (hc : cause < 8) (h8 : 8 ≤ j) (h62 : j < 62) : (bootWord boot cause).getLsbD j = false :=
  ((getLsbD_bootWord boot hc (by omega)).trans (if_pos h62)).trans (testBit_cause hc (by omega))

/-- KETTLE_BOOT after a device reset. -/
theorem deviceReset_boot (cause : Nat) (p : Phase) (s : State) :
    (deviceReset cause p s).reg .KETTLE_BOOT 0 = bootWord (s.reg .KETTLE_BOOT 0) cause := by
  have hboot : s.atReset.reg .KETTLE_BOOT 0 = s.reg .KETTLE_BOOT 0 := congrArg (·.2.2.1) s.atReset_outlasts
  rw [deviceReset_eq, State.setFld, State.reg_setReg_other _ _ _ _ _ _ (by decide), State.reg_setReg_self _ _ _ _ (s.atReset.rising_wiped p), hboot]

/-- A register that a device reset does not write reads its reset value. -/
theorem deviceReset_rst (cause : Nat) (p : Phase) (s : State) {r : Reg} {i : Nat} (hb : r.off i ≠ Reg.off .KETTLE_BOOT 0)
    (ho : r.off i ≠ Reg.off .KETTLE_OOB_STAT 0) : (deviceReset cause p s).reg r i = r.rst i := by
  rw [deviceReset_eq]
  exact (State.reg_setReg_other _ _ _ _ _ _ ho).trans (State.reg_setReg_other _ _ _ _ _ _ hb)

theorem deviceReset_accepted (cause : Nat) (p : Phase) (s : State) :
    (deviceReset cause p s).fld F.KETTLE_OOB_STAT_ACCEPTED 0 = s.fld F.KETTLE_OOB_STAT_ACCEPTED 0 := by
  have hacc : s.atReset.fld F.KETTLE_OOB_STAT_ACCEPTED 0 = s.fld F.KETTLE_OOB_STAT_ACCEPTED 0 :=
    congrArg (fun x : SMap Byte × Word × Word × Word => wbits x.2.2.2 0 32) s.atReset_outlasts
  rw [deviceReset_eq, State.fld_setFld_self _ _ _ _ (State.rising_setReg _ _ _ _ (s.atReset.rising_wiped p)) (by decide), hacc]
  exact Nat.mod_eq_of_lt (wbits_lt _ _ _)

/-- A field of KETTLE_OOB_STAT above ACCEPTED returns to 0. -/
theorem deviceReset_oobStat (cause : Nat) (p : Phase) (s : State) {f : Fld} (hr : f.reg = .KETTLE_OOB_STAT) (hlo : 32 ≤ f.lo) (hw : f.lo + f.w ≤ 64) :
    (deviceReset cause p s).fld f 0 = 0 := by
  have hother : f.reg.off 0 ≠ Reg.off .KETTLE_BOOT 0 := by rw [hr]; decide
  rw [deviceReset_eq, State.fld_setFld_beside _ _ _ _ _ (State.rising_setReg _ _ _ _ (s.atReset.rising_wiped p)) hr hw (.inr (by exact hlo)), State.fld,
    State.reg_setReg_other _ _ _ _ _ _ hother, hr]
  exact (congrArg (· % 2 ^ f.w) (Nat.zero_shiftRight _)).trans (Nat.zero_mod _)

end Sys2Proof.Machine

/-!
The frame of clears and of the rows of service: a clear changes registers and the bases of telemetry's sums, a row of service no work.
-/
namespace Sys2Proof.Machine

open Sys2Proof

-- Clears ------------------------------------------------------------------------------------------------------------

/-- Two states agree on everything but the registers, the bases of telemetry's sums and what the last command sent. -/
def State.ClearOnly (s t : State) : Prop := t = { s with regs := t.regs, kettle := { s.kettle with numBase := t.kettle.numBase }, out := t.out }

theorem clearOnly_refl (s : State) : s.ClearOnly s := rfl

theorem clearOnly_trans {s t u : State} (h1 : s.ClearOnly t) (h2 : t.ClearOnly u) : s.ClearOnly u := by
  unfold State.ClearOnly at *
  rw [h1] at h2
  exact h2

theorem clearOnly_setReg (s : State) (r : Reg) (i : Nat) (w : Word) : s.ClearOnly (s.setReg r i w) := rfl

theorem clearOnly_setFld (s : State) (f : Fld) (i v : Nat) : s.ClearOnly (s.setFld f i v) := rfl

theorem clearOnly_bump (s : State) (f : Fld) (i : Nat) : s.ClearOnly (s.bump f i) := rfl

theorem clearOnly_clearRegs (r : Reg) (s : State) : s.ClearOnly (clearRegs r s) := rfl

theorem clearOnly_rebase (i : Nat) (s : State) : s.ClearOnly (rebase i s) := rfl

theorem clearOnly_eachDo {α : Type} {f : α → State → State} (h : ∀ (x : α) (s : State), s.ClearOnly (f x s)) (l : List α) (s : State) : s.ClearOnly (eachDo l f s) :=
  eachDo_rel clearOnly_refl (fun _ _ _ => clearOnly_trans) h l s

theorem clearOnly_when (s : State) {b : Bool} {f : State → State} (h : ∀ s : State, s.ClearOnly (f s)) : s.ClearOnly (s.when b f) := by
  cases b with
  | false => exact clearOnly_refl s
  | true => exact h s

/-- A command whose effect is such a change is one: the queue, the clock and the fuses it leaves in any case. -/
theorem clearOnly_after (s : State) {f : State → State} (h : ∀ s : State, s.ClearOnly (f s)) : s.ClearOnly (s.after f) := by
  have heff := h s.hushed
  unfold State.ClearOnly at heff
  rw [State.after, heff]
  rfl

-- The effect of each clear

theorem clearOnly_caddyClear (s : State) : s.ClearOnly (caddyClear s) := by
  refine clearOnly_trans ?_ (clearOnly_eachDo (fun _ _ => clearOnly_setFld _ _ _ _) _ _)
  refine clearOnly_trans ?_ (clearOnly_eachDo (fun _ _ => clearOnly_setFld _ _ _ _) _ _)
  rfl

theorem clearOnly_beadClear (v : Word) (s : State) : s.ClearOnly (beadClear v s) :=
  clearOnly_eachDo (fun _ _ => clearOnly_trans (clearOnly_rebase _ _) (clearOnly_setReg _ _ _ _)) _ s

theorem clearOnly_collClear (v : Word) (s : State) : s.ClearOnly (collClear v s) := by
  refine clearOnly_eachDo (fun _ _ => ?_) _ s
  exact clearOnly_trans (clearOnly_trans (clearOnly_setReg _ _ _ _) (clearOnly_setReg _ _ _ _)) (clearOnly_setReg _ _ _ _)

theorem clearOnly_expClear (s : State) : s.ClearOnly (expClear s) := by
  unfold expClear
  iterate 5 refine clearOnly_trans ?_ (clearOnly_clearRegs _ _)
  exact clearOnly_eachDo clearOnly_rebase _ s

theorem clearOnly_sampClear (v : Word) (s : State) : s.ClearOnly (sampClear v s) :=
  clearOnly_eachDo (fun _ _ => clearOnly_setReg _ _ _ _) _ s

theorem clearOnly_frClear (p : Nat) (s : State) : s.ClearOnly (frClear p s) := rfl

theorem clearOnly_qClear (p : Nat) (s : State) : s.ClearOnly (qClear p s) :=
  clearOnly_eachDo (fun _ _ => clearOnly_setFld _ _ _ _) _ s

theorem clearOnly_routeClear (s : State) : s.ClearOnly (routeClear s) := rfl

theorem clearOnly_memregClear (s : State) : s.ClearOnly (memregClear s) :=
  clearOnly_trans (t := clearRegs .MEMREG_ERR (clearRegs .MEMREG_TALLY s)) rfl (clearOnly_eachDo (fun _ _ => clearOnly_setFld _ _ _ _) _ _)

/-- KETTLE_HEALTH_CLR as four clears in turn, one for each bit (R351). -/
theorem healthClear_eq (v : Word) (s : State) : healthClear v s =
    (((s.when (v.getLsbD 3) (fun s => clearRegs .KETTLE_SHADOW_STAT (clearRegs .ROD_SHADOW s))).when (v.getLsbD 2)
      (eachDo (List.range 512) (fun l s => (s.setFld F.LANE_EYE_EYEHMIN l 2047).setFld F.LANE_EYE_EYEWMIN l 1023))).when (v.getLsbD 1)
      (eachDo (List.range 64) (fun n s => s.setFld F.ROD_MARGIN_SLACKMIN n 0xFFFF))).when (v.getLsbD 0)
      (eachDo (List.range 24) (fun d s => s.setFld F.KETTLE_TEMP_TMAX d (s.fld F.KETTLE_TEMP_TNOW d))) := rfl

theorem clearOnly_healthClear (v : Word) (s : State) : s.ClearOnly (healthClear v s) := by
  rw [healthClear_eq]
  refine clearOnly_trans ?_ (clearOnly_when _ (clearOnly_eachDo (fun _ _ => clearOnly_setFld _ _ _ _) _))
  refine clearOnly_trans ?_ (clearOnly_when _ (clearOnly_eachDo (fun _ _ => clearOnly_setFld _ _ _ _) _))
  refine clearOnly_trans ?_ (clearOnly_when _ (clearOnly_eachDo (fun _ _ => clearOnly_trans (clearOnly_setFld _ _ _ _) (clearOnly_setFld _ _ _ _)) _))
  exact clearOnly_when _ (fun _ => rfl)

-- A write of a clear register, accepted or not

theorem clearOnly_countErr (st : Nat) (s : State) : s.ClearOnly (countErr st s) := by
  unfold countErr
  split <;> rfl

theorem clearOnly_formReject (st : Nat) (s : State) : s.ClearOnly (formReject st s) :=
  clearOnly_trans (clearOnly_countErr st s) (clearOnly_bump _ _ _)

section
variable {r : Reg} {i : Nat} {v : Word} (he : ∀ old new s, State.ClearOnly s (ctlEffect r i old new v s))
include he

theorem clearOnly_ctlWrite (w : Option Who) (s : State) : s.ClearOnly (ctlWrite w r i v s).2 := by
  unfold ctlWrite
  split
  · exact clearOnly_bump _ _ _
  · exact clearOnly_trans (clearOnly_setReg _ _ _ _) (he _ _ _)

theorem clearOnly_partyWrite (hat : Reg.at? (r.off i) = some (r, i)) (b : Party) (s : State) : s.ClearOnly (partyWrite b (r.off i) v s) := by
  cases b with
  | oob =>
    simp only [partyWrite, oobWriteAt, hat]
    exact clearOnly_ctlWrite he none s
  | fnid n =>
    simp only [partyWrite, hat]
    split
    · exact clearOnly_formReject 5 s
    · split
      · exact clearOnly_formReject 3 s
      · split
        · exact clearOnly_ctlWrite he _ s
        · exact clearOnly_trans (clearOnly_ctlWrite he _ s) (clearOnly_countErr 5 _)

end

/-- A row that clears: whether its write is accepted or not, it changes registers and the bases of sums alone. -/
def Clears (i : Instr) : Prop := ∀ s t, exec i s = .next t → s.ClearOnly t

theorem clears_of_regRow {x : Instr} {ask : State → Bool} {b : Party} {r : Reg} {i : Nat} {v : Word} (hx : ∀ s, exec x s = regRow ask b r i v s)
    (hat : Reg.at? (r.off i) = some (r, i)) (he : ∀ old new s, State.ClearOnly s (ctlEffect r i old new v s)) : Clears x := by
  intro s t ht
  rw [hx] at ht
  rcases actIf_cases ht with rfl | ⟨-, rfl⟩
  · exact clearOnly_refl _
  · exact clearOnly_after s (clearOnly_partyWrite he hat b)

-- Rows of service ---------------------------------------------------------------------------------------------------

/-- The work that a state holds: what WorkKept compares. -/
def State.work (s : State) :=
  (s.cores, s.brews, s.brewAuth, s.hbm, s.hbmUe, s.hbmOut, s.board, s.coll, s.exp, s.shadow, s.waking)

theorem workKept_iff {s t : State} : s.WorkKept t ↔ t.work = s.work := by
  simp only [State.WorkKept, State.work, Prod.mk.injEq]

theorem work_ite {c : Prop} [Decidable c] {s t u : State} (ht : t.work = s.work) (hu : u.work = s.work) : (if c then t else u).work = s.work := by
  split
  · exact ht
  · exact hu

/-- Counting and records are no work. -/
theorem work_of_recOnly {s t : State} (h : s.RecOnly t) : t.work = s.work := by
  rw [h]
  rfl

-- Link words

theorem work_sendWord (p lt v : Nat) (s : State) : (sendWord p lt v s).work = s.work := by
  unfold sendWord
  dsimp only
  split
  · rfl
  · split
    · rfl
    · split <;> rfl

theorem work_repay (o : Owe) (s : State) : (repay o s).work = s.work :=
  work_ite rfl (work_sendWord _ _ _ _)

theorem work_csyncRx (p : PortId) (w : Word) (s : State) : (csyncRxEffect p w s).work = s.work := by
  unfold csyncRxEffect
  dsimp only
  split
  · split
    · rfl
    · exact work_repay _ _
  · rfl

theorem work_creditRefresh (p : PortId) (s : State) : (creditRefreshEffect p s).work = s.work := by
  refine eachDo_keeps State.work ?_ _ s
  exact fun v t => work_ite rfl (work_sendWord _ _ _ _)

-- Samples and the book

theorem work_sampleQueue (p q : Nat) (s : State) : (sampleQueue p q s).work = s.work := rfl

theorem work_queueSample (s : State) : (queueSampleEffect s).work = s.work :=
  eachDo_keeps State.work (fun p t => eachDo_keeps State.work (work_sampleQueue p) (List.range 32) t) _ s

theorem work_setBook (s : State) (b : Book) : ({ s with book := b } : State).work = s.work := rfl

theorem work_bookBudgetRefill (s : State) : (bookBudgetRefillEffect s).work = s.work := by
  rw [bookBudgetRefillEffect, work_of_recOnly (recOnly_flushCoal _), work_setBook]

-- PLDM

theorem work_pldmAnswer (r : PldmReq) (cc : Nat) (data : List Byte) (s : State) : (pldmAnswer r cc data s).work = s.work :=
  eachDo_keeps State.work (f := fun p s => s.emit (.mctp p)) (fun _ _ => rfl) _ s

theorem work_setFree (s : State) (n : Nat) : ({ s with free := n } : State).work = s.work := rfl

theorem work_freed (s : State) : s.freed.work = s.work := rfl

theorem work_readDone (s : State) : (readDone s).work = s.work := rfl

-- Control messages

theorem work_oobAnswer (m : CtlMsg) (status : Nat) (data : List Byte) (s : State) : (oobAnswer m status data s).work = s.work := by
  unfold oobAnswer
  split <;> rfl

theorem work_oobDo (m : CtlMsg) {op : List Byte → State → Nat × List Byte × State} (h : ∀ d s, (op d s).2.2.work = s.work) (s : State) :
    (oobDo m op s).work = s.work := by
  unfold oobDo
  split
  · exact (work_oobAnswer _ _ _ _).trans (h _ _)
  · exact work_oobAnswer _ _ _ _

-- The test access port and neighbour discovery

theorem work_setTap (j : JtagIr) (s : State) : (setTap j s).work = s.work := rfl

theorem work_sends (o : Out) (s : State) : (sends o s).work = s.work := rfl

/-- A row of service: it changes no work. -/
def KeepsWork (i : Instr) : Prop := ∀ s t, exec i s = .next t → t.work = s.work

theorem keepsWork_of_actIf {i : Instr} {b : State → Bool} {f : State → State} (hx : ∀ s, exec i s = actIf (b s) f s)
    (hf : ∀ s, (f s).work = s.work) : KeepsWork i := by
  intro s t ht
  rw [hx] at ht
  rcases actIf_cases ht with rfl | ⟨-, rfl⟩
  · rfl
  · exact hf s.hushed

theorem keepsWork_extest {i : Instr} {j : JtagIr} (hx : ∀ s, exec i s = extest j s) : KeepsWork i :=
  keepsWork_of_actIf hx (fun _ => work_setTap _ _)

/-- A row of Table 14.9 whose operation changes no work. -/
theorem keepsWork_of_oobRow {i : Instr} {mop : Nat} {m : CtlMsg} {op : List Byte → State → Nat × List Byte × State}
    (hx : ∀ s, exec i s = oobRow mop m op s) (h : ∀ d s, (op d s).2.2.work = s.work) : KeepsWork i :=
  keepsWork_of_actIf hx (work_oobDo m h)

/-- A PLDM row: data of another length are answered with an error, the others as the row says. -/
theorem keepsWork_of_pldm {i : Instr} {ptype code len : Nat} {r : PldmReq} {f : State → State} (hx : ∀ s, exec i s = pldm ptype code len r f s)
    (hf : ∀ s, (f s).work = s.work) : KeepsWork i := by
  refine keepsWork_of_actIf hx (fun s => ?_)
  split
  · exact hf s
  · exact work_pldmAnswer _ _ _ _

-- PLDM rows that answer by cases

theorem keepsWork_getPldmCommands (r : PldmReq) : KeepsWork (.getPldmCommands r) :=
  keepsWork_of_pldm (fun _ => rfl) (fun _ => work_ite (work_pldmAnswer _ _ _ _) (work_pldmAnswer _ _ _ _))

theorem keepsWork_getPldmVersion (r : PldmReq) : KeepsWork (.getPldmVersion r) :=
  keepsWork_of_pldm (fun _ => rfl) (fun _ => work_ite (work_pldmAnswer _ _ _ _) (work_pldmAnswer _ _ _ _))

theorem keepsWork_getSensorReading (r : PldmReq) : KeepsWork (.getSensorReading r) := by
  refine keepsWork_of_pldm (fun _ => rfl) (fun s => work_ite ?_ (work_pldmAnswer _ _ _ _))
  exact (work_readDone _).trans ((work_freed _).trans (work_pldmAnswer _ _ _ _))

theorem keepsWork_getStateSensorReadings (r : PldmReq) : KeepsWork (.getStateSensorReadings r) :=
  keepsWork_of_pldm (fun _ => rfl) (fun _ => work_ite ((work_freed _).trans (work_pldmAnswer _ _ _ _)) (work_pldmAnswer _ _ _ _))

theorem keepsWork_getPdrRepositoryInfo (r : PldmReq) : KeepsWork (.getPdrRepositoryInfo r) :=
  keepsWork_of_pldm (fun _ => rfl) (fun _ => (work_setFree _ _).trans (work_pldmAnswer _ _ _ _))

theorem keepsWork_getPdr (r : PldmReq) : KeepsWork (.getPdr r) := by
  refine keepsWork_of_pldm (fun _ => rfl) (fun s => ?_)
  refine work_ite (work_pldmAnswer _ _ _ _) (work_ite (work_pldmAnswer _ _ _ _) ?_)
  exact work_ite (work_pldmAnswer _ _ _ _) (work_pldmAnswer _ _ _ _)

-- The control message that reads a register

theorem keepsWork_oobRead (m : CtlMsg) : KeepsWork (.oobRead m) := by
  refine keepsWork_of_oobRow (fun _ => rfl) (fun _ s => ?_)
  split <;> rfl

end Sys2Proof.Machine

/-!
The statements about the scope of the manual (R7, R10, R11) and about the rows of control space and of service.
-/
namespace Sys2Proof.Scope

open Sys2Proof Sys2Proof.Machine

/-- Settles O10: a saturated sum fits its field, and the write touches one register. -/
theorem tallySaturates : Obligations.TallySaturates := by
  unfold Obligations.TallySaturates
  intro s f i n hs hw
  obtain ⟨hregs, hcores⟩ := hs
  refine ⟨?_, ⟨s.rising_bumpN f i n hregs, hcores⟩, fun r j hne => s.reg_setReg_other _ _ _ _ _ hne⟩
  have hfit : min (s.fld f i + n) (2 ^ f.w - 1) < 2 ^ f.w :=
    lt_of_le_of_lt (min_le_right _ _) (Nat.sub_lt (Nat.two_pow_pos _) Nat.one_pos)
  exact (s.fld_setFld_self f i _ hregs hw).trans (Nat.mod_eq_of_lt hfit)

/-- Settles O49: each clear is a write of a register whose effect is to clear; each row of service has an effect beside the work. -/
theorem serviceFrame : Obligations.ServiceFrame := by
  unfold Obligations.ServiceFrame
  constructor
  · intro s t b p v i hi ht
    refine (?clears : Clears i) s t ht
    clear ht
    revert i
    simp only [List.forall_mem_cons]
    have hport : Reg.at? (Reg.off .PORT_FRCLR p) = some (.PORT_FRCLR, p.val) := by revert p; decide
    have hegcfg : Reg.at? (Reg.off .PORT_EGCFG p) = some (.PORT_EGCFG, p.val) := by revert p; decide
    exact ⟨clears_of_regRow (fun _ => rfl) (by decide) (fun _ _ s => clearOnly_when s clearOnly_caddyClear),
      clears_of_regRow (fun _ => rfl) (by decide) (fun _ _ s => clearOnly_beadClear v s),
      clears_of_regRow (fun _ => rfl) (by decide) (fun _ _ s => clearOnly_collClear v s),
      clears_of_regRow (fun _ => rfl) (by decide) (fun _ _ s => clearOnly_when s clearOnly_expClear),
      clears_of_regRow (fun _ => rfl) (by decide) (fun _ _ s => clearOnly_sampClear v s),
      clears_of_regRow (fun _ => rfl) hport (fun _ _ s => clearOnly_when s (clearOnly_frClear p)),
      clears_of_regRow (fun _ => rfl) (by decide) (fun _ _ s => clearOnly_when s clearOnly_routeClear),
      clears_of_regRow (fun _ => rfl) (by decide) (fun _ _ s => clearOnly_when s (clearOnly_clearRegs _)),
      clears_of_regRow (fun _ => rfl) (by decide) (fun _ _ s => clearOnly_when s (clearOnly_clearRegs _)),
      clears_of_regRow (fun _ => rfl) (by decide) (fun _ _ s => clearOnly_when s clearOnly_memregClear),
      clears_of_regRow (fun _ => rfl) (by decide) (fun _ _ s => clearOnly_when s (clearOnly_clearRegs _)),
      clears_of_regRow (fun _ => rfl) (by decide) (fun _ _ s => clearOnly_when s (clearOnly_clearRegs _)),
      clears_of_regRow (fun _ => rfl) (by decide) (fun _ _ s => clearOnly_healthClear v s),
      clears_of_regRow (fun _ => rfl) (by decide) (fun _ _ s => clearOnly_healthClear v s),
      clears_of_regRow (fun _ => rfl) (by decide) (fun _ _ s => clearOnly_healthClear v s),
      clears_of_regRow (fun _ => rfl) (by decide) (fun _ _ s => clearOnly_healthClear v s),
      clears_of_regRow (fun _ => rfl) hegcfg (fun _ _ s => clearOnly_when s (clearOnly_qClear p)),
      fun _ h => nomatch h⟩
  · intro s t p w v die x n l h e r src target body bits m i hi ht
    refine workKept_iff.2 ((?keeps : KeepsWork i) s t ht)
    clear ht
    revert i
    simp only [List.forall_mem_cons]
    refine ⟨keepsWork_of_actIf (fun _ => rfl) (fun _ => rfl),
      keepsWork_of_actIf (fun _ => rfl) (work_csyncRx p w),
      keepsWork_of_actIf (fun _ => rfl) (fun _ => rfl),
      keepsWork_of_actIf (fun _ => rfl) (fun _ => rfl),
      keepsWork_of_actIf (fun _ => rfl) (work_creditRefresh p),
      keepsWork_of_actIf (fun _ => rfl) (work_sendWord p _ _),
      keepsWork_of_actIf (fun _ => rfl) (fun _ => rfl),
      keepsWork_of_actIf (fun _ => rfl) (fun _ => rfl),
      keepsWork_of_actIf (fun _ => rfl) (fun _ => rfl),
      keepsWork_of_actIf (fun _ => rfl) (fun _ => rfl),
      keepsWork_of_actIf (fun _ => rfl) (fun _ => rfl),
      -- PLDM
      keepsWork_of_pldm (fun _ => rfl) (work_pldmAnswer r _ _), keepsWork_of_pldm (fun _ => rfl) (work_pldmAnswer r _ _), keepsWork_getPldmCommands r,
      keepsWork_getPldmVersion r, keepsWork_getSensorReading r, keepsWork_getStateSensorReadings r, keepsWork_getPdrRepositoryInfo r, keepsWork_getPdr r,
      keepsWork_of_actIf (fun _ => rfl) (work_pldmAnswer r _ _),
      -- control messages
      keepsWork_of_actIf (fun _ => rfl) (fun _ => work_oobAnswer m _ _ _), keepsWork_oobRead m,
      keepsWork_of_oobRow (fun _ => rfl) (fun _ _ => rfl), keepsWork_of_actIf (fun _ => rfl) (work_oobDo m (fun _ _ => rfl)),
      -- ICMPv6 and the test access port
      keepsWork_of_actIf (fun _ => rfl) (fun _ => work_sends _ _), keepsWork_of_actIf (fun _ => rfl) (fun _ => work_sends _ _),
      keepsWork_of_actIf (fun _ => rfl) (fun _ => rfl), keepsWork_of_actIf (fun _ => rfl) (fun _ => rfl), keepsWork_of_actIf (fun _ => rfl) (fun _ => rfl),
      keepsWork_extest (fun _ => rfl), keepsWork_extest (fun _ => rfl), keepsWork_extest (fun _ => rfl),
      -- queue samples and the book
      keepsWork_of_actIf (b := fun _ => true) (fun _ => rfl) work_queueSample, keepsWork_of_actIf (fun _ => rfl) work_bookBudgetRefill,
      keepsWork_of_actIf (fun _ => rfl) (fun _ => rfl), fun _ h => nomatch h⟩

/-- Settles O54: a device reset lists two registers anew, and carries over what outlasts it. -/
theorem deviceReset : Obligations.DeviceReset := by
  unfold Obligations.DeviceReset
  intro s cause p hc t
  have hflash : t.kettle.flash = s.kettle.flash := congrArg (·.1) s.atReset_outlasts
  have hnonce : t.kettle.bnonce = s.kettle.bnonce := congrArg (·.2.1) s.atReset_outlasts
  have hboot : t.reg .KETTLE_BOOT 0 = bootWord (s.reg .KETTLE_BOOT 0) cause := deviceReset_boot cause p s
  have hkept : ∀ lo n, 62 ≤ lo → lo + n ≤ 64 → wbits (t.reg .KETTLE_BOOT 0) lo n = wbits (s.reg .KETTLE_BOOT 0) lo n := fun lo n hlo hn => by
    rw [hboot, wbits_bootWord_kept _ hc hlo hn]
  refine ⟨rfl, rfl, rfl, rfl, rfl, rfl, rfl, rfl, hflash, hnonce, ?cause, hkept 62 1 (by decide) (by decide), hkept 63 1 (by decide) (by decide), ?between,
    deviceReset_accepted cause p s, deviceReset_oobStat cause p s rfl (by decide) (by decide), deviceReset_oobStat cause p s rfl (by decide) (by decide),
    fun _ _ => deviceReset_rst cause p s⟩
  case cause => exact (congrArg (wbits · 0 8) hboot).trans (wbits_bootWord_cause _ hc)
  case between =>
    intro j h8 h62
    rw [hboot, getLsbD_bootWord_between _ hc h8 h62]

/-- Settles O7: each part is the definition of the reset state, which lists no register and no memory. -/
theorem resetState : Obligations.ResetState := by
  unfold Obligations.ResetState
  exact ⟨rfl, rfl, rfl, rfl, ⟨rfl, rfl, fun _ => ⟨rfl, rfl⟩⟩, ⟨.nil, .nil⟩, fun _ _ => rfl⟩

/-- Settles O45: every row is a write of one register, judged and applied as any other. -/
theorem registerWrites : Obligations.RegisterWrites := by
  unfold Obligations.RegisterWrites
  refine ⟨controlRegisterWrite_does, fun c b p i => ⟨?haltSet, ?haltClear, ?hazclr, ?talclr, ?place, ?placeEff, ?arm, ?disarm, ?makeCurrent, ?qclr⟩⟩
  case arm =>
    refine regRow_does (fun _ _ _ => rfl) (fun _ _ => rfl) fun s v t h => ?_
    rw [ctlEffect_routeBank, if_pos h]
  case disarm =>
    refine regRow_does (fun _ _ _ => rfl) (fun _ _ => rfl) fun s v t h => ?_
    simp only [Bool.and_eq_true, decide_eq_true_eq] at h
    simp [ctlEffect_routeBank, h]
  case makeCurrent =>
    refine regRow_does (fun _ _ _ => rfl) (fun _ _ => rfl) fun s v t h => ?_
    simp only [Bool.and_eq_true, decide_eq_true_eq] at h
    simp [ctlEffect_routeBank, h]
  case qclr => exact regRow_does (fun _ _ _ => rfl) (fun _ _ => rfl) fun _ _ _ h => if_pos h
  all_goals exact regRow_does (fun _ _ _ => rfl) (fun _ _ => rfl) fun _ _ _ _ => rfl

/-- Settles O46: each row is a write of its register whose value asks for the effect. -/
theorem commandWrites : Obligations.CommandWrites := by
  unfold Obligations.CommandWrites
  refine ⟨⟨?caddy, ?bead, ?coll, ?exp, ?samp, fun p => ?fr, ?route, ?breach, ?strict, ?memreg, ?cboard, ?rej, ?shadow, ?eye, ?slack, ?temp⟩,
    fun k => ?rewind, unloadWrite_does, strictWrite_does, auditRecheckGo_does, ?portRemove, ?portReturn, ?coreRemove, ?coreReturn, ?stackRemove, ?stackReturn,
    ?run, ?idle, ?kettleOnly, journalReplay_does⟩
  -- the rows that act at every accepted write
  case bead | coll | samp | shadow | eye | slack | temp | rewind =>
    exact regRow_does (fun _ _ _ => rfl) (fun _ _ => rfl) fun _ _ _ _ => rfl
  -- the rows of a bit that commands
  case caddy | exp | fr | route | breach | strict | memreg | cboard | rej =>
    exact regRow_does (fun _ _ _ => rfl) (fun _ _ => rfl) fun _ _ _ h => if_pos h
  case portRemove | portReturn =>
    exact unitRow_does (fun _ _ _ => rfl) (fun _ => by simp) fun v s haction hkind => by rw [unitCmd_port s hkind, haction]; rfl
  case coreRemove | coreReturn =>
    exact unitRow_does (fun _ _ _ => rfl) (fun _ => by simp) fun v s haction hkind => by rw [unitCmd_core s hkind, haction]; rfl
  case stackRemove | stackReturn =>
    exact unitRow_does (fun _ _ _ => rfl) (fun _ => by simp) fun v s haction hkind => by rw [unitCmd_stack s hkind, haction]; rfl
  case run | idle | kettleOnly =>
    exact pwrRow_does (fun _ _ _ => rfl) fun v s htarget => by simp [pwrCmd, htarget]

/-- Settles O47: a rejected write is counted in the field of its cause, and from the fabric as DENIED too. -/
theorem rejectedWrite : Obligations.RejectedWrite := by
  unfold Obligations.RejectedWrite
  intro s r i v x off hon hoff hal hat
  refine ⟨fun hrej => actIf_after hon ?_, fun n hopen hrej => actIf_after hon ?_⟩
  · rw [← s.hushed_ctlCheck] at hrej
    simp only [partyWrite, oobWriteAt, hoff, hat, ctlWrite_rejected hrej]
  · rw [← s.hushed_ctlCheck] at hrej
    rw [← s.hushed_controlOpen] at hopen
    simp [partyWrite, hopen, hoff, hal, hat, ctlWrite_rejected hrej, countErr]

/-- Settles O48: a changed field has a judged bit, on which its class decides. -/
theorem accessClasses : Obligations.AccessClasses := by
  unfold Obligations.AccessClasses
  intro s r i v f hf _ _ hne
  obtain ⟨b, hb⟩ := exists_mem_judgedBits (r := r) hne
  refine ⟨fun hoob w => ?_, fun hbrew => ?_⟩
  · have hbad : oobBad (some w) r i (ctlRead s r i) v = true :=
      Bool.and_eq_true_iff.2 ⟨rfl, List.any_eq_true.2 ⟨f, hf, by simp [hoob, List.ne_nil_of_mem hb]⟩⟩
    simp [State.ctlCheck, hbad]
  · have hbad : s.brewBad none r i (ctlRead s r i) v = true :=
      List.any_eq_true.2 ⟨f, hf, Bool.and_eq_true_iff.2 ⟨decide_eq_true hbrew, List.any_eq_true.2 ⟨b, hb, rfl⟩⟩⟩
    simp [State.ctlCheck, oobBad, hbad]

end Sys2Proof.Scope

/-! The words of the control core (Tables 3.3 and 3.4): their fields, and what decodes from them. -/
namespace Sys2Proof
open Machine

/-- The bits of x come above those of y. -/
theorem toNat_append_eq {m n : Nat} (x : BitVec m) (y : BitVec n) : (x ++ y).toNat = x.toNat * 2 ^ n + y.toNat := by
  rw [BitVec.toNat_append, ← Nat.shiftLeft_add_eq_or_of_lt y.isLt, Nat.shiftLeft_eq]

/-- A field as a number. -/
theorem toNat_field {v : Nat} (w : BitVec v) (lo n : Nat) : (w.extractLsb' lo n).toNat = w.toNat / 2 ^ lo % 2 ^ n := by
  rw [BitVec.extractLsb'_toNat, Nat.shiftRight_eq_div_pow]

theorem toNat_encR (op : Nat) (d a b : GReg) (fn : Nat) :
    (encR op d a b fn).toNat = op % 2 ^ 6 * 2 ^ 26 + d.toNat * 2 ^ 21 + a.toNat * 2 ^ 16 + b.toNat * 2 ^ 11 + fn % 2 ^ 11 := by
  simp only [encR, toNat_append_eq, BitVec.toNat_ofNat]
  omega

theorem toNat_encI (op : Nat) (d a : GReg) (i : BitVec 16) :
    (encI op d a i).toNat = op % 2 ^ 6 * 2 ^ 26 + d.toNat * 2 ^ 21 + a.toNat * 2 ^ 16 + i.toNat := by
  simp only [encI, toNat_append_eq, BitVec.toNat_ofNat]
  omega

theorem toNat_encJ (op : Nat) (o : BitVec 26) : (encJ op o).toNat = op % 2 ^ 6 * 2 ^ 26 + o.toNat := by
  simp only [encJ, toNat_append_eq, BitVec.toNat_ofNat]

theorem toNat_encS (op : Nat) (d a : GReg) (t : Sel) (f : BitVec 4) :
    (encS op d a t f).toNat = op % 2 ^ 6 * 2 ^ 26 + d.toNat * 2 ^ 21 + a.toNat * 2 ^ 16 + t.toNat * 2 ^ 12 + f.toNat * 2 ^ 8 := by
  simp only [encS, toNat_append_eq, BitVec.toNat_ofNat]
  omega

@[simp] theorem op_encR (op : Nat) (d a b : GReg) (fn : Nat) : Rod.op (encR op d a b fn) = op % 64 := by
  rw [Rod.op, toNat_field, toNat_encR]
  omega

@[simp] theorem rd_encR (op : Nat) (d a b : GReg) (fn : Nat) : Rod.rd (encR op d a b fn) = d := by
  refine BitVec.eq_of_toNat_eq ?_
  rw [Rod.rd, toNat_field, toNat_encR]
  omega

@[simp] theorem rs1_encR (op : Nat) (d a b : GReg) (fn : Nat) : Rod.rs1 (encR op d a b fn) = a := by
  refine BitVec.eq_of_toNat_eq ?_
  rw [Rod.rs1, toNat_field, toNat_encR]
  omega

@[simp] theorem rs2_encR (op : Nat) (d a b : GReg) (fn : Nat) : Rod.rs2 (encR op d a b fn) = b := by
  refine BitVec.eq_of_toNat_eq ?_
  rw [Rod.rs2, toNat_field, toNat_encR]
  omega

@[simp] theorem fn_encR (op : Nat) (d a b : GReg) (fn : Nat) : Rod.fn (encR op d a b fn) = fn % 2048 := by
  rw [Rod.fn, toNat_field, toNat_encR]
  omega

@[simp] theorem op_encI (op : Nat) (d a : GReg) (i : BitVec 16) : Rod.op (encI op d a i) = op % 64 := by
  rw [Rod.op, toNat_field, toNat_encI]
  omega

@[simp] theorem rd_encI (op : Nat) (d a : GReg) (i : BitVec 16) : Rod.rd (encI op d a i) = d := by
  refine BitVec.eq_of_toNat_eq ?_
  rw [Rod.rd, toNat_field, toNat_encI]
  omega

@[simp] theorem rs1_encI (op : Nat) (d a : GReg) (i : BitVec 16) : Rod.rs1 (encI op d a i) = a := by
  refine BitVec.eq_of_toNat_eq ?_
  rw [Rod.rs1, toNat_field, toNat_encI]
  omega

@[simp] theorem imm_encI (op : Nat) (d a : GReg) (i : BitVec 16) : Rod.imm (encI op d a i) = i := by
  refine BitVec.eq_of_toNat_eq ?_
  rw [Rod.imm, toNat_field, toNat_encI]
  omega

@[simp] theorem op_encJ (op : Nat) (o : BitVec 26) : Rod.op (encJ op o) = op % 64 := by
  rw [Rod.op, toNat_field, toNat_encJ]
  omega

@[simp] theorem joff_encJ (op : Nat) (o : BitVec 26) : Rod.joff (encJ op o) = o := by
  refine BitVec.eq_of_toNat_eq ?_
  rw [Rod.joff, toNat_field, toNat_encJ]
  omega

@[simp] theorem op_encS (op : Nat) (d a : GReg) (t : Sel) (f : BitVec 4) : Rod.op (encS op d a t f) = op % 64 := by
  rw [Rod.op, toNat_field, toNat_encS]
  omega

@[simp] theorem rd_encS (op : Nat) (d a : GReg) (t : Sel) (f : BitVec 4) : Rod.rd (encS op d a t f) = d := by
  refine BitVec.eq_of_toNat_eq ?_
  rw [Rod.rd, toNat_field, toNat_encS]
  omega

@[simp] theorem rs1_encS (op : Nat) (d a : GReg) (t : Sel) (f : BitVec 4) : Rod.rs1 (encS op d a t f) = a := by
  refine BitVec.eq_of_toNat_eq ?_
  rw [Rod.rs1, toNat_field, toNat_encS]
  omega

@[simp] theorem sel_encS (op : Nat) (d a : GReg) (t : Sel) (f : BitVec 4) : Rod.sel (encS op d a t f) = t := by
  refine BitVec.eq_of_toNat_eq ?_
  rw [Rod.sel, toNat_field, toNat_encS]
  omega

@[simp] theorem fld_encS (op : Nat) (d a : GReg) (t : Sel) (f : BitVec 4) : Rod.fld (encS op d a t f) = f := by
  refine BitVec.eq_of_toNat_eq ?_
  rw [Rod.fld, toNat_field, toNat_encS]
  omega

theorem sOk_encS (op : Nat) (d a : GReg) (t : Sel) (f : BitVec 4) : Rod.sOk (encS op d a t f) = decide (f.toNat < 6) := by
  have hlow : (encS op d a t f).extractLsb' 0 8 = 0#8 := BitVec.eq_of_toNat_eq (by rw [toNat_field, toNat_encS]; simp; omega)
  rw [Rod.sOk, hlow, fld_encS]
  rfl

/-- A word is the R-format word of its fields. -/
theorem encR_fields (w : BitVec 32) : encR (Rod.op w) (Rod.rd w) (Rod.rs1 w) (Rod.rs2 w) (Rod.fn w) = w := by
  refine BitVec.eq_of_toNat_eq ?_
  rw [toNat_encR]
  simp only [Rod.op, Rod.rd, Rod.rs1, Rod.rs2, Rod.fn, toNat_field]
  omega

/-- A word with a nonzero OP or FN is not the word of zero. -/
theorem ne_zero_of_op {w : BitVec 32} (h : Rod.op w ≠ 0) : w ≠ 0 := fun hw => h (by rw [hw]; rfl)

theorem ne_zero_of_fn {w : BitVec 32} (h : Rod.fn w ≠ 0) : w ≠ 0 := fun hw => h (by rw [hw]; rfl)

/-- ADD g0, g0, g0 alone of the words of OP and FN 0 is the word of zero. -/
theorem encR_add_eq_zero {d a b : GReg} : encR 0 d a b 0 = 0 ↔ d = 0 ∧ a = 0 ∧ b = 0 := by
  constructor
  · intro h
    refine ⟨(rd_encR 0 d a b 0).symm.trans ?_, (rs1_encR 0 d a b 0).symm.trans ?_, (rs2_encR 0 d a b 0).symm.trans ?_⟩ <;> rw [h] <;> rfl
  · rintro ⟨rfl, rfl, rfl⟩
    rfl

theorem queueOf_val (q : QueueId) : queueOf (q.val % 2048) = some q := by
  rw [Nat.mod_eq_of_lt (by omega), queueOf, dif_pos q.isLt]

-- Decoding by OP ---------------------------------------------------------------------------------------------------

theorem decodeRod_alu {c : CoreId} {w : BitVec 32} (hw : w ≠ 0) (h : Rod.op w = 0) :
    decodeRod c w = decodeAlu c (Rod.fn w) (Rod.rd w) (Rod.rs1 w) (Rod.rs2 w) := by
  rw [decodeRod, if_neg hw, h]
  rfl

theorem decodeRod_push {c : CoreId} {w : BitVec 32} (h : Rod.op w = 0x28) :
    decodeRod c w = (queueOf (Rod.fn w)).map (fun q => .push c q (Rod.rs1 w) (Rod.rs2 w)) := by
  rw [decodeRod, if_neg (ne_zero_of_op (by rw [h]; decide)), h]
  rfl

theorem decodeRod_qcnt {c : CoreId} {w : BitVec 32} (h : Rod.op w = 0x29) :
    decodeRod c w = (queueOf (Rod.fn w)).map (fun q => .qcnt c (Rod.rd w) q) := by
  rw [decodeRod, if_neg (ne_zero_of_op (by rw [h]; decide)), h]
  rfl

/-- The other OPs: format I, B or J, or else S. -/
theorem decodeRod_other {c : CoreId} {w : BitVec 32} (h0 : Rod.op w ≠ 0) (h28 : Rod.op w ≠ 0x28) (h29 : Rod.op w ≠ 0x29) :
    decodeRod c w = (decodeImm c w).orElse (fun _ => decodeSel c w) := by
  rw [decodeRod, if_neg (ne_zero_of_op h0)]
  split
  · contradiction
  · contradiction
  · contradiction
  · rfl

/-- Decoding what encodeRod writes gives the instruction back (R70). -/
theorem decodeRod_encodeRod {i : Instr} {w : BitVec 32} (hi : i.wellFormed = true) (h : encodeRod i = some w) : decodeRod (rodCore i) w = some i := by
  cases i
  case add c d a b =>
    simp only [encodeRod, nonzeroWord, Option.ite_none_left_eq_some, Option.some.injEq] at h
    obtain ⟨hne, rfl⟩ := h
    rw [decodeRod_alu hne (op_encR ..)]
    simp [decodeAlu, rodCore]
  case sub | and | or | xor | sll | srl | sra | slt | sltu | mul | mulhu =>
    injection h with h
    subst h
    rw [decodeRod_alu (ne_zero_of_fn (by simp)) (op_encR ..)]
    simp [decodeAlu, rodCore]
  case push c q a b =>
    injection h with h
    subst h
    rw [decodeRod_push (op_encR ..)]
    simp [queueOf_val, rodCore]
  case qcnt c d q =>
    injection h with h
    subst h
    rw [decodeRod_qcnt (op_encR ..)]
    simp [queueOf_val, rodCore]
  case addi | andi | ori | xori | slli | srli | srai | lui | shori | slti | ld | lw | st | sw | beq | bne | blt | bge | bltu | bgeu | jal | jalr =>
    injection h with h
    subst h
    rw [decodeRod_other (by simp) (by simp) (by simp)]
    simp [decodeImm, rodCore]
  case arset c t f a =>
    have hf : f.toNat < 6 := of_decide_eq_true hi
    injection h with h
    subst h
    rw [decodeRod_other (by simp) (by simp) (by simp)]
    simp [decodeImm, decodeSel, sOk_encS, hf, rodCore]
  case arget c d t f =>
    have hf : f.toNat < 6 := of_decide_eq_true hi
    injection h with h
    subst h
    rw [decodeRod_other (by simp) (by simp) (by simp)]
    simp [decodeImm, decodeSel, sOk_encS, hf, rodCore]
  case arstep | araddr | tsig | twait | tread | rdstep | rdcyc | rdent | rdid | stepend | halt =>
    injection h with h
    subst h
    rw [decodeRod_other (by simp) (by simp) (by simp)]
    simp [decodeImm, decodeSel, sOk_encS, rodCore]
  all_goals exact nomatch h

-- What decodes to ADD -----------------------------------------------------------------------------------------------

theorem decodeImm_ne_add (c e : CoreId) (w : BitVec 32) (d a b : GReg) : decodeImm c w ≠ some (.add e d a b) := by
  unfold decodeImm
  dsimp only
  split <;> nofun

theorem decodeSel_ne_add (c e : CoreId) (w : BitVec 32) (d a b : GReg) : decodeSel c w ≠ some (.add e d a b) := by
  unfold decodeSel
  dsimp only
  split
  · split <;> nofun
  · nofun

/-- A word that decodes to ADD has FN 0. -/
theorem decodeAlu_eq_add {c e : CoreId} {fn : Nat} {d a b d' a' b' : GReg} (h : decodeAlu c fn d a b = some (.add e d' a' b')) :
    fn = 0 ∧ d = d' ∧ a = a' ∧ b = b' := by
  unfold decodeAlu at h
  split at h
  case h_1 => simp_all
  all_goals exact nomatch h

/-- The word of an ADD that decodes is the one that encodeRod writes. -/
theorem encodeRod_add_of_decodeRod {c e : CoreId} {w : BitVec 32} {d a b : GReg} (h : decodeRod c w = some (.add e d a b)) :
    encodeRod (.add e d a b) = some w := by
  by_cases hw : w = 0
  · subst hw
    exact nomatch h
  by_cases h0 : Rod.op w = 0
  · rw [decodeRod_alu hw h0] at h
    obtain ⟨hfn, rfl, rfl, rfl⟩ := decodeAlu_eq_add h
    have hword : encR 0 (Rod.rd w) (Rod.rs1 w) (Rod.rs2 w) 0 = w := by
      have := encR_fields w
      rwa [h0, hfn] at this
    rw [encodeRod, hword, nonzeroWord, if_neg hw]
  by_cases h28 : Rod.op w = 0x28
  · rw [decodeRod_push h28] at h
    obtain ⟨q, -, hq⟩ := Option.map_eq_some_iff.1 h
    exact nomatch hq
  by_cases h29 : Rod.op w = 0x29
  · rw [decodeRod_qcnt h29] at h
    obtain ⟨q, -, hq⟩ := Option.map_eq_some_iff.1 h
    exact nomatch hq
  rw [decodeRod_other h0 h28 h29] at h
  cases himm : decodeImm c w with
  | some j =>
    rw [himm] at h
    exact absurd (himm.trans h) (decodeImm_ne_add c e w d a b)
  | none =>
    rw [himm] at h
    exact absurd h (decodeSel_ne_add c e w d a b)

end Sys2Proof

/-! The control core's instructions (Table 3.4): their results, branches, loads and stores. -/
namespace Sys2Proof.Machine
open Sys2Proof

/-- A comparison as a word. -/
theorem flagWord_decide (p : Prop) [Decidable p] : flagWord (decide p) = if p then 1 else 0 := by
  by_cases h : p <;> simp [flagWord, h]

theorem flagWord_slt (x y : Word) : flagWord (x.slt y) = if x.toInt < y.toInt then 1 else 0 := flagWord_decide _

theorem flagWord_ult (x y : Word) : flagWord (x.ult y) = if x.toNat < y.toNat then 1 else 0 := flagWord_decide _

/-- An immediate keeps its value as it is sign-extended. -/
theorem flagWord_slt_signExtend (x : Word) (m : BitVec 16) : flagWord (x.slt (m.signExtend 64)) = if x.toInt < m.toInt then 1 else 0 := by
  rw [flagWord_slt, BitVec.toInt_signExtend_of_le (by decide)]

/-- The low half of a product of words. -/
theorem mul_eq_ofNat (x y : Word) : x * y = BitVec.ofNat 64 (x.toNat * y.toNat) := BitVec.eq_of_toNat_eq (by simp [BitVec.toNat_mul])

/-- The branches of the negated comparisons. -/
theorem not_slt_eq (x y : Word) : (!x.slt y) = decide (y.toInt ≤ x.toInt) := by rw [BitVec.slt, ← decide_not, decide_eq_decide, not_lt]

theorem not_ult_eq (x y : Word) : (!x.ult y) = decide (y.toNat ≤ x.toNat) := by rw [BitVec.ult, ← decide_not, decide_eq_decide, not_lt]

/-- A branch whose relation is P goes OFF instructions on where P holds, and past itself where not. -/
theorem branch_cored {c : CoreId} {i : Instr} {a b : GReg} {m : BitVec 16} {p : Word → Word → Bool} {s : State} {P : Prop} [Decidable P]
    (h : s.runs c i = true) (hp : p ((s.core c).gr a) ((s.core c).gr b) = decide P) :
    branch c i a b m p s = .next (s.cored c (if P then { s.core c with pc := (s.core c).pc + 4 * m } else { s.core c with pc := (s.core c).pc + 4 })) := by
  refine (ctl_next h).trans ?_
  rw [hp, Core.advance]
  by_cases hP : P <;> simp [hP]

theorem ldstOk_iff {a : Word} {w : Nat} : ldstOk a w = true ↔ a.toNat < 0x80000 ∧ a.toNat % w = 0 := by
  simp [ldstOk]

/-- A load at an address that R71 permits. -/
theorem ctlLoad_next {c : CoreId} {i : Instr} {r a : GReg} {m : BitVec 16} {w : Nat} {s : State} (h : s.runs c i = true)
    (hok : ldstOk ((s.core c).gr a + m.signExtend 64) w = true) :
    ctlLoad c i r a m w s = .next (s.after (fun t =>
      let k := t.core c
      let x := (k.gr a + m.signExtend 64).toNat
      let bad := k.share.clash 6 (x, w, false)
      { t.setCore c (((k.touch 6 x w false).setGr r (BitVec.ofNat 64 (ldBytes k x w bad t.free))).advance) with free := t.free + bad.length })) :=
  actIf_after h (if_pos hok)

/-- A store at an address that R71 permits. -/
theorem ctlStore_next {c : CoreId} {i : Instr} {r a : GReg} {m : BitVec 16} {w : Nat} {s : State} (h : s.runs c i = true)
    (hok : ldstOk ((s.core c).gr a + m.signExtend 64) w = true) :
    ctlStore c i r a m w s = .next (s.after (fun t =>
      let k := t.core c
      let x := (k.gr a + m.signExtend 64).toNat
      freeRod c (k.share.clash 5 (x, w, true)) (t.setCore c ((k.touch 5 x w true).wrMem x (bytesLE w (k.gr r).toNat)).advance))) :=
  actIf_after h (if_pos hok)

theorem ctlLoad_range {c : CoreId} {i : Instr} {r a : GReg} {m : BitVec 16} {w : Nat} {s : State} (h : s.runs c i = true)
    (hok : ¬ ldstOk ((s.core c).gr a + m.signExtend 64) w = true) :
    ctlLoad c i r a m w s = .next (s.after (fun t => coreFault c .ldstRange 7 (t.core c).pc t)) :=
  actIf_after h (if_neg hok)

theorem ctlStore_range {c : CoreId} {i : Instr} {r a : GReg} {m : BitVec 16} {w : Nat} {s : State} (h : s.runs c i = true)
    (hok : ¬ ldstOk ((s.core c).gr a + m.signExtend 64) w = true) :
    ctlStore c i r a m w s = .next (s.after (fun t => coreFault c .ldstRange 7 (t.core c).pc t)) :=
  actIf_after h (if_neg hok)

/-- Accesses of the control core never conflict with its own (R83). -/
theorem Share.clash_control {x : Share} (h : ∀ t ∈ x.log, t.who = 5 ∨ t.who = 6) {p : Nat} (hp : p = 5 ∨ p = 6) (sp : Span) : x.clash p sp = [] := by
  have hordered : ∀ t ∈ x.log, x.ordered p t = true := fun t ht => by
    rcases hp with rfl | rfl <;> rcases h t ht with ht | ht <;> simp [Share.ordered, sameParty, partyOf, ht]
  have hlog : x.log.filter (fun t => !x.ordered p t && (sp.2.2 || t.wr) && decide (t.a < sp.1 + sp.2.1 ∧ sp.1 < t.a + t.len)) = [] :=
    List.filter_eq_nil_iff.2 fun t ht => by simp [hordered t ht]
  rw [Share.clash, hlog]
  simp

end Sys2Proof.Machine

/-! What work on one core changes. -/
namespace Sys2Proof.Machine
open Sys2Proof

-- Tables and the states of cores ----------------------------------------------------------------------------------

/-- Of two writes to a key the first, of a value that is not the default, leaves no trace. -/
theorem SMap.put_put {α : Type} [DecidableEq α] (m : SMap α) {d v : α} (w : α) (k : Nat) (hv : v ≠ d) : (m.put d k v).put d k w = m.put d k w := by
  induction m with
  | nil => simp [SMap.put, hv]
  | cons x t ih =>
    obtain ⟨k', v'⟩ := x
    simp only [SMap.put]
    split
    · simp [SMap.put]
    · split
      · simp [SMap.put]
      · simp_all [SMap.put]

/-- A core that is not IDLE and is written again holds what was written last. -/
theorem State.setCore_setCore (s : State) (c : Nat) {k : Core} (l : Core) (h : k.st ≠ .idle) : (s.setCore c k).setCore c l = s.setCore c l :=
  congrArg (fun m => { s with cores := m }) (SMap.put_put s.cores l c (Core.ne_default h))

@[simp] theorem State.after_core (s : State) (f : State → State) (d : Nat) : (s.after f).core d = (f s.hushed).core d := rfl

-- What work on one core changes -----------------------------------------------------------------------------------

/-- Two states agree on everything but core c, the registers, the records of the book and the stream, the free values used up and what is sent. -/
def State.OneCore (s t : State) (c : Nat) : Prop :=
  (∀ d, d ≠ c → t.core d = s.core d) ∧ t = { s with regs := t.regs, book := t.book, tele := t.tele, cores := t.cores, free := t.free, out := t.out }

theorem oneCore_refl (s : State) (c : Nat) : s.OneCore s c := ⟨fun _ _ => rfl, rfl⟩

theorem oneCore_trans {s t u : State} {c : Nat} (h1 : s.OneCore t c) (h2 : t.OneCore u c) : s.OneCore u c := by
  obtain ⟨hcores1, hst1⟩ := h1
  obtain ⟨hcores2, hst2⟩ := h2
  refine ⟨fun d hd => (hcores2 d hd).trans (hcores1 d hd), ?_⟩
  rw [hst1] at hst2
  exact hst2

theorem oneCore_of_recOnly {s t : State} (h : s.RecOnly t) (c : Nat) : s.OneCore t c := by
  refine ⟨fun d _ => recOnly_core h d, ?_⟩
  unfold State.RecOnly at h
  rw [h]

theorem oneCore_setCore (s : State) (c : Nat) (k : Core) : s.OneCore (s.setCore c k) c := ⟨fun _ hd => s.core_setCore_other _ _ _ hd, rfl⟩

theorem oneCore_setFld (s : State) (f : Fld) (i v c : Nat) : s.OneCore (s.setFld f i v) c := oneCore_of_recOnly (recOnly_setFld ..) c

theorem oneCore_free (s : State) (n c : Nat) : s.OneCore { s with free := n } c := ⟨fun _ _ => rfl, rfl⟩

/-- A command whose effect is work on one core leaves the queue, the clock and the fuses too. -/
theorem oneCore_after {s : State} {f : State → State} {c : Nat} (h : s.hushed.OneCore (f s.hushed) c) : s.OneCore (s.after f) c := by
  obtain ⟨hcores, hst⟩ := h
  refine ⟨fun d hd => hcores d hd, ?_⟩
  rw [State.after, hst]
  rfl

theorem oneCore_eachDo {α : Type} {f : α → State → State} {c : Nat} (h : ∀ (x : α) (s : State), s.OneCore (f x s) c) (l : List α) (s : State) :
    s.OneCore (eachDo l f s) c :=
  eachDo_rel (R := fun s t => s.OneCore t c) (oneCore_refl · c) (fun _ _ _ => oneCore_trans) h l s

theorem onlyCore_of_oneCore {s t : State} {c : CoreId} (h : s.OneCore t c) : s.OnlyCore t c := by
  obtain ⟨hcores, hst⟩ := h
  refine ⟨⟨hcores, ?_⟩, ?_⟩
  · rw [hst]
    exact ⟨rfl, rfl, rfl, rfl, rfl, rfl, rfl, rfl, rfl, rfl, rfl, rfl, rfl, rfl⟩
  · rw [hst]

theorem oneCore_hbm {s t : State} {c : Nat} (h : s.OneCore t c) : t.hbm = s.hbm := by rw [h.2]

theorem oneCore_coreFault (c : Nat) (e : RodErr) (q : Nat) (pc : BitVec 16) (s : State) : s.OneCore (coreFault c e q pc s) c := by
  unfold coreFault
  dsimp only
  split
  · exact oneCore_setCore ..
  · exact oneCore_trans (oneCore_setCore ..) (oneCore_of_recOnly (recOnly_faultRec ..) c)

/-- A fault of a core that is in FAULT already leaves it there, with nothing more to issue (R100). -/
theorem coreFault_again (c : Nat) (e : RodErr) (q : Nat) (pc : BitVec 16) (s : State) (h : (s.core c).st = .fault) :
    (coreFault c e q pc s).core c = { s.core c with drain := false } := by
  unfold coreFault
  dsimp only
  rw [if_pos h, State.core_setCore_st _ _ _ (by simp [h])]

theorem freeRod_oneCore (c : Nat) (as : List Nat) (s : State) : s.OneCore (freeRod c as s) c := by
  unfold freeRod
  split
  · exact oneCore_refl s c
  · exact oneCore_trans (oneCore_setCore ..) (oneCore_free ..)

theorem oneCore_haltSet (c : Nat) (s : State) : s.OneCore (haltSet c s) c := by
  unfold haltSet
  dsimp only
  split
  · exact oneCore_trans (oneCore_setFld ..) (oneCore_setCore ..)
  · exact oneCore_setFld ..

theorem oneCore_makeVisible (c : Nat) (p : VPend) (s : State) : s.OneCore (makeVisible c p s) c := by
  unfold makeVisible
  dsimp only
  split
  · exact oneCore_trans (oneCore_setCore ..) (oneCore_of_recOnly (recOnly_hazard ..) c)
  · exact oneCore_setCore ..

theorem oneCore_drainVec (c : Nat) (s : State) : s.OneCore (drainVec c s) c :=
  oneCore_trans (oneCore_setCore ..) (oneCore_eachDo (oneCore_makeVisible c) ..)

end Sys2Proof.Machine

/-! What the record of a step changes (R90, R361). -/
namespace Sys2Proof.Machine
open Sys2Proof

/-- Two states agree on everything but the records of the book and the stream and registers, of which TALLY_BOOK_STAT and core c's
ROD_HAZ_FIRST alone change. -/
def State.StepRecOnly (c : Nat) (s t : State) : Prop :=
  s.RecOnly t ∧ ∀ (x : Reg) (j : Nat), x.off j ≠ Reg.off .TALLY_BOOK_STAT 0 → x.off j ≠ Reg.off .ROD_HAZ_FIRST c → t.reg x j = s.reg x j

theorem stepRecOnly_trans {c : Nat} {s t u : State} (h1 : s.StepRecOnly c t) (h2 : t.StepRecOnly c u) : s.StepRecOnly c u := by
  obtain ⟨hrec1, hreg1⟩ := h1
  obtain ⟨hrec2, hreg2⟩ := h2
  exact ⟨recOnly_trans hrec1 hrec2, fun x j hb hf => (hreg2 x j hb hf).trans (hreg1 x j hb hf)⟩

/-- What changes no register but only the records. -/
theorem stepRecOnly_of_regs {c : Nat} {s t : State} (h : s.RecOnly t) (hr : t.regs = s.regs) : s.StepRecOnly c t :=
  ⟨h, fun x j _ _ => by rw [State.reg, hr, State.reg]⟩

theorem stepRecOnly_refl (c : Nat) (s : State) : s.StepRecOnly c s := stepRecOnly_of_regs rfl rfl

theorem stepRecOnly_bookPut (c : Nat) (r : Rec) (s : State) : s.StepRecOnly c (bookPut r s) := ⟨recOnly_bookPut r s, fun _ _ hb _ => reg_bookPut hb r s⟩

theorem stepRecOnly_bookExcess (c : Nat) (r : Rec) (s : State) : s.StepRecOnly c (bookExcess r s) := by
  refine stepRecOnly_of_regs (recOnly_bookExcess r s) ?_
  unfold bookExcess
  dsimp only
  split <;> rfl

theorem stepRecOnly_setBook (c : Nat) (s : State) (b : Book) : s.StepRecOnly c { s with book := b } := stepRecOnly_of_regs rfl rfl

theorem stepRecOnly_setTele (c : Nat) (s : State) (l : Tele) : s.StepRecOnly c { s with tele := l } := stepRecOnly_of_regs rfl rfl

/-- The step record of core c changes the records, TALLY_BOOK_STAT and its own ROD_HAZ_FIRST (R90, R361). -/
theorem stepRecOnly_stepRecord (c slot : Nat) (s : State) : s.StepRecOnly c (stepRecord c slot s) := by
  unfold stepRecord
  extract_lets k valid w toks
  split
  rename_i r s1 hstep
  have h1 : s.StepRecOnly c s1 := by
    cases hstep
    exact stepRecOnly_setBook ..
  split
  rename_i t s2 htok
  have h2 : s1.StepRecOnly c s2 := by
    split at htok
    · cases htok
      exact stepRecOnly_setBook ..
    · cases htok
      exact stepRecOnly_refl ..
  extract_lets old keepOld tele s3 last excess book put s4
  have h3 : s2.StepRecOnly c s3 := by
    unfold s3
    split
    · exact stepRecOnly_refl ..
    · exact stepRecOnly_setTele ..
  have h4 : s3.StepRecOnly c s4 := by
    unfold s4
    split
    · split
      · have hexcess : s3.StepRecOnly c excess := stepRecOnly_bookExcess ..
        split
        · exact stepRecOnly_trans hexcess (stepRecOnly_bookExcess ..)
        · exact hexcess
      · have hput : s3.StepRecOnly c put := stepRecOnly_trans (stepRecOnly_setBook c s3 _) (stepRecOnly_bookPut ..)
        split
        · exact stepRecOnly_trans hput (stepRecOnly_bookPut ..)
        · exact hput
    · exact stepRecOnly_refl ..
  refine stepRecOnly_trans (stepRecOnly_trans (stepRecOnly_trans (stepRecOnly_trans h1 h2) h3) h4) ?_
  exact ⟨rfl, fun _ _ _ hf => s4.reg_setReg_other _ _ _ _ _ hf⟩

@[simp] theorem stepRecord_core (c slot d : Nat) (s : State) : (stepRecord c slot s).core d = s.core d := recOnly_core (stepRecOnly_stepRecord c slot s).1 d

/-- A register beside TALLY_BOOK_STAT and the core's ROD_HAZ_FIRST reads as before. -/
theorem stepRecord_reg {x : Reg} {j c : Nat} (hbook : x.off j ≠ Reg.off .TALLY_BOOK_STAT 0) (hfirst : x.off j ≠ Reg.off .ROD_HAZ_FIRST c) (slot : Nat)
    (s : State) : (stepRecord c slot s).reg x j = s.reg x j := (stepRecOnly_stepRecord c slot s).2 x j hbook hfirst

end Sys2Proof.Machine

/-! HALT, visible vector registers, and releases (R65, R66, R84, R428). -/
namespace Sys2Proof.Machine
open Sys2Proof

/-- Fields of registers that read the same read the same. -/
theorem State.fld_congr {s t : State} {f : Fld} {i : Nat} (h : t.reg f.reg i = s.reg f.reg i) : t.fld f i = s.fld f i := by rw [State.fld, h, State.fld]

theorem State.bit_congr {s t : State} {f : Fld} {i : Nat} (h : t.reg f.reg i = s.reg f.reg i) : t.bit f i = s.bit f i := by
  rw [State.bit, State.fld_congr h, State.bit]

-- HALT (R428) -------------------------------------------------------------------------------------------------------

/-- HALT reads as set once it is set. -/
theorem State.bit_setFld_halt (s : State) (c : Nat) : (s.setFld F.ROD_CTRL_HALT c 1).bit F.ROD_CTRL_HALT c = true := by
  have hset (w : Word) : (wset w 0 1 1).getLsbD 0 = true := getLsbD_wset w 0 1 1 0 (by decide)
  have hrst : Reg.rst .ROD_CTRL c = 0 := by
    rw [Reg.rst, show Reg.wordsPer .ROD_CTRL = 1 from rfl, Nat.mod_one]
    rfl
  have hne : wset (s.reg .ROD_CTRL c) 0 1 1 ≠ Reg.rst .ROD_CTRL c := fun h => by
    have := hset (s.reg .ROD_CTRL c)
    rw [h, hrst] at this
    exact nomatch this
  have hread : (s.setFld F.ROD_CTRL_HALT c 1).reg .ROD_CTRL c = wset (s.reg .ROD_CTRL c) 0 1 1 := SMap.lk_put_ne _ _ _ _ hne
  rw [State.bit_eq_getLsbD _ _ _ rfl]
  exact (congrArg (·.getLsbD 0) hread).trans (hset _)

/-- HALT of core c outlasts writes to its ROD_HAZ_CNT and ROD_HAZ_FIRST. -/
theorem off_halt_ne_hazCnt (c : Nat) : Reg.off .ROD_CTRL c ≠ Reg.off .ROD_HAZ_CNT c := by simp [Reg.off, Reg.base]

theorem off_halt_ne_hazFirst (c : Nat) : Reg.off .ROD_CTRL c ≠ Reg.off .ROD_HAZ_FIRST c := by simp [Reg.off, Reg.base]

/-- A core enters a state where HALT is clear. -/
theorem enterCoreSt_of_clear {c : Nat} {st : CoreSt} {s : State} (h : s.bit F.ROD_CTRL_HALT c = false) :
    enterCoreSt c st s = s.setCore c { s.core c with st := st } := by simp [enterCoreSt, h]

/-- HALT set stops a core that is LOADED, in RUN with its current instruction done, or in STEPWAIT, and not in quarantine. -/
theorem haltSet_core {c : Nat} {s : State} {k : Core} (hk : s.core c = k) :
    (haltSet c s).core c =
      if k.quar = false ∧ (k.st = .loaded ∨ (k.st = .run ∧ k.stall = none) ∨ k.st = .stepwait) then { k with st := .halted, prior := k.st } else k := by
  subst hk
  have hcond : (!(s.core c).quar && ((s.core c).st = .loaded || ((s.core c).st = .run && (s.core c).stall = none) || (s.core c).st = .stepwait)) = true ↔
      (s.core c).quar = false ∧ ((s.core c).st = .loaded ∨ ((s.core c).st = .run ∧ (s.core c).stall = none) ∨ (s.core c).st = .stepwait) := by
    simp [or_assoc]
  split
  · exact (congrArg (State.core · c) (if_pos (hcond.2 ‹_›))).trans (State.core_setCore_st _ _ _ nofun)
  · exact congrArg (State.core · c) (a₂ := s.setFld F.ROD_CTRL_HALT c 1) (if_neg fun h => ‹¬ _› (hcond.1 h))

theorem haltSet_bit (c : Nat) (s : State) : (haltSet c s).bit F.ROD_CTRL_HALT c = true := by
  unfold haltSet
  dsimp only
  split <;> exact s.bit_setFld_halt c

/-- HALT cleared returns a stopped core to the state that it left, where it holds no release. -/
theorem haltClear_core_halted {c : Nat} {s : State} {k : Core} (hk : s.core c = k) (hst : k.st = .halted) (hheld : k.held = false)
    (hprior : k.prior ≠ .idle) :
    (haltClear c s).core c = { k with st := k.prior } := by
  subst hk
  simp only [haltClear, State.setFld_core, hst, hheld, if_true, Bool.false_and, Bool.false_eq_true, if_false]
  exact State.core_setCore_st _ _ _ hprior

theorem haltClear_core_other {c : Nat} {s : State} {k : Core} (hk : s.core c = k) (hst : k.st ≠ .halted) : (haltClear c s).core c = k := by
  subst hk
  simp only [haltClear, State.setFld_core, hst, if_false]

-- Visible vector registers (R84, R85) --------------------------------------------------------------------------------

/-- Two cores agree on everything but the vector registers and when they were last written. -/
def Core.ShownOnly (k l : Core) : Prop := l = { k with v := l.v, vvis := l.vvis }

theorem shownOnly_trans {k l m : Core} (h1 : k.ShownOnly l) (h2 : l.ShownOnly m) : k.ShownOnly m := by
  unfold Core.ShownOnly at *
  rw [h1] at h2
  exact h2

theorem makeVisible_core {c : Nat} (p : VPend) {s : State} (h : (s.core c).st ≠ .idle) :
    (makeVisible c p s).core c = { s.core c with
      v := (s.core c).v.put [] p.reg p.lanes, vvis := (s.core c).vvis.put 0 p.reg (max ((s.core c).vvis.lk 0 p.reg) (p.iss + 1)) } := by
  unfold makeVisible
  dsimp only
  split
  · rw [recOnly_core (recOnly_hazard ..), State.core_setCore_st _ _ _ (by exact h)]
  · rw [State.core_setCore_st _ _ _ (by exact h)]

/-- Pending writes that become visible in turn. -/
theorem eachDo_makeVisible_core {c : Nat} (l : List VPend) {s : State} (h : (s.core c).st ≠ .idle) :
    (s.core c).ShownOnly ((eachDo l (makeVisible c) s).core c) := by
  induction l generalizing s with
  | nil => exact rfl
  | cons p l ih =>
    have hp := makeVisible_core p h
    exact shownOnly_trans (l := (makeVisible c p s).core c) (by rw [hp]; rfl) (ih (by rw [hp]; exact h))

/-- A drain changes of its core the vector registers alone, and leaves no write pending. -/
theorem drainVec_core {c : Nat} {s : State} (h : (s.core c).st ≠ .idle) :
    (drainVec c s).core c = { s.core c with v := ((drainVec c s).core c).v, vvis := ((drainVec c s).core c).vvis, vpend := [] } := by
  have hset : ((s.setCore c { s.core c with vpend := [] }).core c) = { s.core c with vpend := [] } := State.core_setCore_st _ _ _ h
  have hshown := eachDo_makeVisible_core ((s.core c).vpend.foldl (fun l p => insertPend p l) []) (s := s.setCore c { s.core c with vpend := [] }) (c := c)
    (by rw [hset]; exact h)
  rw [hset] at hshown
  exact hshown

/-- A drain counts hazards: of the registers it changes ROD_HAZ_CNT and ROD_HAZ_FIRST of its core alone. -/
theorem hazard_reg {x : Reg} {j c : Nat} (hcnt : x.off j ≠ Reg.off .ROD_HAZ_CNT c) (hfirst : x.off j ≠ Reg.off .ROD_HAZ_FIRST c) (h : Hazard)
    (reg rep : Nat)
    (pc : BitVec 16) (s : State) : (hazard c h reg rep pc s).reg x j = s.reg x j := by
  unfold hazard
  dsimp only
  split
  all_goals
    split
    · exact s.reg_setReg_other _ _ _ _ _ hcnt
    · exact (State.reg_setReg_other _ _ _ _ _ _ hfirst).trans (s.reg_setReg_other _ _ _ _ _ hcnt)

theorem drainVec_reg {x : Reg} {j c : Nat} (hcnt : x.off j ≠ Reg.off .ROD_HAZ_CNT c) (hfirst : x.off j ≠ Reg.off .ROD_HAZ_FIRST c) (s : State) :
    (drainVec c s).reg x j = s.reg x j := by
  refine (eachDo_keeps (fun s => s.reg x j) (fun p t => ?_) _ _).trans rfl
  unfold makeVisible
  dsimp only
  split
  · exact hazard_reg hcnt hfirst ..
  · rfl

-- Steps (R65 to R67) --------------------------------------------------------------------------------------------------

/-- A core in STEPWAIT or LOADED that takes a release where HALT is clear enters RUN. -/
theorem takeRelease_core {c slot : Nat} {s : State} {k : Core} (hk : s.core c = k) (hst : k.st ≠ .idle) (h : s.bit F.ROD_CTRL_HALT c = false) :
    (takeRelease c slot s).core c = { k.freshOrder with
      chk := ⟨k.g, k.a, k.tok⟩, vwritten := [], held := false, heldQuiz := false, stall := none, st := .run,
      step := s.brewStep slot, pc := BitVec.ofNat 16 (s.fld F.ROD_ENTRY_ENTRY c / 4 * 4) } := by
  subst hk
  rw [takeRelease, enterCoreSt_of_clear (by exact h), State.core_setCore_st _ _ _ (by simp), State.modCore, State.core_setCore_st _ _ _ (by exact hst)]

/-- The registers that a release reads are none that its step record changes. -/
theorem stepRecord_bit_halt (c : CoreId) (slot : Nat) (s : State) : (stepRecord c slot s).bit F.ROD_CTRL_HALT c = s.bit F.ROD_CTRL_HALT c := by
  have hbook : Reg.off .ROD_CTRL c ≠ Reg.off .TALLY_BOOK_STAT 0 := by simp only [Reg.off, Reg.base]; omega
  exact State.bit_congr (stepRecord_reg hbook (off_halt_ne_hazFirst c) slot s)

theorem stepRecord_entry (c : CoreId) (slot : Nat) (s : State) : (stepRecord c slot s).fld F.ROD_ENTRY_ENTRY c = s.fld F.ROD_ENTRY_ENTRY c := by
  have hbook : Reg.off .ROD_ENTRY c ≠ Reg.off .TALLY_BOOK_STAT 0 := by simp only [Reg.off, Reg.base]; omega
  have hfirst : Reg.off .ROD_ENTRY c ≠ Reg.off .ROD_HAZ_FIRST c := by simp [Reg.off, Reg.base]
  exact State.fld_congr (stepRecord_reg hbook hfirst slot s)

theorem stepRecord_brewStep (c : CoreId) (slot : SlotId) (s : State) : (stepRecord c slot s).brewStep slot = s.brewStep slot := by
  have hbook : Reg.off .SCHED_STEP slot ≠ Reg.off .TALLY_BOOK_STAT 0 := by simp only [Reg.off, Reg.base]; omega
  have hfirst : Reg.off .SCHED_STEP slot ≠ Reg.off .ROD_HAZ_FIRST c := by simp only [Reg.off, Reg.base]; omega
  exact stepRecord_reg hbook hfirst slot s

/-- The program counter that ENTRY gives: its low two bits cleared. -/
theorem toNat_entry (s : State) (c : Nat) : (BitVec.ofNat 16 (s.fld F.ROD_ENTRY_ENTRY c / 4 * 4)).toNat = s.fld F.ROD_ENTRY_ENTRY c / 4 * 4 := by
  have hlt : s.fld F.ROD_ENTRY_ENTRY c < 2 ^ 16 := wbits_lt ..
  rw [BitVec.toNat_ofNat]
  omega

/-- A release that finds its core between steps is taken. -/
theorem releaseCore_waiting {c : CoreId} {slot : SlotId} {s : State} {k : Core} (hk : s.core c = k) (hst : k.st = .loaded ∨ k.st = .stepwait)
    (h : s.bit F.ROD_CTRL_HALT c = false) :
    (releaseCore slot c s).core c = { k.freshOrder with
      chk := ⟨k.g, k.a, k.tok⟩, vwritten := [], held := false, heldQuiz := false, stall := none, st := .run,
      step := s.brewStep slot, pc := BitVec.ofNat 16 (s.fld F.ROD_ENTRY_ENTRY c / 4 * 4) } := by
  have hcore : (stepRecord c slot s).core c = k := by simp [hk]
  have htake : acceptRelease slot c (stepRecord c slot s) = takeRelease c slot (stepRecord c slot s) := by
    rw [acceptRelease, hcore]
    rcases hst with hst | hst <;> simp [hst]
  have hidle : k.st ≠ .idle := by rcases hst with hst | hst <;> simp [hst]
  rw [releaseCore, htake, takeRelease_core hcore hidle ((stepRecord_bit_halt c slot s).trans h), stepRecord_brewStep, stepRecord_entry]

/-- A release that finds its core in RUN with none held is held. -/
theorem releaseCore_run_free {c : CoreId} {slot : SlotId} {s : State} {k : Core} (hk : s.core c = k) (hst : k.st = .run) (hheld : k.held = false) :
    (releaseCore slot c s).core c = { k with held := true } := by
  have hcore : (stepRecord c slot s).core c = k := by simp [hk]
  have hhold : acceptRelease slot c (stepRecord c slot s) = (stepRecord c slot s).setCore c { k with held := true } := by
    rw [acceptRelease, hcore]
    simp [hst, hheld]
  rw [releaseCore, hhold, State.core_setCore_st _ _ _ (by simp [hst])]

/-- A second release while one is held is STEPOVR (R66). -/
theorem releaseCore_run_held {c : CoreId} {slot : SlotId} {s : State} {k : Core} (hk : s.core c = k) (hst : k.st = .run) (hheld : k.held = true) :
    (releaseCore slot c s).core c =
      { k with held := false, st := .fault, stall := none, err := RodErr.stepovr.code, errq := 7, erraddr := k.pc, drain := false } := by
  have hcore : (stepRecord c slot s).core c = k := by simp [hk]
  have hfault : acceptRelease slot c (stepRecord c slot s) =
      coreFault c .stepovr 7 k.pc ((stepRecord c slot s).setCore c { k with held := false }) := by
    rw [acceptRelease, hcore]
    simp [hst, hheld]
  have hset : ((stepRecord c slot s).setCore c { k with held := false }).core c = { k with held := false } :=
    State.core_setCore_st _ _ _ (by simp [hst])
  rw [releaseCore, hfault, coreFault_core _ _ _ _ _ (by rw [hset]; simp [hst]), hset]

end Sys2Proof.Machine

/-! Tokens and the queues of a core (R79 to R81). -/
namespace Sys2Proof.Machine
open Sys2Proof

/-- A core that executes an instruction is in RUN, and stalls nowhere. -/
theorem State.runs_st {s : State} {c : CoreId} {i : Instr} (h : s.runs c i = true) : (s.core c).st = .run := by
  simp only [State.runs, State.executing, Bool.and_eq_true, decide_eq_true_eq] at h
  exact h.1.1.1

theorem State.runs_stall {s : State} {c : CoreId} {i : Instr} (h : s.runs c i = true) : (s.core c).stall = none := by
  simp only [State.runs, State.executing, Bool.and_eq_true, decide_eq_true_eq] at h
  exact h.1.1.2

-- Tokens (R80, R81) --------------------------------------------------------------------------------------------------

/-- A signal of a token whose count is not 255 adds one. -/
theorem signalTok_next {c t q : Nat} {pc : BitVec 16} {s : State} {k : Core} (hk : s.core c = k) (h : k.tok.lk 0 t ≠ 255) :
    signalTok c t q pc s = s.setCore c { k with tok := k.tok.put 0 t (k.tok.lk 0 t + 1), share := k.share.signal (if q = 7 then 5 else q) t } := by
  subst hk
  exact if_neg h

/-- A signal of a token whose count is 255 is a fault. -/
theorem signalTok_overflow {c t q : Nat} {pc : BitVec 16} {s : State} (h : (s.core c).tok.lk 0 t = 255) :
    signalTok c t q pc s = coreFault c .tokovf q pc s := if_pos h

-- The queues (R79, R80) ----------------------------------------------------------------------------------------------

/-- Two cores agree on everything but the queues, the stall episodes, the order of accesses and the tokens. -/
def Core.QueuedOnly (k l : Core) : Prop := l = { k with q := l.q, episodes := l.episodes, share := l.share, tok := l.tok }

/-- The core whose queue q has its head issued. -/
def Core.popped (q : Nat) (k : Core) : Core :=
  match (k.queue q).wait with
  | [] => k
  | h :: t =>
    let k := endEpisode q (k.setQueue q { k.queue q with wait := t })
    let k := { k with share := k.share.pushed (k.headParty q) h.stores }
    if cwWv h.w && !h.granted then k.takeTok (cwWtk h.w) (k.headParty q) else k

theorem popHead_eq (c q : Nat) (s : State) : popHead c q s = s.modCore c (Core.popped q) := rfl

theorem queuedOnly_popped (q : Nat) (k : Core) : k.QueuedOnly (k.popped q) := by
  unfold Core.popped
  dsimp only
  split
  · rfl
  · split <;> rfl

theorem popHead_core {c q : Nat} {s : State} (h : (s.core c).st ≠ .idle) : (popHead c q s).core c = (s.core c).popped q := by
  have hst : ((s.core c).popped q).st = (s.core c).st := by rw [queuedOnly_popped]
  rw [popHead_eq, State.modCore, State.core_setCore_st _ _ _ (by rw [hst]; exact h)]

/-- A command of VQ that issues: its core's queues, tokens and, through the drain, vector registers change (R80, R85). -/
theorem vqIssue_core {c : Nat} {h : Cmd} {s : State} (hst : (s.core c).st ≠ .idle) :
    let l := (vqIssue c h s).core c
    l = { s.core c with q := l.q, episodes := l.episodes, share := l.share, tok := l.tok, v := l.v, vvis := l.vvis, vpend := l.vpend } := by
  have hpop : (popHead c 0 s).core c = (s.core c).popped 0 := popHead_core hst
  have honly := queuedOnly_popped 0 (s.core c)
  unfold Core.QueuedOnly at honly
  rw [← hpop] at honly
  intro l
  unfold l vqIssue State.when
  split
  · rw [drainVec_core (by rw [honly]; exact hst), honly]
  · rw [honly]

/-- The grant of a token to the head of a queue that waits for it. -/
theorem grantTok_queue {c t q : Nat} {s : State} (h : (List.range 5).find? (fun q => s.headWaits c q t) = some q) :
    grantTok c t s = s.setCore c (endEpisode q (((s.core c).takeTok t ((s.core c).headParty q)).setQueue q
      { (s.core c).queue q with wait := modAt ((s.core c).queue q).wait 0 (fun h => { h with granted := true }) })) := by
  rw [grantTok, h]

/-- Where no queue's head waits, the grant goes to the control core in TWAIT. -/
theorem grantTok_control {c t : Nat} {u : Sel} {s : State} (h : (List.range 5).find? (fun q => s.headWaits c q t) = none)
    (hstall : (s.core c).stall = some (.twait u)) (hu : u.toNat = t) :
    grantTok c t s = enterCoreSt c .run (s.setCore c (endEpisode 5 { ((s.core c).takeTok t 5) with stall := none }).advance) := by
  rw [grantTok, h, hstall]
  exact if_pos hu

/-- The first queue whose head waits. -/
theorem find_headWaits {c t q : Nat} {s : State} (hq : q < 5) (h : s.headWaits c q t = true) (hfirst : ∀ j, j < q → s.headWaits c j t = false) :
    (List.range 5).find? (fun q => s.headWaits c q t) = some q := by
  refine List.find?_range_eq_some.2 ⟨h, List.mem_range.2 hq, fun j hj => ?_⟩
  simp [hfirst j hj]

/-- A queue whose head waits has one. -/
theorem exists_of_headWaits {c q t : Nat} {s : State} (h : s.headWaits c q t = true) : ∃ x l, ((s.core c).queue q).wait = x :: l := by
  unfold State.headWaits at h
  dsimp only at h
  split at h
  · exact ⟨_, _, ‹_›⟩
  · exact nomatch h

/-- A waiter for a token that is no queue's head is the control core. -/
theorem twait_of_tokWaited {c t : Nat} {s : State} (h : s.tokWaited c t = true) (hnone : (List.range 5).find? (fun q => s.headWaits c q t) = none) :
    ∃ u : Sel, (s.core c).stall = some (.twait u) ∧ u.toNat = t := by
  have hany : (List.range 5).any (fun q => s.headWaits c q t) = false := by
    simpa using hnone
  unfold State.tokWaited at h
  rw [hany, Bool.false_or, Bool.and_eq_true] at h
  obtain ⟨-, h⟩ := h
  split at h
  · simp only [Bool.and_eq_true, decide_eq_true_eq] at h
    exact ⟨_, ‹_›, h.1⟩
  · exact nomatch h

theorem queue_setQueue_other (k : Core) (q : Nat) (x : Queue) {j : Nat} (h : j ≠ q) : (k.setQueue q x).queue j = k.queue j := SMap.lk_put_other _ _ _ _ _ _ h

theorem queue_setQueue_ne (k : Core) (q : Nat) {x : Queue} (h : x ≠ {}) : (k.setQueue q x).queue q = x := SMap.lk_put_ne _ _ _ _ h

end Sys2Proof.Machine

/-! What the instructions of the control core leave (R70, R71). -/
namespace Sys2Proof.Machine
open Sys2Proof

-- What the control core's instructions leave (R70, R71) -----------------------------------------------------------------

/-- What a control-core instruction leaves as it was of its core, a store's bytes apart: the memories, the Beads, the vector registers and the Tally sets. -/
def Core.fixed (k : Core) : SMap Byte × SMap Byte × SMap Bead × SMap (List Lane) × SMap Nat := (k.rmem, k.imem, k.beads, k.v, k.tset)

@[simp] theorem Core.setGr_st (k : Core) (r : GReg) (w : Word) : (k.setGr r w).st = k.st := by unfold Core.setGr; split <;> rfl
@[simp] theorem Core.setGr_fixed (k : Core) (r : GReg) (w : Word) : (k.setGr r w).fixed = k.fixed := by unfold Core.setGr; split <;> rfl
@[simp] theorem Core.advance_st (k : Core) : k.advance.st = k.st := rfl
@[simp] theorem Core.advance_fixed (k : Core) : k.advance.fixed = k.fixed := rfl
@[simp] theorem Core.setPc_fixed (k : Core) (pc : BitVec 16) : ({ k with pc := pc } : Core).fixed = k.fixed := rfl
@[simp] theorem Core.setStall_fixed (k : Core) (w : Option Stall) : ({ k with stall := w } : Core).fixed = k.fixed := rfl
@[simp] theorem Core.setAr_st (k : Core) (i : Nat) (x : AReg) : (k.setAr i x).st = k.st := rfl
@[simp] theorem Core.setAr_fixed (k : Core) (i : Nat) (x : AReg) : (k.setAr i x).fixed = k.fixed := rfl
@[simp] theorem Core.touch_st (k : Core) (p a n : Nat) (wr : Bool) : (k.touch p a n wr).st = k.st := rfl
@[simp] theorem Core.touch_fixed (k : Core) (p a n : Nat) (wr : Bool) : (k.touch p a n wr).fixed = k.fixed := rfl
@[simp] theorem Core.takeTok_st (k : Core) (t p : Nat) : (k.takeTok t p).st = k.st := rfl
@[simp] theorem Core.takeTok_fixed (k : Core) (t p : Nat) : (k.takeTok t p).fixed = k.fixed := rfl

@[simp] theorem stepUsed_st (k : Core) (q : Nat) (w : CmdWord) : (stepUsed k q w).st = k.st := by
  simp only [stepUsed, apply_ite Core.st, Core.setAr_st, ite_self]

@[simp] theorem stepUsed_fixed (k : Core) (q : Nat) (w : CmdWord) : (stepUsed k q w).fixed = k.fixed := by
  simp only [stepUsed, apply_ite Core.fixed, Core.setAr_fixed, ite_self]

@[simp] theorem enqueue_st (k : Core) (q : Nat) (w : CmdWord) : (enqueue k q w).st = k.st := stepUsed_st k q w
@[simp] theorem enqueue_fixed (k : Core) (q : Nat) (w : CmdWord) : (enqueue k q w).fixed = k.fixed := stepUsed_fixed k q w

/-- Work on core c alone that leaves what the control core's instructions leave. -/
def State.Leaves (s t : State) (c : Nat) : Prop := s.OneCore t c ∧ (t.core c).fixed = (s.core c).fixed

theorem leaves_trans {s t u : State} {c : Nat} (h1 : s.Leaves t c) (h2 : t.Leaves u c) : s.Leaves u c :=
  ⟨oneCore_trans h1.1 h2.1, h2.2.trans h1.2⟩

theorem leaves_of_recOnly {s t : State} {c : Nat} (h : s.RecOnly t) : s.Leaves t c := ⟨oneCore_of_recOnly h c, by rw [recOnly_core h]⟩

theorem leaves_free (s : State) (n c : Nat) : s.Leaves { s with free := n } c := ⟨oneCore_free s n c, rfl⟩

theorem leaves_setCore {s : State} {c : Nat} {k : Core} (hst : k.st ≠ .idle) (hk : k.fixed = (s.core c).fixed) : s.Leaves (s.setCore c k) c :=
  ⟨oneCore_setCore s c k, by rw [State.core_setCore_st _ _ _ hst, hk]⟩

theorem leaves_coreFault (c : Nat) (e : RodErr) (q : Nat) (pc : BitVec 16) (s : State) : s.Leaves (coreFault c e q pc s) c := by
  refine ⟨oneCore_coreFault c e q pc s, ?_⟩
  by_cases h : (s.core c).st = .fault
  · rw [coreFault_again c e q pc s h]
    rfl
  · rw [coreFault_core c e q pc s h]
    rfl

/-- A core with a fault is in FAULT, whatever it was in. -/
theorem coreFault_st (c : Nat) (e : RodErr) (q : Nat) (pc : BitVec 16) (s : State) : ((coreFault c e q pc s).core c).st = .fault := by
  by_cases h : (s.core c).st = .fault
  · rw [coreFault_again c e q pc s h]
    exact h
  · rw [coreFault_core c e q pc s h]

theorem leaves_haltSet {c : Nat} {s : State} : s.Leaves (haltSet c s) c := by
  refine ⟨oneCore_haltSet c s, ?_⟩
  rw [haltSet_core rfl]
  split <;> rfl

theorem leaves_signalTok {c t q : Nat} {pc : BitVec 16} {s : State} (h : (s.core c).st ≠ .idle) : s.Leaves (signalTok c t q pc s) c := by
  by_cases htok : (s.core c).tok.lk 0 t = 255
  · rw [signalTok_overflow htok]
    exact leaves_coreFault ..
  · rw [signalTok_next rfl htok]
    exact leaves_setCore h rfl

theorem leaves_strictZero {c : CoreId} {rd : GReg} {s : State} (h : (s.core c).st ≠ .idle) : s.Leaves (strictZero c rd s) c :=
  leaves_trans (leaves_setCore (by simp [h]) (by simp)) (leaves_of_recOnly (recOnly_trans (recOnly_bump ..) (recOnly_bump ..)))

theorem leaves_pushEffect {c : CoreId} {q : QueueId} {a b : GReg} {s : State} (h : (s.core c).st ≠ .idle) : s.Leaves (pushEffect c q a b s) c := by
  unfold pushEffect
  dsimp only
  split
  · exact leaves_trans (leaves_coreFault ..) (leaves_setCore (by simp [coreFault_st]) rfl)
  · split
    · exact leaves_setCore (by simp [h]) (by simp)
    · exact leaves_setCore h rfl

/-- A control-core instruction whose effect leaves them. -/
def LeavesFixed (c : CoreId) (i : Instr) : Prop := ∀ s t, exec i s = .next t → s.Leaves t c

theorem leavesFixed_of_actIf {c : CoreId} {i : Instr} {f : State → State} (hx : ∀ s, exec i s = actIf (s.runs c i) f s)
    (hf : ∀ s : State, (s.core c).st = .run → s.Leaves (f s) c) : LeavesFixed c i := by
  intro s t ht
  rw [hx] at ht
  rcases actIf_cases ht with rfl | ⟨hruns, rfl⟩
  · exact ⟨oneCore_refl t c, rfl⟩
  · obtain ⟨hone, hfix⟩ := hf s.hushed (State.runs_st hruns)
    exact ⟨oneCore_after hone, hfix⟩

/-- An instruction other than a store leaves its core's memories, Beads, vector registers and Tally sets. -/
theorem leavesFixed_controlCore {i : Instr} (h : (encodeRod i).isSome = true) (hst : ∀ c r b m, i ≠ .st c r b m ∧ i ≠ .sw c r b m) :
    LeavesFixed (rodCore i) i := by
  cases i
  case add | sub | and | or | xor | sll | srl | sra | slt | sltu | mul | mulhu | addi | andi | ori | xori | slli | srli | srai | lui | shori | slti |
      arset | arget | arstep | araddr | qcnt | tread | rdstep | rdid | stepend =>
    dsimp only [rodCore]
    exact leavesFixed_of_actIf (fun _ => rfl) fun s hrun => leaves_setCore (by simp [hrun]) (by simp)
  case jal | jalr =>
    dsimp only [rodCore]
    exact leavesFixed_of_actIf (fun _ => rfl) fun s hrun =>
      leaves_setCore (k := { (s.core _).setGr _ _ with pc := _ }) (by simp [hrun]) ((Core.setPc_fixed ..).trans (Core.setGr_fixed ..))
  case beq | bne | blt | bge | bltu | bgeu | twait =>
    dsimp only [rodCore]
    refine leavesFixed_of_actIf (fun _ => rfl) fun s hrun => leaves_setCore ?_ ?_
    · simp [apply_ite Core.st, hrun]
    · simp [apply_ite Core.fixed]
  case ld | lw =>
    dsimp only [rodCore]
    refine leavesFixed_of_actIf (fun _ => rfl) fun s hrun => ?_
    dsimp only
    split
    · exact leaves_trans (leaves_setCore (by simp [hrun]) (by simp)) (leaves_free ..)
    · exact leaves_coreFault ..
  case st c r b m => exact absurd rfl (hst c r b m).1
  case sw c r b m => exact absurd rfl (hst c r b m).2
  case push =>
    dsimp only [rodCore]
    exact leavesFixed_of_actIf (fun _ => rfl) fun s hrun => leaves_pushEffect (by simp [hrun])
  case tsig =>
    dsimp only [rodCore]
    refine leavesFixed_of_actIf (fun _ => rfl) fun s hrun => ?_
    unfold tsigEffect
    dsimp only
    split
    · exact leaves_coreFault ..
    · exact leaves_trans (leaves_setCore (by simp [hrun]) (by simp)) (leaves_signalTok (by rw [State.core_setCore_st] <;> simp [hrun]))
  case rdcyc =>
    dsimp only [rodCore]
    refine leavesFixed_of_actIf (fun _ => rfl) fun s hrun => ?_
    unfold rdcycEffect
    split
    · exact leaves_strictZero (by simp [hrun])
    · exact leaves_setCore (by simp [hrun]) (by simp)
  case rdent =>
    dsimp only [rodCore]
    refine leavesFixed_of_actIf (fun _ => rfl) fun s hrun => ?_
    unfold rdentEffect
    split
    · exact leaves_strictZero (by simp [hrun])
    · exact leaves_trans (leaves_setCore (by simp [hrun]) (by simp)) (leaves_free ..)
  case halt =>
    dsimp only [rodCore]
    exact leavesFixed_of_actIf (fun _ => rfl) fun s hrun => leaves_trans (leaves_setCore (by simp [hrun]) (by simp)) leaves_haltSet
  all_goals exact nomatch h

end Sys2Proof.Machine

/-! What a store of the control core leaves (R71, R83). -/
namespace Sys2Proof.Machine
open Sys2Proof

/-- Work on core c alone that leaves what the control core's instructions leave, but for the n bytes of its Rod memory from x on. -/
def State.StoresOnly (s t : State) (c x n : Nat) : Prop :=
  s.OneCore t c ∧ (t.core c).fixed.2 = (s.core c).fixed.2 ∧ ∀ a, a < x ∨ x + n ≤ a → (t.core c).rmem.lk 0 a = (s.core c).rmem.lk 0 a

theorem storesOnly_of_leaves {s t : State} {c : Nat} (x n : Nat) (h : s.Leaves t c) : s.StoresOnly t c x n := by
  obtain ⟨hone, hfix⟩ := h
  refine ⟨hone, congrArg Prod.snd hfix, fun a _ => ?_⟩
  have hmem : (t.core c).rmem = (s.core c).rmem := congrArg Prod.fst hfix
  rw [hmem]

theorem storesOnly_trans {s t u : State} {c x n : Nat} (h1 : s.StoresOnly t c x n) (h2 : t.StoresOnly u c x n) : s.StoresOnly u c x n := by
  obtain ⟨hone1, hfix1, hmem1⟩ := h1
  obtain ⟨hone2, hfix2, hmem2⟩ := h2
  exact ⟨oneCore_trans hone1 hone2, hfix2.trans hfix1, fun a ha => (hmem2 a ha).trans (hmem1 a ha)⟩

/-- The bytes in conflict are bytes of the span. -/
theorem Share.mem_clash {y : Share} {p a : Nat} {sp : Span} (h : a ∈ y.clash p sp) : sp.1 ≤ a ∧ a < sp.1 + sp.2.1 := by
  unfold Share.clash at h
  obtain ⟨b, hb, rfl⟩ := List.mem_map.1 (List.mem_filter.1 h).1
  have := List.mem_range.1 hb
  omega

/-- Memory m whose bytes as hold the free values from number n on. -/
def freedMem (as : List Nat) (n : Nat) (m : SMap Byte) : SMap Byte :=
  (List.range as.length).foldl (fun m i => m.put 0 (as.getD i 0) ((Config.freeWord (n + i)).truncate 8)) m

theorem freeRod_core {s : State} {c : Nat} (as : List Nat) (h : (s.core c).st ≠ .idle) :
    (freeRod c as s).core c = { s.core c with rmem := freedMem as s.free (s.core c).rmem } := by
  unfold freeRod
  split
  · rename_i hempty
    rw [List.isEmpty_iff.1 hempty]
    rfl
  · exact State.core_setCore_st s c { s.core c with rmem := freedMem as s.free (s.core c).rmem } h

/-- Bytes that take no free value read as before. -/
theorem lk_freedMem_other {as : List Nat} {a : Nat} (n : Nat) (m : SMap Byte) (h : a ∉ as) : (freedMem as n m).lk 0 a = m.lk 0 a := by
  unfold freedMem
  refine List.foldlRecOn (motive := fun (m' : SMap Byte) => m'.lk 0 a = m.lk 0 a) _ _ rfl fun m' ih i hi => ?_
  have hi : i < as.length := List.mem_range.1 hi
  rw [← ih]
  refine SMap.lk_put_other _ _ _ _ _ _ fun ha => h ?_
  rw [ha, List.getD_eq_getElem _ _ hi]
  exact List.getElem_mem hi

theorem storesOnly_freeRod {s : State} {c x n : Nat} {as : List Nat} (h : (s.core c).st ≠ .idle) (has : ∀ a ∈ as, x ≤ a ∧ a < x + n) :
    s.StoresOnly (freeRod c as s) c x n := by
  refine ⟨freeRod_oneCore c as s, ?_, fun a ha => ?_⟩
  · rw [freeRod_core as h]
    rfl
  · rw [freeRod_core as h]
    refine lk_freedMem_other _ _ fun hmem => ?_
    have := has a hmem
    omega

theorem length_bytesLE (n v : Nat) : (bytesLE n v).length = n := by
  induction n generalizing v with
  | zero => rfl
  | succ n ih => simp [bytesLE, ih]

/-- A store to Rod memory. -/
theorem storesOnly_wrMem {s : State} {c x : Nat} {k : Core} (bs : List Byte) (hst : k.st ≠ .idle) (hk : k.fixed = (s.core c).fixed) :
    s.StoresOnly (s.setCore c (k.wrMem x bs).advance) c x bs.length := by
  have hcore : (s.setCore c (k.wrMem x bs).advance).core c = (k.wrMem x bs).advance := State.core_setCore_st _ _ _ (by exact hst)
  refine ⟨oneCore_setCore .., ?_, fun a ha => ?_⟩
  · rw [hcore]
    exact (congrArg Prod.snd hk : k.fixed.2 = _)
  · have hmem : k.rmem = (s.core c).rmem := congrArg Prod.fst hk
    rw [hcore, ← hmem]
    exact Mem.lk_wr_other _ _ _ _ _ ha

theorem storesOnly_ctlStore {c : CoreId} {i : Instr} {r a : GReg} {m : BitVec 16} {n : Nat} {s t : State}
    (h : ctlStore c i r a m n s = .next t) : s.StoresOnly t c ((s.core c).gr a + m.signExtend 64).toNat n := by
  rcases actIf_cases h with rfl | ⟨hruns, rfl⟩
  · exact storesOnly_of_leaves _ _ ⟨oneCore_refl t c, rfl⟩
  suffices heff : s.hushed.StoresOnly (_ : State) c ((s.hushed.core c).gr a + m.signExtend 64).toNat n from ⟨oneCore_after heff.1, heff.2⟩
  have hst : (s.hushed.core c).st = .run := State.runs_st hruns
  dsimp only
  split
  · have hwr := storesOnly_wrMem (s := s.hushed) (c := c) (x := ((s.hushed.core c).gr a + m.signExtend 64).toNat)
      (k := (s.hushed.core c).touch 5 ((s.hushed.core c).gr a + m.signExtend 64).toNat n true) (bytesLE n ((s.hushed.core c).gr r).toNat)
      (fun hidle => nomatch hst.symm.trans hidle) (by simp)
    rw [length_bytesLE] at hwr
    refine storesOnly_trans hwr (storesOnly_freeRod ?_ fun _ => Share.mem_clash)
    rw [State.core_setCore_st] <;> exact fun hidle => nomatch hst.symm.trans hidle
  · exact storesOnly_of_leaves _ _ (leaves_coreFault ..)

end Sys2Proof.Machine

/-! Vector commands that write late or fault (R84, R88), and the tokens (R75 to R81). -/
namespace Sys2Proof.Machine
open Sys2Proof

-- Latency (R84) -------------------------------------------------------------------------------------------------------

/-- A core whose vector registers count any as written is not one at reset. -/
theorem Core.ne_default_of_vwritten {k : Core} {r : Nat} (h : k.vwritten.lk false r = true) : k ≠ {} := fun hk => by
  rw [hk] at h
  exact nomatch h

theorem writeVec_core (c r lat rep : Nat) (pc : BitVec 16) (lanes : List Lane) (s : State) :
    (writeVec c r lat rep pc lanes s).core c = { s.core c with
      vwritten := (s.core c).vwritten.put false r true,
      vpend := (s.core c).vpend ++ [⟨r, (s.core c).slot, (s.core c).slot + lat, lanes, rep, pc⟩] } :=
  State.core_setCore_ne _ _ _ (Core.ne_default_of_vwritten (SMap.lk_put_ne _ _ _ _ nofun))

/-- The registers as a pending write that becomes visible leaves them. -/
theorem makeVisible_v {c : Nat} (p : VPend) {s : State} {r : Nat} (h : (s.core c).vwritten.lk false r = true) :
    ((makeVisible c p s).core c).v = (s.core c).v.put [] p.reg p.lanes := by
  have hset := State.core_setCore_ne s c { s.core c with
    v := (s.core c).v.put [] p.reg p.lanes, vvis := (s.core c).vvis.put 0 p.reg (max ((s.core c).vvis.lk 0 p.reg) (p.iss + 1)) }
    (Core.ne_default_of_vwritten (r := r) h)
  unfold makeVisible
  dsimp only
  split
  · rw [recOnly_core (recOnly_hazard ..), hset]
  · rw [hset]

/-- One pending write, at slot n: its register takes its lanes where it is due, and reads as before where it is not. -/
theorem commitVec_v {c n r : Nat} {s : State} {p : VPend} (hp : (s.core c).vpend = [p]) (h : (s.core c).vwritten.lk false r = true) :
    ((commitVec c n s).core c).v = if p.vis ≤ n then (s.core c).v.put [] p.reg p.lanes else (s.core c).v := by
  have hset (l : List VPend) : (s.setCore c { s.core c with vpend := l }).core c = { s.core c with vpend := l } :=
    State.core_setCore_ne s c _ (Core.ne_default_of_vwritten (r := r) h)
  by_cases hdue : p.vis ≤ n
  · simp only [commitVec, hp, List.filter_cons, hdue, decide_true, if_true, List.filter_nil, List.foldl_cons, List.foldl_nil, insertPend]
    refine (makeVisible_v (c := c) (r := r) p ?_).trans ?_
    · rw [hset]
      exact h
    · rw [hset]
  · simp only [commitVec, hp, List.filter_cons, hdue, decide_false, if_false, List.filter_nil, List.foldl_nil, Bool.false_eq_true,
      Bool.not_false, if_true]
    rw [eachDo, List.foldl_nil, hset]

/-- 64 lanes are read as they are. -/
theorem map_laneOf_range {l : List Lane} (h : l.length = 64) : (List.range 64).map (laneOf l) = l := by
  refine List.ext_getElem (by simp [h]) fun i _ hi => ?_
  simp [laneOf, List.getElem?_eq_getElem hi]

-- Operands out of range (R88) -----------------------------------------------------------------------------------------

/-- A repeat whose operands fail the check: the command leaves VQ, and CMD_RANGE is all that it does (R88). -/
theorem vqRun_range {i : Instr} {c : CoreId} {opc : Nat} {chk chk' : State → Cmd → Nat → Bool} {rep : Cmd → Nat → State → State}
    {s : State} {h : Cmd} {r : Nat}
    (hx : ∀ s, exec i s = vqRun c opc chk rep s) (hc : chk' = chk) (hi : s.issuable c 0 = some h) (ho : cwOpc h.w = opc) (hr : r < cwCount h.w)
    (hbad : chk' (vqIssue c h s.hushed) h r = false) :
    exec i s = .next (s.after (fun s => coreFault c .cmdRange 0 h.pc (vqIssue c h s))) := by
  rw [hc] at hbad
  have hcount : cwCount h.w ≠ 0 := by omega
  have hfail : ¬ (List.range (cwCount h.w)).all (chk (vqIssue c h s.hushed) h) = true := fun hall => by
    rw [List.all_eq_true.1 hall r (List.mem_range.2 hr)] at hbad
    exact nomatch hbad
  rw [hx]
  simp only [vqRun, hi]
  refine (actIf_true (decide_eq_true ho)).trans ?_
  simp only [State.after, hcount, hfail, if_false, Bool.false_eq_true]

-- Waits for a token (R80, R96) ----------------------------------------------------------------------------------------

/-- What was sent bears on no charge of cells. -/
theorem slotTake_hushed (r n : Nat) (s : State) : slotTake r n s.hushed = (slotTake r n s).map (fun x => (x.1, x.2.hushed)) := by
  induction n generalizing s with
  | zero => rfl
  | succ n ih =>
    have hpool : slotPool r s.hushed = slotPool r s := rfl
    rw [slotTake, slotTake, hpool]
    cases slotPool r s with
    | none => rfl
    | some k =>
      have hnext : (s.hushed.setSlotHeld r (cntSet (s.hushed.slotHeld r) k (cnt (s.hushed.slotHeld r) k + 1))).bumpN F.CADDY_QTALLY_FALLBACK r k =
        ((s.setSlotHeld r (cntSet (s.slotHeld r) k (cnt (s.slotHeld r) k + 1))).bumpN F.CADDY_QTALLY_FALLBACK r k).hushed := rfl
      dsimp only
      rw [hnext, ih]
      cases slotTake r n _ <;> rfl

theorem State.hushed_requestRoom (s : State) (c n m : Nat) : s.hushed.requestRoom c n m = s.requestRoom c n m := by
  rw [State.requestRoom, State.requestRoom, slotTake_hushed]
  cases slotTake (coreSlot c) (cellsOf n) s with
  | none => rfl
  | some x => simp [slotTake_hushed]

theorem State.hushed_headRoom (s : State) (c : Nat) (h : Cmd) : s.hushed.headRoom c h = s.headRoom c h := by
  have hmem (r : Nat) : fmemOk c h r s.hushed = fmemOk c h r s := rfl
  have hfadd : fmemFadd c h s.hushed = fmemFadd c h s := rfl
  have hstrict : s.hushed.strict = s.strict := rfl
  have hrec (r : Nat) : fmemRec c h r s.hushed = fmemRec c h r s := rfl
  have hpay (q : FmRec) : q.pay c s.hushed = q.pay c s := rfl
  simp only [State.headRoom, hmem, hfadd, hstrict, hrec, hpay, State.hushed_requestRoom]

/-- What was sent bears on no wait for a token. -/
@[simp] theorem State.hushed_headWaits (s : State) (c q t : Nat) : s.hushed.headWaits c q t = s.headWaits c q t := by
  simp only [State.headWaits, State.hushed_core, State.hushed_headRoom]

@[simp] theorem State.hushed_waitersBefore (s : State) (c q t : Nat) : s.hushed.waitersBefore c q t = s.waitersBefore c q t := by
  simp only [State.waitersBefore, State.hushed_headWaits]

-- PUSH and TSIG (R75 to R81) ------------------------------------------------------------------------------------------

/-- A command that fails the checks of its queue: BADCMD, and what was queued before goes on (R77). -/
theorem pushEffect_bad {c : CoreId} {q : QueueId} {a b : GReg} {s : State} {k : Core} (hk : s.core c = k) (hst : k.st = .run)
    (h : cmdOk q.val (pushWord k a b) = false) :
    (pushEffect c q a b s).core c =
      { k with st := .fault, stall := none, err := RodErr.badcmd.code, errq := q.val, erraddr := k.pc, drain := true } := by
  subst hk
  have hfault := coreFault_core c .badcmd q.val (s.core c).pc s (by simp [hst])
  have heff : pushEffect c q a b s = (coreFault c .badcmd q.val (s.core c).pc s).modCore c (fun k => { k with drain := true }) :=
    if_pos (by rw [h]; rfl)
  rw [heff, State.modCore, hfault, State.core_setCore_st _ _ _ (by simp)]

/-- The state that TSIG leaves: its core past the instruction, with one count more of the token. -/
theorem tsigEffect_next {c : CoreId} {t : Sel} {s : State} {k : Core} (hk : s.core c = k) (hst : k.st ≠ .idle) (h : k.tok.lk 0 t.toNat ≠ 255) :
    tsigEffect c t s = s.setCore c { k.advance with
      tok := k.tok.put 0 t.toNat (k.tok.lk 0 t.toNat + 1), share := k.share.signal 5 t.toNat } := by
  subst hk
  have heff : tsigEffect c t s = signalTok c t.toNat 7 (s.core c).pc (s.setCore c (s.core c).advance) := if_neg h
  have hset : (s.setCore c (s.core c).advance).core c = (s.core c).advance := State.core_setCore_st _ _ _ hst
  rw [heff, signalTok_next hset h]
  exact State.setCore_setCore s c _ hst

/-- The grant of a token takes one count and no more (R80). -/
theorem grantTok_tok {c t : Nat} {s : State} (h : s.tokWaited c t = true) (hidle : (s.core c).st ≠ .idle) :
    ((grantTok c t s).core c).tok = (s.core c).tok.put 0 t ((s.core c).tok.lk 0 t - 1) := by
  cases hfind : (List.range 5).find? (fun q => s.headWaits c q t) with
  | some q =>
    rw [grantTok_queue hfind, State.core_setCore_st _ _ _ (by exact hidle)]
    rfl
  | none =>
    obtain ⟨u, hstall, hu⟩ := twait_of_tokWaited h hfind
    have hset : (s.setCore c (endEpisode 5 { ((s.core c).takeTok t 5) with stall := none }).advance).core c = _ := State.core_setCore_st _ _ _ hidle
    rw [grantTok_control hfind hstall hu, enterCoreSt]
    dsimp only
    split
    · rw [State.core_setCore_st _ _ _ (by simp), hset]
      rfl
    · rw [State.core_setCore_st _ _ _ (by simp), hset]
      rfl

/-- The grant to the head of a queue marks that head, and nothing else of its core moves (R80). -/
theorem grantTok_head {c t q : Nat} {s : State} {k : Core} (hk : s.core c = k) (hidle : k.st ≠ .idle) (hq : q < 5) (h : s.headWaits c q t = true)
    (hfirst : ∀ j, j < q → s.headWaits c j t = false) :
    let k' := (grantTok c t s).core c
    k'.stall = k.stall ∧ k'.pc = k.pc ∧ (∀ j : Nat, j < 5 → j ≠ q → k'.queue j = k.queue j) ∧
      (k'.queue q).wait.head?.map Cmd.granted = some true := by
  subst hk
  obtain ⟨x, l, hwait⟩ := exists_of_headWaits h
  have hset := State.core_setCore_st s c (endEpisode q (((s.core c).takeTok t ((s.core c).headParty q)).setQueue q
    { (s.core c).queue q with wait := modAt ((s.core c).queue q).wait 0 (fun h => { h with granted := true }) })) hidle
  intro k'
  unfold k'
  rw [grantTok_queue (find_headWaits hq h hfirst), hset]
  refine ⟨rfl, rfl, fun j _ hj => queue_setQueue_other _ _ _ hj, ?_⟩
  rw [hwait]
  refine (congrArg (fun y => y.wait.head?.map Cmd.granted) (queue_setQueue_ne _ _ ?_)).trans ?_
  · exact fun hdef => nomatch congrArg Queue.wait hdef
  · rfl

end Sys2Proof.Machine

/-! A core enters STEPWAIT (R67). -/
namespace Sys2Proof.Machine
open Sys2Proof

/-- A core that has no command to do and no release held enters STEPWAIT, its vector writes visible (R67, R85). -/
theorem stepwaitEnter_next {c : CoreId} {s : State} {k : Core} (hk : s.core c = k) (hst : k.st = .run) (hstall : k.stall = some .stepEnd)
    (hclk : s.clocked c = true) (hempty : ∀ q : Nat, q < 5 → k.qlen q = 0) (hheld : k.held = false) (hhalt : s.bit F.ROD_CTRL_HALT c = false) :
    ∃ l : Core, exec (.stepwaitEnter c) s = .next (s.after (fun t => (drainVec c t).setCore c l)) ∧
      l = { k with st := .stepwait, stall := none, v := l.v, vvis := l.vvis, vpend := [] } := by
  subst hk
  have hdrain := drainVec_core (c := c) (s := s.hushed) (by simp [hst])
  set k' := (drainVec c s.hushed).core c with hk'
  have hbit : (drainVec c s.hushed).bit F.ROD_CTRL_HALT c = false :=
    (State.bit_congr (drainVec_reg (off_halt_ne_hazCnt c) (off_halt_ne_hazFirst c) _)).trans hhalt
  have hguard : ((s.core c).st = .run && (s.core c).stall = some .stepEnd && s.clocked c && (List.range 5).all (fun q => (s.core c).qlen q = 0)) = true := by
    simpa [hst, hstall, hclk] using fun q hq => hempty q hq
  refine ⟨{ k' with stall := none, st := .stepwait }, actIf_after hguard ?_, congrArg (fun m : Core => { m with stall := none, st := .stepwait }) hdrain⟩
  have hrun : k'.st ≠ .idle := by rw [show k'.st = .run from (congrArg Core.st hdrain).trans hst]; nofun
  have hset : ((drainVec c s.hushed).modCore c (fun k => { k with stall := none })).core c = { k' with stall := none } := State.core_setCore_st _ _ _ hrun
  have henter : enterCoreSt c .stepwait ((drainVec c s.hushed).modCore c (fun k => { k with stall := none })) =
      (drainVec c s.hushed).setCore c { k' with stall := none, st := .stepwait } := by
    rw [enterCoreSt_of_clear (by exact hbit), hset]
    exact State.setCore_setCore _ c _ hrun
  exact (if_neg (by simp [hheld])).trans henter

end Sys2Proof.Machine

/-! The issue of the engines' commands (Tables 3.9, 3.11 and 6.1). -/
namespace Sys2Proof.Machine
open Sys2Proof

/-- A command of queue q whose row checks its operands as chk does wherever the opcode is the row's. -/
theorem startCmd_does_of {i : Instr} {c : CoreId} {q opc : Nat} {chk chk' : State → Cmd → Nat → Bool} (hx : ∀ s, exec i s = startCmd c q opc chk s)
    (hchk : ∀ s h, cwOpc h.w = opc → chk s h = chk' s h) : StartDoes i c q opc chk' := fun s h hi ho hf hn hall =>
  startCmd_does hx s h hi ho hf hn (by rw [hchk _ h ho]; exact hall)

/-- The check of R179 for a Strainer command of a given opcode: the spans that Table 6.1 gives it. -/
theorem sqOk_eq {c opc : Nat} {s : State} {h : Cmd} {r : Nat} {reads : Nat → List (Nat × Nat)} {n : Nat} (ho : cwOpc h.w = opc)
    (hr : ∀ j, cwOpc h.w = opc → sqReads h j = reads j) (hw : cwOpc h.w = opc → sqWrites c s h r = (h.yAddr r, n)) :
    sqOk c s h r = sqArgs ((List.range (cwCount h.w)).flatMap reads) (h.yAddr r, n) := by
  rw [sqOk, hw ho, show sqReads h = reads from funext fun j => hr j ho]

/-- A Strainer command issues with the spans of its opcode. -/
theorem sqStart_does {i : Instr} {c : CoreId} {opc : Nat} {reads : Cmd → Nat → List (Nat × Nat)} {n : State → Cmd → Nat → Nat}
    (hx : ∀ s, exec i s = startCmd c 2 opc (sqOk c) s) (hr : ∀ h j, cwOpc h.w = opc → sqReads h j = reads h j)
    (hw : ∀ s h r, cwOpc h.w = opc → sqWrites c s h r = (h.yAddr r, n s h r)) :
    StartDoes i c 2 opc (fun s h r => sqArgs ((List.range (cwCount h.w)).flatMap (reads h)) (h.yAddr r, n s h r)) :=
  startCmd_does_of hx fun s h ho => funext fun r => sqOk_eq ho (hr h) (hw s h r)

end Sys2Proof.Machine

/-! The rows of the fabric engine (Table 3.10). -/
namespace Sys2Proof.Machine
open Sys2Proof

-- Rows of FQ (R95, R96) -----------------------------------------------------------------------------------------------

/-- Requests of an issued command that still wait go on at its row. -/
theorem requestRow_next {c opc : Nat} {u : Requester} {rej : Cmd → State → Bool} {s : State} {f : Fly} (hf : (s.core c).fqSending = some f)
    (ho : cwOpc f.cmd.w = opc) (hfin : s.finishing c = true) (hn : (requestNext c u f s).isSome = true) :
    requestRow c opc u rej s = .next (s.after (fun t => (requestNext c u f t).getD t)) := by
  simp only [requestRow, hf]
  exact actIf_true (by simp [ho, hfin, hn])

/-- Where none wait, the head command issues at its row. -/
theorem requestRow_issue {c opc : Nat} {u : Requester} {rej : Cmd → State → Bool} {s : State} {h : Cmd} (hf : (s.core c).fqSending = none)
    (hh : fqHead c opc s = some h) (hrej : ¬ rej h s.hushed = true) : requestRow c opc u rej s = .next (s.after (requestIssue c u h)) := by
  simp only [requestRow, hf, hh]
  exact congrArg (fun t : State => Host.Outcome.next (t.keep s)) (if_neg hrej)

/-- A head command that strict mode rejects completes empty and is counted (R311). -/
theorem requestRow_strict {c opc : Nat} {u : Requester} {rej : Cmd → State → Bool} {s : State} {h : Cmd} (hf : (s.core c).fqSending = none)
    (hh : fqHead c opc s = some h) (hrej : rej h s.hushed = true) :
    requestRow c opc u rej s =
      .next (s.after (fun t => fqRetire c (fqEnter c h [] [] (countEmpty c (countStrictRej c (popHead c 3 t)))))) := by
  simp only [requestRow, hf, hh]
  exact congrArg (fun t : State => Host.Outcome.next (t.keep s)) (if_pos hrej)

/-- An FRECV of MODE 1 under strict mode completes empty and is counted (R311). -/
theorem frecvEffect_strict {c : CoreId} {h : Cmd} {s : State} (hcount : cwCount h.w ≠ 0) (hmode : cwMode h.w = 1) (hstrict : (popHead c 3 s).strict = true) :
    frecvEffect c h s = fqRetire c (fqEnter c h [] [] (countEmpty c (countStrictRej c (popHead c 3 s)))) := by
  have hreps : List.range (cwCount h.w) ≠ [] := fun hnil => hcount (List.range_eq_nil.1 hnil)
  exact (if_neg hreps).trans (if_pos (by rw [hmode, hstrict]; rfl))

end Sys2Proof.Machine

/-! Commands that do nothing, and the events of open work (R78, R114, R147, R165, R168). -/
namespace Sys2Proof.Machine
open Sys2Proof

-- Commands that do nothing (R78, R79) -----------------------------------------------------------------------------------

/-- The clocks of a core that run are enough for a command in execution. -/
theorem State.finishing_of_clocked {s : State} {c : Nat} (h : s.clocked c = true) : s.finishing c = true := by
  rw [State.clocked, Bool.and_eq_true] at h
  exact h.2

/-- A queue with a head command whose WV token, if it has one, is granted or available gives it up to issue (R80). -/
theorem issuable_eq {s : State} {c q : Nat} {h : Cmd} {rest : List Cmd} (hissues : (s.core c).issues = true) (hclk : s.clocked c = true)
    (hwait : ((s.core c).queue q).wait = h :: rest)
    (htok : cwWv h.w = true → h.granted = true ∨ s.waitersBefore c q (cwWtk h.w) < (s.core c).tok.lk 0 (cwWtk h.w)) : s.issuable c q = some h := by
  have hcan : s.canIssue c q = true := by
    unfold State.canIssue
    dsimp only
    rw [hwait]
    dsimp only
    by_cases hg : h.granted = true
    · rw [if_pos hg]
      exact State.finishing_of_clocked hclk
    · rw [if_neg hg, hissues, hclk]
      cases hwv : cwWv h.w with
      | false => rfl
      | true => simp [(htok hwv).resolve_left hg]
  rw [State.issuable, if_pos hcan, hwait]
  rfl

/-- A command that does nothing completes at issue. -/
theorem nopCmd_next {c : CoreId} {q : Nat} {s : State} {h : Cmd} (hi : s.issuable c q = some h) (ho : cwOpc h.w = 0)
    (hfly : ((s.core c).queue q).fly = []) :
    nopCmd c q s = .next (s.after (fun t =>
      signalDone c q h (if cwCount h.w = 0 then (popHead c q t).bump F.ROD_CMD_TALLY_EMPTY c else popHead c q t))) := by
  simp only [nopCmd, hi]
  exact actIf_after (by simp [ho, hfly]) rfl

/-- FNOP enters FQ with nothing to do, and completes in push order. -/
theorem execFnop_next {c : CoreId} {s : State} {h : Cmd} (hh : fqHead c 0 s = some h) :
    execFnop c s = .next (s.after (fun t => fqRetire c (fqEnter c h [] [] (popHead c 3 (if cwCount h.w = 0 then t.bump F.ROD_CMD_TALLY_EMPTY c else t))))) := by
  have hcount (t : State) : t.when (cwCount h.w = 0) (countEmpty c) = if cwCount h.w = 0 then t.bump F.ROD_CMD_TALLY_EMPTY c else t := by
    simp only [State.when, decide_eq_true_eq, countEmpty]
  rw [State.after, ← hcount, execFnop, hh]
  rfl

-- A batch of tokens (R147) ----------------------------------------------------------------------------------------------

/-- The guard of TOKEN_ROUTED for tokens that are all there and ready. -/
theorem execTokenRouted_next {layer : BitVec 32} {step : Word} {s : State} {l : Layer} {toks : List (Fnid × BitVec 32)} {ts : List Tok}
    (hl : s.layerNo layer.toNat step = some l) (hts : toks.map (fun z => l.tok z.1 z.2.toNat) = ts.map some) (hne : ts ≠ []) (hlen : ts.length ≤ 32)
    (hdup : toks.eraseDups = toks) (hready : ts.all (tokReady (s.xdesc l.desc)) = true) (hhold : s.bit F.GLOBAL_HOLD_INHOLD 0 = false)
    (hawake : (s.routerCores (s.xdesc l.desc)).all (fun c => !s.bit F.ROD_ISLAND_ASLEEP (c / 4)) = true) :
    execTokenRouted layer step toks s = .next (s.after (fun u => layerAdvance (routeBatch ts l u).1 (routeBatch ts l u).2)) := by
  have hlength : toks.length = ts.length := by simpa using congrArg List.length hts
  have hnonempty : toks ≠ [] := fun hnil => hne (List.length_eq_zero_iff.1 (hlength.symm.trans (by rw [hnil]; rfl)))
  have hall : (ts.map some).all (fun t => t.any (tokReady (s.xdesc l.desc))) = true := by
    rw [List.all_map]
    exact hready
  have heff (u : State) : tokenRoutedEffect (ts.map some) l u = layerAdvance (routeBatch ts l u).1 (routeBatch ts l u).2 := by
    rw [tokenRoutedEffect, show (ts.map some).filterMap id = ts by simp]
  simp only [execTokenRouted, hl, hts]
  exact actIf_after (by simp [hnonempty, hlength, hlen, hdup, hall, hhold, hawake]) (heff _)

/-- A frame that names no descriptor leaves as a stray of its kind (R110). -/
theorem collUnmatchedExpiryEffect_eq {k : Nat} {s : State} {b : Buf} (h : s.buf k = some b) :
    collUnmatchedExpiryEffect k s =
      let u : State := { s with net := { s.net with unmatched := s.net.unmatched.erase k } }
      discard k (if b.frame.kind = 3 then u.bump F.SCHED_COLL_DROP_STRAY b.frame.grp else u.bump F.SCHED_EXP_DROP_STRAY 0) := by
  have hbuf : ({ s with net := { s.net with unmatched := s.net.unmatched.erase k } } : State).buf k = some b := h
  simp only [collUnmatchedExpiryEffect, hbuf]

-- Where the units stand still (Table 12.8, R386) --------------------------------------------------------------------------

theorem execCollTimeout_hold {inst : BitVec 32} {step : Word} {s : State} (h : s.bit F.GLOBAL_HOLD_INHOLD 0 = true) :
    execCollTimeout inst step s = .next s := by
  unfold execCollTimeout
  split
  · rfl
  · exact actIf_false (by rw [h]; rfl)

theorem execLayerTimeout_hold {layer : BitVec 32} {step : Word} {s : State} (h : s.bit F.GLOBAL_HOLD_INHOLD 0 = true) :
    execLayerTimeout layer step s = .next s := by
  unfold execLayerTimeout
  split
  · rfl
  · exact actIf_false (by rw [h]; rfl)

theorem execTokenRouted_hold {layer : BitVec 32} {step : Word} {toks : List (Fnid × BitVec 32)} {s : State} (h : s.bit F.GLOBAL_HOLD_INHOLD 0 = true) :
    execTokenRouted layer step toks s = .next s := by
  unfold execTokenRouted
  split
  · rfl
  · exact actIf_false (by simp [h])

theorem execTokenRouted_asleep {layer : BitVec 32} {step : Word} {toks : List (Fnid × BitVec 32)} {s : State} {l : Layer} {n : Nat}
    (hl : s.layerNo layer.toNat step = some l) (hn : n ∈ s.routerCores (s.xdesc l.desc)) (h : s.bit F.ROD_ISLAND_ASLEEP (n / 4) = true) :
    execTokenRouted layer step toks s = .next s := by
  have hall : (s.routerCores (s.xdesc l.desc)).all (fun c => !s.bit F.ROD_ISLAND_ASLEEP (c / 4)) = false :=
    List.all_eq_false.2 ⟨n, hn, by simp [h]⟩
  simp only [execTokenRouted, hl]
  exact actIf_false (by rw [hall, Bool.and_false])

theorem execCombineBlockDone_hold {layer : BitVec 32} {step : Word} {owner : Fnid} {tok : BitVec 32} {b : Nat} {s : State}
    (h : s.bit F.GLOBAL_HOLD_INHOLD 0 = true) : execCombineBlockDone layer step owner tok b s = .next s := by
  unfold execCombineBlockDone
  split
  · rfl
  · split
    · exact actIf_false (by rw [h]; rfl)
    · rfl

theorem execCombineBlockDone_asleep {layer : BitVec 32} {step : Word} {owner : Fnid} {tok : BitVec 32} {b : Nat} {s : State} {l : Layer} {y : Busy}
    (hl : s.layerNo layer.toNat step = some l) (hy : l.busy.find? (fun z => z.owner = owner && z.no = tok.toNat && z.blk = b) = some y)
    (h : s.bit F.ROD_ISLAND_ASLEEP (s.mapCore ((s.xdesc l.desc).cmbase + y.entry) / 4) = true) :
    execCombineBlockDone layer step owner tok b s = .next s := by
  simp only [execCombineBlockDone, hl, hy]
  cases l.tok owner tok.toNat with
  | none => rfl
  | some t => exact actIf_false (by rw [h, Bool.not_true, Bool.and_false])

theorem execCollBlockReduced_asleep {inst : BitVec 32} {step : Word} {b : Nat} {s : State} {x : Inst} (hx : s.instNo inst.toNat step = some x)
    (h : s.bit F.ROD_ISLAND_ASLEEP (s.blockCore (s.descOf x) x.step b / 4) = true) : execCollBlockReduced inst step b s = .next s := by
  simp only [execCollBlockReduced, hx]
  exact actIf_false (by rw [h, Bool.not_true, Bool.and_false])

end Sys2Proof.Machine

/-! The control core and the engines of a Rod core: the statements of chapter 3 settled. -/
namespace Sys2Proof.RodCores
open Sys2Proof Sys2Proof.Machine

/-- Settles O11: decoding gives back what is encoded, and what decodes to ADD has a word. -/
theorem rodDecodeEncode : Obligations.RodDecodeEncode := by
  unfold Obligations.RodDecodeEncode
  refine ⟨fun i w => decodeRod_encodeRod, fun c rd a b s => ⟨?word, rfl, ?skips⟩⟩
  case word => rw [encodeRod, nonzeroWord, ite_eq_left_iff, ← encR_add_eq_zero]; simp
  case skips =>
    refine actIf_false ?_
    rw [State.runs, Bool.and_eq_false_iff]
    exact .inr (decide_eq_false fun h => nomatch encodeRod_add_of_decodeRod h)

/-- Settles O12: each word decodes by evaluation. -/
theorem rodWords : Obligations.RodWords := by
  unfold Obligations.RodWords
  exact fun _ => ⟨rfl, rfl, rfl, rfl, rfl, rfl, rfl, rfl, rfl, rfl, rfl, rfl⟩

/-- Settles O13: each row is its operation where its core runs it; the comparisons and MUL are put in the statement's form. -/
theorem aluOperations : Obligations.AluOperations := by
  unfold Obligations.AluOperations
  refine ⟨?reg, ?imm⟩
  case reg =>
    rintro s c rd a b _ _ rfl rfl
    refine ⟨?_, ?_, ?_, ?_, ?_, ?_, ?_, ?_, ?slt, ?sltu, ?mul, ?_⟩ <;> intro h
    case slt => exact flagWord_slt .. ▸ actIf_after h rfl
    case sltu => exact flagWord_ult .. ▸ actIf_after h rfl
    case mul => exact mul_eq_ofNat .. ▸ actIf_after h rfl
    all_goals exact actIf_after h rfl
  case imm =>
    rintro s c rd a m _ rfl
    refine ⟨?_, ?_, ?_, ?_, ?_, ?_, ?_, ?_, ?_, ?slti⟩ <;> intro h
    case slti => exact flagWord_slt_signExtend .. ▸ actIf_after h rfl
    all_goals exact actIf_after h rfl

/-- Settles O14: the address passes the check of R71, and the accesses of the control core never conflict with its own. -/
theorem loadsAndStores : Obligations.LoadsAndStores := by
  unfold Obligations.LoadsAndStores
  rintro s c r a m _ _ rfl rfl hx
  exact ⟨fun hal h => ctlLoad_next h (ldstOk_iff.2 ⟨hx, hal⟩), fun hal h => ctlLoad_next h (ldstOk_iff.2 ⟨hx, hal⟩),
    fun hal h => ctlStore_next h (ldstOk_iff.2 ⟨hx, hal⟩), fun hal h => ctlStore_next h (ldstOk_iff.2 ⟨hx, hal⟩),
    fun _ _ => rfl, fun _ hlog => ⟨Share.clash_control hlog (.inr rfl) _, Share.clash_control hlog (.inl rfl) _⟩⟩

/-- Settles O16: each branch by its relation. -/
theorem branchesAndJumps : Obligations.BranchesAndJumps := by
  unfold Obligations.BranchesAndJumps
  rintro s c rd a b m o _ _ _ rfl rfl rfl
  exact ⟨fun h => branch_cored h rfl, fun h => branch_cored (p := fun x y => x != y) h (by simp [bne, beq_eq_decide]), fun h => branch_cored h rfl,
    fun h => branch_cored (p := fun x y => !x.slt y) h (not_slt_eq ..), fun h => branch_cored h rfl,
    fun h => branch_cored (p := fun x y => !x.ult y) h (not_ult_eq ..), fun h => actIf_after h rfl, fun h => actIf_after h rfl⟩

/-- Settles O17: addresses add modulo 2^48. -/
theorem addressStep : Obligations.AddressStep := by
  unfold Obligations.AddressStep
  exact fun _ => ⟨BitVec.toNat_add .., rfl⟩

/-- Settles O18: each row is its effect where its core runs it. -/
theorem addressRegisters : Obligations.AddressRegisters := by
  unfold Obligations.AddressRegisters
  rintro s c rd a n f q _ rfl
  refine ⟨?_, ?_, ?_, ?_, ?_, ?_, ?_, ?_⟩ <;> intro h <;> exact actIf_after h rfl

/-- Settles O19: both effects are strictZero under strict mode. -/
theorem strictRejectsEntropy : Obligations.StrictRejectsEntropy := by
  unfold Obligations.StrictRejectsEntropy
  intro s c rd i hi hstrict hruns
  rcases hi with rfl | rfl
  · exact actIf_after hruns (if_pos hstrict)
  · exact actIf_after hruns (if_pos hstrict)

/-- Settles O20: without strict mode the effects are the second branches. -/
theorem cyclesAndEntropy : Obligations.CyclesAndEntropy := by
  unfold Obligations.CyclesAndEntropy
  intro s c rd hstrict
  have hs : ¬ s.hushed.strict = true := fun h => Bool.noConfusion (hstrict.symm.trans h)
  exact ⟨fun h => actIf_after h (if_neg hs),
    fun h => (actIf_after (g := fun t => (t.setCore c ((t.core c).setGr rd t.freeVal).advance).freed) h (if_neg hs)).trans rfl⟩

/-- Settles O25: each lane command is its row of vqRun. -/
theorem vectorLanes : Obligations.VectorLanes := by
  unfold Obligations.VectorLanes
  intro c
  refine ⟨?_, ?_, ?_, ?_, ?_, ?_, ?_, ?_, ?_, ?_, ?_, ?_, ?_, ?_, ?_, ?_, ?_, ?_, ?_, ?_, ?_, ?_, ?_⟩
  all_goals exact vqRun_does fun _ => rfl

/-- Settles O26: each store and Bead command is its row of vqRun. -/
theorem storesAndBeads : Obligations.StoresAndBeads := by
  unfold Obligations.StoresAndBeads
  intro c
  refine ⟨?_, ?_, ?_, ?_, ?_, ?_, ?_, ?_, ?_, ?_, ?_⟩
  all_goals exact vqRun_does fun _ => rfl

/-- Settles O24: an instruction other than a store leaves its core's memories whole, and a store all but its bytes. -/
theorem controlCoreFrame : Obligations.ControlCoreFrame := by
  unfold Obligations.ControlCoreFrame
  intro s t i henc hex c
  by_cases hstore : ∃ r b m n, i = .st c r b m ∧ n = 8 ∨ i = .sw c r b m ∧ n = 4
  · obtain ⟨r, b, m, n, hi⟩ := hstore
    have hctl : ctlStore c i r b m n s = .next t := by
      rw [← hex]
      rcases hi with ⟨hi, rfl⟩ | ⟨hi, rfl⟩ <;> rw [hi] <;> rfl
    obtain ⟨hone, hfix, hmem⟩ := storesOnly_ctlStore hctl
    simp only [Core.fixed, Prod.mk.injEq] at hfix
    obtain ⟨himem, hbeads, hv, htset⟩ := hfix
    exact ⟨onlyCore_of_oneCore hone, himem, hbeads, hv, htset, fun a ha => hmem a (ha r b m n hi)⟩
  · have hne : ∀ c r b m, i ≠ .st c r b m ∧ i ≠ .sw c r b m := by
      refine fun _ r b m => ⟨?_, ?_⟩
      · rintro rfl
        exact hstore ⟨r, b, m, 8, .inl ⟨rfl, rfl⟩⟩
      · rintro rfl
        exact hstore ⟨r, b, m, 4, .inr ⟨rfl, rfl⟩⟩
    obtain ⟨hone, hfix⟩ := leavesFixed_controlCore henc hne s t hex
    simp only [Core.fixed, Prod.mk.injEq] at hfix
    obtain ⟨hrmem, himem, hbeads, hv, htset⟩ := hfix
    exact ⟨onlyCore_of_oneCore hone, himem, hbeads, hv, htset, fun a _ => by rw [hrmem]⟩

/-- Settles O15: the access faults, and the fault writes neither memory nor registers. -/
theorem loadStoreRange : Obligations.LoadStoreRange := by
  unfold Obligations.LoadStoreRange
  intro s c r a m i w hi h hbad
  have hok : ¬ ldstOk ((s.core c).gr a + m.signExtend 64) w = true := by
    rw [ldstOk_iff]
    omega
  have hrange : exec i s = .next (s.after (fun t => coreFault c .ldstRange 7 (t.core c).pc t)) := by
    rcases hi with ⟨rfl | rfl, rfl⟩ | ⟨rfl | rfl, rfl⟩
    · exact ctlLoad_range h hok
    · exact ctlStore_range h hok
    · exact ctlLoad_range h hok
    · exact ctlStore_range h hok
  have hst : (s.hushed.core c).st ≠ .fault := by simp [State.runs_st h]
  have hcore := coreFault_core c .ldstRange 7 (s.hushed.core c).pc s.hushed hst
  refine ⟨_, hrange, ?_, ?_, ?_, ?_, oneCore_hbm (oneCore_after (oneCore_coreFault ..))⟩ <;> rw [State.after_core, hcore] <;> rfl

/-- Settles O50: HALT set and cleared, on the core and on its bit. -/
theorem haltRules : Obligations.HaltRules := by
  unfold Obligations.HaltRules
  intro s c k hk _
  exact ⟨haltSet_core hk, haltSet_bit c s, haltClear_core_halted hk, haltClear_core_other hk⟩

/-- Settles O22: the signal faults, and a fault keeps the counts. -/
theorem tokenOverflow : Obligations.TokenOverflow := by
  unfold Obligations.TokenOverflow
  intro s c t htok hst
  refine ⟨fun q pc => ?_, fun h => ?_⟩
  · rw [signalTok_overflow htok, coreFault_core _ _ _ _ _ hst]
    exact ⟨rfl, rfl, htok⟩
  · have hcore := coreFault_core c .tokovf 7 (s.core c).pc s.hushed hst
    refine ⟨_, actIf_after (g := coreFault c .tokovf 7 (s.core c).pc) h (if_pos htok), ?_⟩
    rw [State.after_core, hcore]
    exact ⟨rfl, rfl, htok⟩

/-- Settles O27: the write is the one pending, and becomes visible at slot + latency. -/
theorem vectorLatency : Obligations.VectorLatency := by
  unfold Obligations.VectorLatency
  intro s c r lat rep n pc lanes hpend hlen
  have hwr := writeVec_core c r lat rep pc lanes s
  rw [hpend, List.nil_append] at hwr
  have hwritten : ((s.core c).vwritten.put false r true).lk false r = true := SMap.lk_put_ne _ _ _ _ nofun
  have hv := commitVec_v (n := n) (r := r) (congrArg Core.vpend hwr) ((congrArg (fun k => k.vwritten.lk false r) hwr).trans hwritten)
  rw [hwr] at hv
  have hlanes : lanes ≠ [] := List.ne_nil_of_length_pos (by omega)
  refine ⟨?_, fun q hq => ?_⟩
  · rw [Core.vreg, hv]
    split
    · rw [SMap.lk_put_ne _ _ _ _ hlanes, map_laneOf_range hlen]
    · rfl
  · rw [Core.vreg, hv]
    split
    · rw [SMap.lk_put_other _ _ _ _ _ _ hq, Core.vreg]
    · rfl

/-- Settles O28: the command leaves VQ and its core faults, which keeps the core's memory, Beads and Tally sets. -/
theorem vectorRange : Obligations.VectorRange := by
  unfold Obligations.VectorRange
  intro s c h i chk fin fout hrow hi hidle ⟨r, hr, hbad⟩
  have hexec : exec i s = .next (s.after (fun s => coreFault c .cmdRange 0 h.pc (vqIssue c h s))) := by
    rcases hrow with ⟨rfl, ho, hc⟩ | ⟨rfl, ho, hc⟩ | ⟨rfl, ho, hc⟩ | ⟨rfl, ho, hc⟩ | ⟨rfl, ho, hc⟩ | ⟨rfl, ho, hc⟩ | ⟨rfl, ho, hc⟩ |
      ⟨rfl, ho, hc⟩ | ⟨rfl, ho, hc⟩ | ⟨rfl, ho, hc⟩ | ⟨rfl, ho, hc⟩ | ⟨rfl, ho, hc⟩ | ⟨rfl, ho, hc⟩
    all_goals exact vqRun_range (fun _ => rfl) hc hi ho hr hbad
  have hiss := vqIssue_core (c := c) (h := h) (s := s.hushed) hidle
  refine ⟨_, hexec, coreFault_st .., ?_⟩
  simp only [State.after_core]
  by_cases hst : (s.core c).st = .fault
  · rw [coreFault_again c .cmdRange 0 h.pc _ (by rw [hiss]; exact hst), hiss]
    exact ⟨fun hne => absurd hst hne, fun _ => ⟨rfl, rfl, rfl⟩, by rw [Core.issues, show (s.hushed.core c).st = .fault from hst]; rfl, rfl, rfl, rfl⟩
  · rw [coreFault_core c .cmdRange 0 h.pc _ (by rw [hiss]; exact hst), hiss]
    exact ⟨fun _ => ⟨rfl, rfl, rfl⟩, fun hfault => absurd hfault hst, rfl, rfl, rfl, rfl⟩

/-- Settles O21: each row by its branch, and the grant by its first waiter. -/
theorem pushAndTokens : Obligations.PushAndTokens := by
  unfold Obligations.PushAndTokens
  refine ⟨?rows, fun s c t hwaited hidle => ⟨grantTok_tok hwaited hidle, fun q hq h hfirst => grantTok_head rfl hidle hq h hfirst⟩⟩
  rintro s c q a b t _ rfl
  refine ⟨fun hruns => ⟨fun hok hroom => ?enters, fun hok hfull => ?stalls, fun hbad => ?bad⟩, fun hrun hclk hstall hroom => ?resumes,
    fun hruns htok => ?tsig, fun hruns => actIf_after hruns (by rw [twaitEffect, State.hushed_waitersBefore]; rfl), fun hissues hclk htok hwaited => ?grant⟩
  case enters =>
    refine actIf_after hruns ((if_neg ?_).trans (if_pos hroom))
    simp [State.hushed_core, hok]
  case stalls =>
    refine actIf_after hruns ((if_neg ?_).trans (if_neg (Nat.not_lt.2 hfull)))
    simp [State.hushed_core, hok]
  case bad =>
    have hcore := pushEffect_bad (s := s.hushed) rfl (State.runs_st hruns) hbad
    refine ⟨_, actIf_true hruns, ?_⟩
    rw [State.after_core, hcore]
    exact ⟨rfl, rfl, rfl, rfl, rfl, fun _ => rfl⟩
  case resumes =>
    change execPushStallEnd c s = _
    simp only [execPushStallEnd, hstall]
    exact actIf_true (by simp [hrun, hclk, hroom])
  case tsig => exact actIf_after hruns (tsigEffect_next rfl (by simp [State.runs_st hruns]) htok)
  case grant => exact actIf_true (by simp [hissues, hclk, htok, hwaited])

/-- Settles O23: the control core's rows by their effects, and the release by the state that it finds. -/
theorem stepsAndHalt : Obligations.StepsAndHalt := by
  unfold Obligations.StepsAndHalt
  refine ⟨fun s c w k hk => ⟨fun h => ?stepend, fun hst hstall hclk hempty hheld hhalt => ?wait, fun h => ?halt, fun hx hw => ?illegal,
    fun hlim hst hstalled hnew => ?limit⟩,
    fun s c slot k hk hhalt => ⟨fun hst => ?taken, fun hst hheld => releaseCore_run_free hk hst hheld, fun hst hheld => ?overrun⟩⟩
  case stepend =>
    subst hk
    exact actIf_after h rfl
  case wait =>
    obtain ⟨l, hexec, hl⟩ := stepwaitEnter_next hk hst hstall hclk hempty hheld hhalt
    refine ⟨_, hexec, ?_⟩
    rw [State.after_core, State.core_setCore_st _ _ _ (by rw [hl]; simp), hl]
    exact ⟨rfl, rfl, rfl, rfl, rfl, rfl, onlyCore_of_oneCore (oneCore_after (oneCore_trans (oneCore_drainVec ..) (oneCore_setCore ..)))⟩
  case halt =>
    subst hk
    have hset : (s.hushed.setCore c (s.core c).advance).core c = (s.core c).advance := State.core_setCore_st _ _ _ (by simp [State.runs_st h])
    refine ⟨_, actIf_true h, haltSet_bit .., ?_, onlyCore_of_oneCore (oneCore_after (oneCore_trans (oneCore_setCore ..) (oneCore_haltSet ..)))⟩
    refine (haltSet_core hset).trans ?_
    have hrun : (s.core c).advance.st = .run := State.runs_st h
    have hstall : (s.core c).advance.stall = none := State.runs_stall h
    have hquar : (s.core c).advance.quar = (s.core c).quar := rfl
    cases hq : (s.core c).quar
    · rw [if_pos ⟨hquar.trans hq, .inr (.inl ⟨hrun, hstall⟩)⟩, if_neg Bool.false_ne_true, hrun]
    · rw [if_neg (by simp [hquar, hq]), if_pos rfl]
  case illegal =>
    subst hk
    exact actIf_after (b := s.executing c && decodeRod c (s.core c).fetch = none) (by simp [hx, hw]) rfl
  case limit =>
    subst hk
    refine actIf_after (b := s.fld F.ROD_STALL_LIMIT_LIMIT 0 ≠ 0 && decide ((s.core c).st ≠ .fault) && s.stalled c w &&
      !(s.core c).episodes.contains (stallIndex w)) ?_ rfl
    rw [hstalled, hnew, decide_eq_true hlim, decide_eq_true hst]
    rfl
  case taken =>
    rw [releaseCore_waiting hk hst hhalt]
    exact ⟨rfl, rfl, rfl, rfl, toNat_entry s c, rfl, rfl⟩
  case overrun =>
    rw [releaseCore_run_held hk hst hheld]
    exact ⟨rfl, rfl, rfl⟩

/-- Settles O30: each command is its row of startCmd, whose check of a Strainer command reads the spans of its opcode, and each completion its row of
finishCmd. -/
theorem engineCommands : Obligations.EngineCommands := by
  unfold Obligations.EngineCommands
  refine ⟨fun c => ⟨?tmm, ?ssort, ?smerge, ?sfilt, ?scomp, ?sscan, ?spick, ?srand, ?mcopy, ?mfill, ?mgather⟩,
    fun c => ⟨?_, ?_, ?_, ?_, ?_, ?_, ?_, ?_, ?_, ?_, ?_⟩⟩
  case ssort | smerge | sfilt | scomp | sscan | spick =>
    exact sqStart_does (fun _ => rfl) (fun h j ho => by simp only [sqReads, ho]) fun s h r ho => by simp only [sqWrites, ho]
  case srand =>
    refine startCmd_does_of (chk := fun s h r => sqOk c s h r && (s.brewSeed c (cwXarg h.w % 256)).isSome) (fun _ => rfl) fun s h ho => funext fun r => ?_
    have hspan : sqOk c s h r = sqArgs [] (h.yAddr r, 8) := by
      rw [sqOk_eq (reads := fun _ => []) (n := 8) ho (fun j ho => by simp only [sqReads, ho]) (fun ho => by simp only [sqWrites, ho])]
      exact congrArg (sqArgs · (h.yAddr r, 8)) (List.flatMap_eq_nil_iff.2 fun _ _ => rfl)
    rw [hspan]
  case tmm | mcopy | mfill | mgather => exact startCmd_does fun _ => rfl
  all_goals exact finishCmd_does fun _ => rfl

/-- Settles O32: each command is its row for the head of FQ or for the command that waits, and strict mode rejects at the row. -/
theorem fabricEngine : Obligations.FabricEngine := by
  unfold Obligations.FabricEngine
  refine ⟨fun s c h f i q => ⟨fun hh => ?fsend, fun hn => ?accepted, fun hh => ?frecv, fun hf hh hadd => ?fmem, fun hf hh => requestRow_issue hf hh nofun,
    fun hf ho hfin hn => requestRow_next hf ho hfin hn, fun hf ho hfin hn => requestRow_next hf ho hfin hn,
    fun hh hfly => ?ffence, fun hq hsync => ?timeout⟩, ?strict⟩
  case fsend =>
    change execFsend c s = _
    rw [execFsend, hh]
    rfl
  case accepted =>
    change execFsendAccepted c s = _
    obtain ⟨t, ht⟩ := Option.isSome_iff_exists.1 hn
    rw [execFsendAccepted, ht]
    rfl
  case frecv =>
    change execFrecv c s = _
    rw [execFrecv, hh]
    rfl
  case fmem =>
    refine requestRow_issue hf hh fun hrej => ?_
    rw [Bool.and_eq_true] at hrej
    obtain ⟨hstrict, hfadd⟩ := hrej
    rcases hadd with hadd | hadd
    · exact nomatch hadd.symm.trans hstrict
    · exact nomatch hadd.symm.trans hfadd
  case ffence =>
    change execFfence c s = _
    rw [execFfence, hh]
    exact actIf_true (decide_eq_true hfly)
  case timeout =>
    change execFmemTimeout c i s = _
    rw [execFmemTimeout, hq]
    exact actIf_true (by rw [hsync]; rfl)
  case strict =>
    intro s c h hstrict hcount empty
    refine ⟨fun hh hmode => ?_, fun hf hh hadd => requestRow_strict hf hh (Bool.and_eq_true_iff.2 ⟨hstrict, hadd⟩)⟩
    change execFrecv c s = _
    rw [execFrecv, hh]
    exact congrArg (fun t : State => Host.Outcome.next (t.keep s)) (frecvEffect_strict hcount hmode hstrict)

/-- Settles O42: a command that does nothing issues and completes at once; each unit event is its row, whose condition the statement gives or denies. -/
theorem nopsAndUnitEventsComplete : Obligations.NopsAndUnitEventsComplete := by
  unfold Obligations.NopsAndUnitEventsComplete
  refine ⟨?nops, ?events, ?stopped⟩
  case nops =>
    intro s c h rest hissues hclk ho heads counted
    have hi (q : Nat) (hh : heads q) : s.issuable c q = some h := issuable_eq hissues hclk (congrArg Queue.wait hh.1) hh.2
    have hfly (q : Nat) (hh : heads q) : ((s.core c).queue q).fly = [] := congrArg Queue.fly hh.1
    refine ⟨fun hh => nopCmd_next (hi 1 hh) ho (hfly 1 hh), fun hh => nopCmd_next (hi 2 hh) ho (hfly 2 hh),
      fun hh => nopCmd_next (hi 4 hh) ho (hfly 4 hh), fun hh => ?_⟩
    have hhead : fqHead c 0 s = some h := by
      simp [fqHead, hi 3 hh, ho, Core.fqFree, hfly 3 hh]
    exact execFnop_next hhead
  case events =>
    intro s inst step b i k x f l owner tok toks ts y t hhold
    refine ⟨fun hx hready hawake => ?reduced, fun hx => ?timeout, fun hi hk hf => ?expiry,
      fun hl hts hne hlen hdup hready hawake => execTokenRouted_next hl hts hne hlen hdup hready hhold hawake,
      fun hl hy ht hawake => ?combined, fun hl => ?layer⟩
    case reduced =>
      change execCollBlockReduced inst step b s = _
      simp only [execCollBlockReduced, hx]
      exact actIf_after (by rw [hready, hawake]; rfl) rfl
    case timeout =>
      change execCollTimeout inst step s = _
      simp only [execCollTimeout, hx]
      exact actIf_true (by rw [hhold]; rfl)
    case expiry =>
      change execCollUnmatchedExpiry i s = _
      simp only [execCollUnmatchedExpiry, hi]
      exact actIf_after (by simp [hk, hf]) (collUnmatchedExpiryEffect_eq hk)
    case combined =>
      change execCombineBlockDone inst step owner tok b s = _
      simp only [execCombineBlockDone, hl, hy, ht]
      exact actIf_true (by rw [hhold, hawake]; rfl)
    case layer =>
      change execLayerTimeout inst step s = _
      simp only [execLayerTimeout, hl]
      exact actIf_true (by rw [hhold]; rfl)
  case stopped =>
    exact fun s inst step b owner tok toks =>
      ⟨fun h => ⟨execCollTimeout_hold h, execLayerTimeout_hold h, execTokenRouted_hold h, execCombineBlockDone_hold h⟩,
        fun x hx h => execCollBlockReduced_asleep hx h, fun l n hl hn h => execTokenRouted_asleep hl hn h,
        fun l y hl hy h => execCombineBlockDone_asleep hl hy h⟩

end Sys2Proof.RodCores

/-! A REWIND that waits for an unload (R256, R336, R383). -/
namespace Sys2Proof.Machine
open Sys2Proof

/-- Two units that a row is both of do the same with a frame that comes to both. -/
theorem TakenBy.after_eq {op : Src → Instr} {u v : Machine.Unit} (hu : TakenBy op u) (hv : TakenBy op v) {f : Src} {s : State}
    (hus : u.offered f s = true) (hvs : v.offered f s = true) : s.after (u.handle f) = s.after (v.handle f) :=
  Host.Outcome.next.inj ((hu f s hus).symm.trans (hv f s hvs))

/-- A sound frame that waits here and that its unit has no use for yet goes on waiting. -/
theorem handle_inbox_of_use_none {u : Machine.Unit} {s : State} {k i : Nat} {b : Buf} (hwaits : s.waiting k = some (i, b))
    (hsound : tainted b.frame = false) (hmet : b.fresh = false) (hkept : s.dropped none b.frame true = none)
    (huse : u.use i b.frame (outOfInbox i s) = none) : u.handle (.inbox k) s = u.wait i b.frame s := by
  unfold outOfInbox at huse
  simp only [Unit.handle, Unit.resume, hwaits, hsound, hmet, hkept, huse, Bool.false_eq_true, if_false]

/-- A REWIND that would be applied waits while an unload runs (R383). -/
theorem rewindUse_of_unload {i : Nat} {f : Frame} {s : State} (hcase : s.logCase f = .apply) (hunload : s.board.unload.isSome = true) :
    rewindUse i f s = none := by simp [rewindUse, hcase, hunload]

/-- Such a REWIND asks for no room and no cells: nothing counts its wait. -/
theorem rewindHold_of_unload {i : Nat} {f : Frame} {s : State} (hcase : s.logCase f = .apply) (hunload : s.board.unload.isSome = true) :
    rewindHold i f s = s := by simp [rewindHold, hcase, hunload]

/-- The unit of ARRIVEs to the REWIND objects, with what it counts of one that waits. -/
def rewindUnit (wait : Nat → Frame → State → State) : Machine.Unit :=
  syncUnit (· = 0x30) (fun n => decide (0xFFE0 ≤ n) && decide (n ≤ 0xFFE7)) rewindUse wait

theorem takenBy_rewindArrive : TakenBy .rewindArrive (rewindUnit rewindHold) := consume_takes fun _ _ => rfl

/-- A REWIND that passes the tests of R278 and lies on the die of its object, and that an unload holds, has no use yet. -/
theorem rewindUnit_use_of_unload {wait : Nat → Frame → State → State} {i : Nat} {f : Frame} {s : State} (hdst : f.dst ≠ mcastDst)
    (hopen : s.refusal f (s.sender i f) = none) (hhome : goHome i f s = some s) (hcase : s.logCase f = .apply)
    (hunload : s.board.unload.isSome = true) : (rewindUnit wait).use i f s = none := by
  simp only [rewindUnit, syncUnit, hdst, if_false, hopen, hhome, Option.bind_some, rewindUse_of_unload hcase hunload]

/-- Endpoint 5 sends an ARRIVE with k = 0 to the REWIND object of Brew slot 0. -/
def rewindFrame : Frame :=
  ({ kind := 5, vc := 0, dst := 0x8000, h1 := BitVec.ofNat 64 (0x30 <<< 48 + 0xF000000000 + 64 * 0xFFE0), payload := bytesLE 8 0 } : Hdr).frame 5 0 0 false

/-- The frame as it is stored: it came by port 0, and has crossed to the die of its object. -/
def rewindBuf : Buf := { frame := rewindFrame, inPort := some 0, die := 3 }

/-- The frame waits here while slot 0, whose Brew lets endpoint 5 command it, is unloaded. -/
def unloadingState : State :=
  { brews := [(0, some { authep := [5] })]
    board := { unload := some { slot := 0, who := none } }
    net := { inbox := [0], bufs := [(0, some rewindBuf)], nextBuf := 1 } }

theorem rewindUnit_offered_unloadingState (wait : Nat → Frame → State → State) : (rewindUnit wait).offered (.inbox 0) unloadingState = true :=
  show (rewindUnit rewindHold).offered (.inbox 0) unloadingState = true by decide +kernel

theorem rewindUnit_handle_unloadingState (wait : Nat → Frame → State → State) :
    (rewindUnit wait).handle (.inbox 0) unloadingState = wait 0 rewindFrame unloadingState :=
  handle_inbox_of_use_none (b := rewindBuf) rfl (by decide +kernel) rfl (by decide +kernel)
    (rewindUnit_use_of_unload (by decide +kernel) (by decide +kernel) rfl rfl rfl)

/-- The row of REWIND_ARRIVE leaves the WAIT Tally of the port as it was. -/
theorem wait_rewindHold_unloadingState : (unloadingState.after ((rewindUnit rewindHold).handle (.inbox 0))).fld F.CADDY_QTALLY_WAIT 0 = 0 := by
  rw [State.after, show unloadingState.hushed = unloadingState from rfl, rewindUnit_handle_unloadingState, rewindHold_of_unload rfl rfl]
  decide +kernel

/-- A unit that takes the wait for one for cells adds 1 to the WAIT Tally of the port. -/
theorem wait_loggedWait_unloadingState : (unloadingState.after ((rewindUnit loggedWait).handle (.inbox 0))).fld F.CADDY_QTALLY_WAIT 0 = 1 := by
  rw [State.after, show unloadingState.hushed = unloadingState from rfl, rewindUnit_handle_unloadingState]
  decide +kernel

end Sys2Proof.Machine

/-! The rows of units that consume frames: the statement about collective, memory and SYNC frames settled. -/
namespace Sys2Proof.Collectives
open Sys2Proof Sys2Proof.Machine

/-- Refutes O35: the row of REWIND_ARRIVE is not the unit that counts each wait as one for log room or cells. A REWIND that waits for an unload waits for
neither, and its row counts nothing where that unit adds 1 to WAIT. -/
theorem not_unitFrames : ¬ Obligations.UnitFrames := by
  unfold Obligations.UnitFrames
  rintro ⟨-, -, -, -, -, -, -, -, -, hrewind, -⟩
  have hsame := takenBy_rewindArrive.after_eq (v := rewindUnit loggedWait) hrewind (rewindUnit_offered_unloadingState _) (rewindUnit_offered_unloadingState _)
  have hcount : 0 = 1 := by
    rw [← wait_rewindHold_unloadingState, hsame, wait_loggedWait_unloadingState]
  exact absurd hcount Nat.zero_ne_one

end Sys2Proof.Collectives

/-! Frames that arrive and link words (R205, R212, R216, R217): what a port does with each, and the statements of chapter 7 settled. -/
namespace Sys2Proof.Machine
open Sys2Proof

section
variable {p : Nat} {rx : RxFrame} {s : State}

/-- Check 1 of R212. -/
theorem rxHead_startBad (hstart : rx.startOk = false) :
    rxHead p rx s =
      (none, (if (s.port p).resync then s else s.bump F.PORT_LINKERR_LWERR p).modPort p (fun x => { x with resync := true })) := by
  cases hresync : (s.port p).resync <;> simp [rxHead, hstart, hresync, State.when]

/-- Check 2 of R212. -/
theorem rxHead_hcrcBad (hstart : rx.startOk = true) (hhcrc : rx.frame.hcrcOk = false) :
    rxHead p rx s = (none, ((s.modPort p (fun x => { x with resync := false })).bump F.PORT_RXFRAME_HCRCERR p).modPort p
      (fun x => { x with resync := decide (4096 < rx.frame.len) })) := by
  simp only [rxHead, hstart, hhcrc, Bool.not_true, Bool.not_false, Bool.false_eq_true, if_false, if_true]

/-- A frame with a good header is stored exactly where checks 3 to 7 of R212 pass. -/
theorem rxHead_isNone (hstart : rx.startOk = true) (hhcrc : rx.frame.hcrcOk = true) :
    (rxHead p rx s).1.isNone = ((s.modPort p (fun x => { x with resync := false })).headFail p rx.frame).isSome := by
  simp only [rxHead, hstart, hhcrc, Bool.not_true, Bool.false_eq_true, if_false]
  cases (s.modPort p (fun x => { x with resync := false })).headFail p rx.frame <;> rfl

end

/-- A sound frame that waits here, checked before and not dropped, is taken where its unit has a use for it. -/
theorem handle_inbox_of_use_some {u : Machine.Unit} {s t : State} {k i : Nat} {b : Buf} (hwaits : s.waiting k = some (i, b))
    (hsound : tainted b.frame = false) (hmet : b.fresh = false) (hkept : s.dropped none b.frame true = none)
    (huse : u.use i b.frame (outOfInbox i s) = some t) : u.handle (.inbox k) s = t := by
  unfold outOfInbox at huse
  simp only [Unit.handle, Unit.resume, hwaits, hsound, hmet, hkept, huse, Bool.false_eq_true, if_false]

/-- A link word of the type that its row takes. -/
theorem goodWord_eq_true {w : Word} {lt : Nat} (hgood : lwGood w = true) (htype : lwType w = lt) : goodWord w lt = true := by
  simp [goodWord, hgood, htype]

end Sys2Proof.Machine

namespace Sys2Proof.FramesAddresses
open Sys2Proof Sys2Proof.Machine

/-- Settles O33: checks 1 and 2 each end the frame, a good header is stored by checks 3 to 7 alone, and a waiting frame that nothing drops goes to its unit. -/
theorem frameChecks : Obligations.FrameChecks := by
  unfold Obligations.FrameChecks
  refine ⟨fun s p rx => ⟨fun hstart => Prod.ext_iff.1 (rxHead_startBad hstart), rxHead_hcrcBad, fun hstart hhcrc => ?stored⟩,
    fun u s k i b hwaits hsound hmet hkept => ?waiting⟩
  case stored => rw [rxHead_isNone hstart hhcrc, Option.isSome_iff_ne_none]
  case waiting =>
    cases huse : u.use i b.frame (outOfInbox i s) with
    | none => exact handle_inbox_of_use_none hwaits hsound hmet hkept huse
    | some t => exact handle_inbox_of_use_some hwaits hsound hmet hkept huse

/-- Settles O44: each row's condition holds on a linked port for the word it is given. -/
theorem linkWords : Obligations.LinkWords := by
  unfold Obligations.LinkWords
  intro s p w v hlinked
  refine ⟨fun hgood htype => actIf_true ?credit, fun hgood htype => actIf_true ?csync, fun hbad hresync => actIf_true ?bad,
    fun hgood hresync => actIf_true ?resync, actIf_true hlinked, actIf_true hlinked⟩
  case credit => rw [hlinked, goodWord_eq_true hgood htype]; rfl
  case csync => rw [hlinked, goodWord_eq_true hgood htype]; rfl
  case bad => rw [hlinked, hresync, Bool.and_eq_false_iff.2 hbad]; rfl
  case resync => rw [hlinked, hgood, hresync]; rfl

end Sys2Proof.FramesAddresses

/-! The resequencer's timers (R241, R245) and the egress ports (R227, R250, R266): the rows that read an entry, a queue or a frame before they act. -/
namespace Sys2Proof.Machine
open Sys2Proof

section
variable {g : Fin 9} {src dst : Fnid} {e : RsEntry} {s : State}

/-- A learning entry's interval ends (R241). -/
theorem execReseqLearnEnd_next (hentry : s.entry g src dst = some e) (hlearning : e.learning = true) :
    execReseqLearnEnd g src dst s = .next (s.after (learnEndEffect g e)) := by
  simp only [execReseqLearnEnd, hentry]
  exact actIf_true hlearning

/-- An entry that holds no frame becomes free (R245). -/
theorem execReseqEntryIdle_next (hentry : s.entry g src dst = some e) (hheld : e.anyHeld = false) :
    execReseqEntryIdle g src dst s = .next (s.after (entryIdleEffect g src dst)) := by
  simp only [execReseqEntryIdle, hentry]
  exact actIf_true (by rw [hheld]; rfl)

end

section
variable {p : PortId} {s : State}

/-- The queue chosen by R266 begins its head frame on a linked port that transmits nothing. -/
theorem execEgressFrameStart_next {n : Nat} (hqueue : s.nextQueue p = some n) (hlinked : s.linked p = true) (htx : (s.port p).tx = none) :
    execEgressFrameStart p s = .next (s.after (startFrame p n)) := by
  simp only [execEgressFrameStart, hqueue]
  exact actIf_true (by simp [hlinked, htx])

/-- The frame in transmission leaves (R250, R258). -/
theorem execEgressFrameEnd_next {n i : Nat} (htx : (s.port p).tx = some (n, i)) :
    execEgressFrameEnd p s = .next (s.after (egressFrameEndEffect p i)) := by
  simp only [execEgressFrameEnd, htx]
  rfl

/-- A frame of a queue that credit starves ages out (R227). -/
theorem execEgressAgeing_next {q : Fin 32} {j : Nat} {x : QEnt} (hframe : ((s.port p).queue q).live[j]? = some x) (hstarved : s.starved p q = true) :
    execEgressAgeing p q j s = .next (s.after (egressAgeingEffect p q x)) := by
  simp only [execEgressAgeing, hframe]
  exact actIf_true hstarved

end

end Sys2Proof.Machine

/-! The statement about the resequencer and the egress ports settled. -/
namespace Sys2Proof.ForwardingOrdering
open Sys2Proof Sys2Proof.Machine

/-- Settles O43: each event takes its effect under its own condition; the coarse wheel and the sampling of queues have none. -/
theorem reseqAndEgress : Obligations.ReseqAndEgress := by
  unfold Obligations.ReseqAndEgress
  intro s g src dst seq e p q n i j slot x
  refine ⟨fun hholds => actIf_true hholds, execReseqLearnEnd_next, execReseqEntryIdle_next, execEgressFrameStart_next, execEgressFrameEnd_next,
    ?wheel, execEgressAgeing_next, ?sample⟩
  case wheel => rfl
  case sample => rfl

end Sys2Proof.ForwardingOrdering

/-! Waits that end (R238, R256, R282, R294, R300) and the ends of a REWIND, a commit, an unload and a recheck (R322, R337, R382, R383). -/
namespace Sys2Proof.Machine
open Sys2Proof

/-- A command's effect, given by another that gives the same state here. -/
theorem act_after {f g : State → State} {s : State} (h : f s.hushed = g s.hushed) : act f s = .next (s.after g) :=
  actIf_after (b := true) rfl h

section
variable {s : State}

/-- The request that has waited longest for log room is tried again (R294). -/
theorem execLogRoomGrant_next {i : Nat} (hwaits : s.net.inbox.find? s.awaitsLog = some i) (hroom : s.logFull = false) :
    execLogRoomGrant s = .next (s.after (retry loggedRows i)) := by
  simp only [execLogRoomGrant, hwaits]
  exact actIf_true (by rw [hroom]; rfl)

/-- A LIVE entry of the replay log expires (R294). -/
theorem execReplayLogExpiry_next {src : Fnid} {tag : BitVec 12} {e : LogEnt} (hentry : s.logOf src tag = some e) (hlive : e.reply.isSome = true) :
    execReplayLogExpiry src tag s = .next (s.after (logExpire e)) := by
  simp only [execReplayLogExpiry, hentry]
  exact actIf_true hlive

/-- A pending release is formed where its die has a cell and credit allows (R300). -/
theorem execReleaseForm_next {n : BitVec 16} {m : Nat} {dst : Option Fnid} (hpending : s.board.pendRel.find? (fun x => x.1 = n.toNat) = some (m, dst))
    (hcell : s.net.relCells.lk 0 (n.toNat / 16384) < 64) (hcredit : s.creditFor (s.form (relHdr n.toNat dst s)) = true) :
    execReleaseForm n s = .next (s.after (releaseFormEffect n dst)) := by
  simp only [execReleaseForm, hpending]
  exact actIf_true (by simp [hcell, hcredit])

/-- A REWIND ends when the Brew's cores are free and its partitions hold nothing (R337). -/
theorem execRewindDone_next {k : SlotId} {b : Brew} (hbrew : s.brews.lk none k.val = some b) (hbusy : s.bit F.SCHED_REWIND_BUSY k = true)
    (hcores : s.freeCores b = b.cores) (hparts : s.partsFree b = true) :
    execRewindDone k s = .next (s.after (rewindDoneEffect k b)) := by
  simp only [execRewindDone, hbrew]
  exact actIf_true (by simp [hbusy, hcores, hparts])

/-- An unload that has begun ends when the Brew's cores are free (R383). -/
theorem execUnloadDone_next {u : UnloadRun} {b : Brew} (hunload : s.board.unload = some u) (hbrew : s.brews.lk none u.slot = some b)
    (hbegun : u.begun = true) (hcores : s.freeCores b = b.cores) : execUnloadDone s = .next (s.after (unloadDoneEffect u b)) := by
  simp only [execUnloadDone, hunload, hbrew]
  exact actIf_true (by simp [hbegun, hcores])

/-- A recheck that runs ends (R322). -/
theorem execAuditRecheckDone_next {b : Brew} (hbrew : s.brews.lk none s.board.recheck = some b) (hbusy : s.bit F.AUDIT_RECHK_BUSY 0 = true) :
    execAuditRecheckDone s = .next (s.after (auditRecheckDoneEffect s.board.recheck b)) := by
  simp only [execAuditRecheckDone, hbrew]
  exact actIf_true hbusy

end

-- The end of a commit (R382, R390) ----------------------------------------------------------------------------------------------------------

/-- The record bytes that a commit at byte offset off reads: as many as the record's length says. -/
def State.recBytes (s : State) (off : Nat) : List Byte := s.hbmFetch off (bitsOf (leAt (s.hbmFetch off 256) 16 8) 32 32)

/-- What a commit that waits for no port does with record bytes bs of Brew b: the checks in the order of R382, then admission or the way out of keepalive. -/
def commitChecked (r : CommitRun) (bs : List Byte) (b : Brew) (s : State) : State :=
  if !s.recSound r.off then commitEnd r 1 s
  else if !s.recInRange b then commitEnd r 2 s
  else if s.brewList.any (fun x => x.2.clashes b) then commitEnd r 3 s
  else
    let p := s.pwd b (recSeeds bs b.nseed)
    let q := { r with rcd := bs, pwd := p.2 ++ p.1 }
    match s.kaPorts b with
    | [] => commitAdmit q b none s
    | ps => { eachDo ps kaLeave s with board := { s.board with commit := some { q with ports := ps } } }

section
variable {s : State} {r : CommitRun} {bs : List Byte} {b : Brew}

/-- The checks are what COMMIT_COMPLETE does where the commit waits for no port. -/
theorem execCommitComplete_checked (hcommit : s.board.commit = some r) (hports : r.ports = []) :
    execCommitComplete s = .next (s.after (commitChecked r (s.recBytes r.off) (recBrew r.off r.fnid (s.recBytes r.off)))) := by
  simp only [execCommitComplete, hcommit, hports, ne_eq, not_true_eq_false, if_false]
  exact act_after rfl

theorem commitChecked_unsound (hsound : s.recSound r.off = false) : commitChecked r bs b s = commitEnd r 1 s := by
  simp only [commitChecked, hsound, Bool.not_false, if_true]

theorem commitChecked_outOfRange (hsound : s.recSound r.off = true) (hrange : s.recInRange b = false) :
    commitChecked r bs b s = commitEnd r 2 s := by
  simp only [commitChecked, hsound, hrange, Bool.not_true, Bool.not_false, Bool.false_eq_true, if_false, if_true]

theorem commitChecked_clash (hsound : s.recSound r.off = true) (hrange : s.recInRange b = true)
    (hclash : s.brewList.any (fun x => x.2.clashes b) = true) : commitChecked r bs b s = commitEnd r 3 s := by
  simp only [commitChecked, hsound, hrange, hclash, Bool.not_true, Bool.false_eq_true, if_false, if_true]

/-- A record that passes the checks is admitted at once where none of its ports is in keepalive. -/
theorem commitChecked_admit (hsound : s.recSound r.off = true) (hrange : s.recInRange b = true)
    (hclash : s.brewList.any (fun x => x.2.clashes b) = false) (hports : s.kaPorts b = []) :
    commitChecked r bs b s =
      commitAdmit { r with rcd := bs, pwd := (s.pwd b (recSeeds bs b.nseed)).2 ++ (s.pwd b (recSeeds bs b.nseed)).1 } b none s := by
  simp only [commitChecked, hsound, hrange, hclash, hports, Bool.not_true, Bool.false_eq_true, if_false]

/-- A commit that named ports admits when they have left keepalive; where all of them are UP, none fails it (R390). -/
theorem execCommitComplete_ports (hcommit : s.board.commit = some r) (hports : r.ports ≠ []) (hleft : s.kaPorts (recBrew r.off r.fnid r.rcd) = [])
    (hup : ∀ j ∈ r.ports, s.lstate j = 5) : execCommitComplete s = .next (s.after (commitAdmit r (recBrew r.off r.fnid r.rcd) none)) := by
  have hdown : r.ports.filter (fun p => s.hushed.lstate p ≠ 5) = [] :=
    List.filter_eq_nil_iff.2 fun j hj => by simp [show s.hushed.lstate j = 5 from hup j hj]
  simp only [execCommitComplete, hcommit, ne_eq, hports, not_false_eq_true, if_true]
  refine actIf_after (decide_eq_true hleft) (congrArg (commitAdmit r _ · s.hushed) ?_)
  exact List.find?_eq_none.2 fun i _ => by simp only [hdown, List.any_nil, Bool.false_eq_true, not_false_eq_true]

end

end Sys2Proof.Machine

/-! The statement about grants and the ends of what runs for a Brew settled. -/
namespace Sys2Proof.CaddyEgress
open Sys2Proof Sys2Proof.Machine

/-- Settles O51: each row by its condition; a commit by the first of its checks that fails, or by admission. -/
theorem grantsAndBrewEvents : Obligations.GrantsAndBrewEvents := by
  unfold Obligations.GrantsAndBrewEvents
  refine ⟨fun s src tag e i n m dst b => ⟨rfl, execLogRoomGrant_next, fun hdue => actIf_true hdue, execReplayLogExpiry_next, execReleaseForm_next,
      fun hdraining => actIf_true (decide_eq_true hdraining)⟩,
    fun s k b r u => ⟨execRewindDone_next, fun hcommit => ?commit, execUnloadDone_next, execAuditRecheckDone_next⟩⟩
  case commit =>
    have hchecked {g : State → State} (hports : r.ports = [])
        (heff : commitChecked r (s.recBytes r.off) (recBrew r.off r.fnid (s.recBytes r.off)) s.hushed = g s.hushed) :
        exec .commitComplete s = .next (s.after g) :=
      (execCommitComplete_checked hcommit hports).trans (by rw [State.after, heff, State.after])
    exact ⟨fun hports hsound => hchecked hports (commitChecked_unsound hsound),
      fun hports hsound hrange => hchecked hports (commitChecked_outOfRange hsound hrange),
      fun hports hsound hrange hclash => hchecked hports (commitChecked_clash hsound hrange hclash),
      fun hports hsound hrange hclash hka => hchecked hports (commitChecked_admit hsound hrange hclash hka),
      execCommitComplete_ports hcommit⟩

end Sys2Proof.CaddyEgress

/-! The memories of the address map (R277, R279): what a write to them changes, and what is read back. -/
namespace Sys2Proof.Machine
open Sys2Proof

-- Places --------------------------------------------------------------------------------------------------------

theorem placeOf_of_lt {a : Nat} (h : a < hbmSize) : placeOf a = .hbm a := if_pos h

/-- HBM ends where the reserved offsets begin (Table 10.1). -/
theorem placeOf_hbmSize : placeOf hbmSize = .reserved := by decide

/-- HBM alone lies at its own offsets. -/
theorem placeOf_eq_hbm {a o : Nat} (h : placeOf a = .hbm o) : o = a := by
  unfold placeOf at h
  dsimp only at h
  split at h
  · injection h with h
    exact h.symm
  · repeat' split at h
    all_goals nomatch h

-- A write changes one memory ------------------------------------------------------------------------------------

/-- What becomes good again is all that hbmHeal changes. -/
theorem hbmHeal_eq (o n : Nat) (s : State) : hbmHeal o n s = { s with hbmUe := (hbmHeal o n s).hbmUe } :=
  eachDo_rel (R := fun s t => t = { s with hbmUe := t.hbmUe }) (fun _ => rfl) (fun _ _ _ h1 h2 => by rw [h1] at h2; exact h2) (fun _ _ => rfl) _ s

section
variable {a o : Nat} {bs : List Byte} {s : State}

/-- A write to HBM changes its bytes, what ECC words are bad, and what the expert units know of router weights (R145); nothing else. -/
theorem memWr_hbm (hplace : placeOf a = .hbm o) :
    memWr a bs s = { s with hbm := Mem.wr s.hbm 0 a bs, hbmUe := (memWr a bs s).hbmUe, exp := (memWr a bs s).exp } := by
  obtain rfl := placeOf_eq_hbm hplace
  simp only [memWr, hplace]
  rw [hbmHeal_eq]
  rfl

theorem memWr_rod {c : Nat} (hplace : placeOf a = .rod c o) :
    memWr a bs s = s.modCore c (fun k => { k with rmem := Mem.wr k.rmem 0 o bs }) := by
  simp only [memWr, hplace]

theorem memWr_imem {c : Nat} (hplace : placeOf a = .imem c o) :
    memWr a bs s = s.modCore c (fun k => { k with imem := Mem.wr k.imem 0 o bs }) := by
  simp only [memWr, hplace]

/-- A write anywhere else changes nothing. -/
theorem memWr_elsewhere (hhbm : ∀ o, placeOf a ≠ .hbm o) (hrod : ∀ c o, placeOf a ≠ .rod c o) (himem : ∀ c o, placeOf a ≠ .imem c o) :
    memWr a bs s = s := by
  unfold memWr
  split
  · exact absurd ‹_› (hhbm _)
  · exact absurd ‹_› (hrod _ _)
  · exact absurd ‹_› (himem _ _)
  · rfl

end

-- The canonical form --------------------------------------------------------------------------------------------

section
variable {s : State} {c : Nat} {g : Core → Core}

theorem tablesOk_modCore (h : s.TablesOk) : (s.modCore c g).TablesOk := by
  obtain ⟨hregs, hcores⟩ := h
  exact ⟨hregs, s.rising_setCore c _ hcores⟩

/-- Work on a core that keeps the form of its memories keeps that of all memories. -/
theorem memOk_modCore (htables : s.TablesOk) (hmem : s.MemOk)
    (hcore : Memory.wf 0 (g (s.core c)).rmem = true ∧ Memory.wf 0 (g (s.core c)).imem = true) : (s.modCore c g).MemOk := by
  obtain ⟨-, hrising⟩ := htables
  obtain ⟨hhbm, hflash, hcores⟩ := hmem
  refine ⟨hhbm, hflash, fun d => ?_⟩
  by_cases hd : d = c
  · subst hd
    rwa [State.modCore, s.core_setCore_self _ _ hrising]
  · rw [State.modCore, s.core_setCore_other _ _ _ hd]
    exact hcores d

end

-- Reads after a write -------------------------------------------------------------------------------------------

theorem State.memByte_congr {s t : State} (hhbm : t.hbm = s.hbm) (hcores : t.cores = s.cores) (a : Nat) : t.memByte a = s.memByte a := by
  unfold State.memByte State.core
  rw [hhbm, hcores]

theorem State.memRd_congr {s t : State} (hhbm : t.hbm = s.hbm) (hcores : t.cores = s.cores) (a n : Nat) : t.memRd a n = s.memRd a n :=
  List.map_congr_left fun _ _ => State.memByte_congr hhbm hcores _

theorem State.memByte_of_lt (s : State) {a : Nat} (h : a < hbmSize) : s.memByte a = s.hbm.lk 0 a := by
  simp only [State.memByte, placeOf_of_lt h]

section
variable {a : Nat} {bs : List Byte} {s : State}

/-- Bytes written within HBM are read back. -/
theorem memRd_memWr (hwf : Memory.wf 0 s.hbm = true) (hin : a + bs.length ≤ hbmSize) : (memWr a bs s).memRd a bs.length = bs := by
  refine List.ext_getElem (by simp [State.memRd]) fun i _ hi => ?_
  have hai : a + i < hbmSize := by omega
  have hplace : placeOf a = .hbm a := placeOf_of_lt (by omega)
  simp only [State.memRd, List.getElem_map, List.getElem_range]
  rw [State.memByte_of_lt _ hai, memWr_hbm hplace]
  exact Mem.lk_wr_self s.hbm 0 a bs i hwf hi

/-- A byte outside what is written within HBM reads as before. -/
theorem memByte_memWr_other (hin : a + bs.length ≤ hbmSize) {b : Nat} (hout : b < a ∨ a + bs.length ≤ b) :
    (memWr a bs s).memByte b = s.memByte b := by
  by_cases ha : a < hbmSize
  · rw [memWr_hbm (placeOf_of_lt ha)]
    unfold State.memByte
    split
    · next o hb =>
      obtain rfl := placeOf_eq_hbm hb
      exact Mem.lk_wr_other s.hbm 0 a bs o hout
    all_goals rfl
  · obtain rfl : a = hbmSize := by omega
    rw [memWr_elsewhere] <;> simp [placeOf_hbmSize]

end

end Sys2Proof.Machine

/-! Requests on HBM (R279, R282, R283, R292): foreign accesses, stores that an ACK will name, and atomics. -/
namespace Sys2Proof.Machine
open Sys2Proof

-- Accesses ------------------------------------------------------------------------------------------------------

theorem recOnly_countForeign (i : Nat) (src : Fnid) (s : State) : s.RecOnly (countForeign i src s) := by
  unfold countForeign
  dsimp only
  split
  · exact recOnly_bump ..
  · exact recOnly_trans (recOnly_bump ..) (recOnly_trans (recOnly_setFld ..) (recOnly_trans (recOnly_setFld ..) (recOnly_addRec ..)))

/-- An access is counted at most (R292). -/
theorem recOnly_hbmAccess (src : Fnid) (write : Bool) (o n : Nat) (s : State) : s.RecOnly (hbmAccess src write o n s).2 := by
  unfold hbmAccess
  split
  · exact recOnly_refl s
  · split
    · exact recOnly_countForeign ..
    · exact recOnly_refl s

/-- Bytes at an offset within HBM are written: they read back, every other byte of the address map's memories reads as before, and the cores, the Brews, the
Counting board with its replay log, and the frames stored are as they were. -/
structure State.WroteHbm (s t : State) (a : Nat) (bs : List Byte) : Prop where
  readBack : t.memRd a bs.length = bs
  others : ∀ b : Nat, (b < a ∨ a + bs.length ≤ b) → t.memByte b = s.memByte b
  cores : t.cores = s.cores
  brews : t.brews = s.brews
  board : t.board = s.board
  net : t.net = s.net

/-- What has been counted before a write is none of that. -/
theorem wroteHbm_memWr {s t : State} {a o : Nat} {bs : List Byte} (hcounted : s.RecOnly t) (hwf : Memory.wf 0 s.hbm = true)
    (hplace : placeOf a = .hbm o) (hin : a + bs.length ≤ hbmSize) : s.WroteHbm (memWr a bs t) a bs := by
  obtain ⟨hcores, hbrews, -, hhbm, -, -, hboard, -⟩ := workKept_iff.2 (work_of_recOnly hcounted)
  have hnet : t.net = s.net := by rw [hcounted]
  constructor
  case readBack => exact memRd_memWr (hhbm ▸ hwf) hin
  case others => exact fun b hout => (memByte_memWr_other hin hout).trans (State.memByte_congr hhbm hcores b)
  all_goals rw [memWr_hbm hplace]; assumption

theorem statusWord_mod (st : Nat) (foreign hit : Bool) : statusWord st foreign hit % 256 = st % 256 := by
  cases foreign <;> cases hit <;> simp only [statusWord, Bool.false_eq_true, if_true, if_false] <;> omega

-- Atomics (R283) ------------------------------------------------------------------------------------------------

/-- An atomic on HBM that meets no memory error. -/
theorem atomicApply_hbm {f : Frame} {new : Nat → Nat → Nat} {o : Nat} {s : State} (hplace : placeOf f.offset = .hbm o)
    (hue : s.hbmUeIn o (atomicWidth f.opc) = false) :
    atomicApply f new s =
      ((statusWord 0 (hbmAccess f.src true o (atomicWidth f.opc) s).1 false, s.memRd f.offset (atomicWidth f.opc)),
        memWr f.offset (bytesLE (atomicWidth f.opc) (new (natLE (s.memRd f.offset (atomicWidth f.opc))) (natLE f.operand)))
          (hbmAccess f.src true o (atomicWidth f.opc) s).2) := by
  simp only [atomicApply, hplace, hue, Bool.false_eq_true, if_false]

-- Frames that are discarded -------------------------------------------------------------------------------------

theorem work_partFree (i : Nat) (held : List Nat) (s : State) : (partFree i held s).work = s.work := by
  unfold partFree
  split
  · rfl
  · exact work_ite rfl rfl

theorem work_uncharge (c : Charge) (s : State) : (uncharge c s).work = s.work := by
  induction c generalizing s with
  | none => rfl
  | slot r held => rfl
  | part i held => exact work_partFree i held s
  | pool d held => rfl
  | cross a b v n => rfl
  | release d => rfl
  | both a b iha ihb => exact (ihb _).trans (iha s)

theorem work_setBuf (i : Nat) (b : Option Buf) (s : State) : (s.setBuf i b).work = s.work := rfl

theorem work_recharge (i : Nat) (c : Charge) (s : State) : (recharge i c s).work = s.work := by
  unfold recharge
  split
  · rfl
  · next b _ =>
    have hset : ((uncharge b.charge s).setBuf i (some { b with charge := c, owe := none })).work = s.work :=
      (work_setBuf ..).trans (work_uncharge ..)
    dsimp only
    split
    · exact hset
    · exact (work_repay ..).trans hset

theorem work_unrefOne (i n : Nat) (s : State) : (unrefOne i n s).work = s.work := by
  unfold unrefOne
  split
  · exact work_ite rfl (work_of_recOnly (recOnly_trans (recOnly_bump ..) (recOnly_raiseFault ..)))
  · exact work_ite rfl ((work_setBuf ..).trans (work_recharge ..))

/-- To discard a frame is no work: cells and credit alone. -/
theorem work_discard (i : Nat) (s : State) : (discard i s).work = s.work := by
  unfold discard unref
  split
  · exact work_unrefOne ..
  · dsimp only
    split
    · exact work_ite (work_unrefOne ..) ((work_unrefOne ..).trans (work_unrefOne ..))
    · exact work_unrefOne ..

-- Stores that an ACK will name (R258, R282) ---------------------------------------------------------------------

/-- The cell in which the ACK that names a stored STORE will lie: one that the core reserved, or one of the store's. -/
def ackCell (b : Buf) : Charge :=
  match b.inPort, b.charge with
  | none, _ => reservedCells b.die
  | some _, .slot r held => .slot r (heldOne held)
  | some _, .cross x y v _ => .cross x y v 1
  | some _, _ => .none

theorem ackCell_slot {b : Buf} {p r : Nat} {held : List Nat} (hport : b.inPort = some p) (hcharge : b.charge = .slot r held) :
    ackCell b = .slot r (heldOne held) := by
  simp only [ackCell, hport, hcharge]

theorem ackCell_cross {b : Buf} {p x y v n : Nat} (hport : b.inPort = some p) (hcharge : b.charge = .cross x y v n) :
    ackCell b = .cross x y v 1 := by
  simp only [ackCell, hport, hcharge]

/-- A store that is consumed leaves the work of the device, but for the ACK that is due. -/
theorem work_ackStore {i st : Nat} {s : State} {b : Buf} (hbuf : s.buf i = some b) :
    (ackStore i st s).work =
      ({ s with board := { s.board with dones := s.board.dones ++ [⟨b.frame.src, b.frame.dst, b.frame.seq, st, b.die, ackCell b⟩] } } : State).work := by
  simp only [ackStore, hbuf]
  rw [work_discard]
  unfold ackCell
  cases b.inPort with
  | none => rfl
  | some p => cases b.charge <;> rfl

/-- A STORE to HBM that meets no memory error. -/
theorem storeUse_hbm {i : Nat} {f : Frame} {o : Nat} {s : State} (hplace : placeOf f.offset = .hbm o) (hgone : s.hbmGone o = false)
    (hue : s.storeUe o f.len = false) :
    storeUse i f s = some (ackStore i 0 (memWr f.offset f.operand (hbmAccess f.src true o f.len s).2)) := by
  simp only [storeUse, hplace, hgone, hue, Bool.false_eq_true, if_false]

end Sys2Proof.Machine

/-! The replay log (Table 10.11) and the release test (R299). -/
namespace Sys2Proof.Machine
open Sys2Proof

section
variable {s : State} {f : Frame} {e : LogEnt}

theorem State.logCase_new (hnew : s.logOf f.src f.tag = none) : s.logCase f = .apply := by
  simp only [State.logCase, hnew]

/-- Row 1: a repeated request under a LIVE entry. -/
theorem State.logCase_hit {w : Nat} {d : List Byte} (hlog : s.logOf f.src f.tag = some e) (hop : e.op = f.op % 2 ^ 15) (hoff : e.off = f.offset)
    (hoperand : e.operand = f.operand) (hlive : e.reply = some (w, d)) : s.logCase f = .hit w d := by
  simp only [State.logCase, hlog, hlive, hop, hoff, hoperand, decide_true, Bool.and_self, if_true]

/-- Row 4: a retry under a SPENT entry. -/
theorem State.logCase_stale (hlog : s.logOf f.src f.tag = some e) (hop : e.op = f.op % 2 ^ 15) (hoff : e.off = f.offset)
    (hoperand : e.operand = f.operand) (hspent : e.reply = none) (hretry : 2 ^ 15 ≤ f.op) : s.logCase f = .stale := by
  simp only [State.logCase, hlog, hspent, hop, hoff, hoperand, hretry, decide_true, Bool.and_self, if_true]

variable {i : Nat} {deny : Option (State → Option State)} {apply : State → (Nat × List Byte) × State}

theorem loggedUse_of_hit {w : Nat} {d : List Byte} (hcase : s.logCase f = .hit w d) :
    loggedUse i f deny apply s = reply i (w % 256 + 256 + bitsOf w 9 1 * 512) d (s.bump F.MEMREG_TALLY_RETRYHIT 0) := by
  simp only [loggedUse, hcase]

theorem loggedUse_of_stale (hcase : s.logCase f = .stale) : loggedUse i f deny apply s = reply i 1 [] (s.bump F.MEMREG_TALLY_STALE 0) := by
  simp only [loggedUse, hcase]

theorem loggedUse_of_apply (hcase : s.logCase f = .apply) (hroom : s.logFull = false) :
    loggedUse i f none apply s = reply i (apply s).1.1 (apply s).1.2
      (logPut ⟨f.src, f.tag, f.op % 2 ^ 15, f.offset, f.operand, some (apply s).1⟩ (apply s).2) := by
  simp only [loggedUse, hcase, hroom, Bool.false_eq_true, if_false]

/-- A request that would be applied waits for room in the log (R294). -/
theorem loggedUse_of_full (hcase : s.logCase f = .apply) (hfull : s.logFull = true) : loggedUse i f none apply s = none := by
  simp only [loggedUse, hcase, hfull, if_true]

end

section
variable {s : State} {n : Nat} {src : Fnid}

/-- An object whose test holds releases. -/
theorem releaseTest_of_holds (htarget : (s.obj n).target ≠ 0) (hcount : (s.obj n).target ≤ (s.obj n).count)
    (hmode : (s.obj n).auto = true ∨ (s.obj n).released = false) :
    releaseTest n src s = makePending n none (answerWaits n ((s.setObj n
      { s.obj n with
        gen := min ((s.obj n).gen + 1) (2 ^ 64 - 1)
        lastSrc := src
        count := if (s.obj n).auto then (s.obj n).count - (s.obj n).target else (s.obj n).count
        word2 := if (s.obj n).auto then (s.obj n).word2 else (s.obj n).word2 ||| 2 ^ 18 }).bump F.CBOARD_TALLY_RELEASES 0)) := by
  have htest : ((s.obj n).target ≠ 0 && decide ((s.obj n).target ≤ (s.obj n).count) && ((s.obj n).auto || !(s.obj n).released)) = true := by
    simpa [htarget, hcount] using hmode
  unfold releaseTest
  dsimp only
  rw [if_pos htest]
  split
  · next hauto => simp only [show (s.obj n).auto = true from hauto, if_true]
  · next hauto =>
    have hauto : (s.obj n).auto = false := Bool.eq_false_iff.2 hauto
    simp only [hauto, Bool.false_eq_true, if_false]
    rfl

/-- An object whose test fails stays as it is. -/
theorem releaseTest_of_fails (h : (s.obj n).target = 0 ∨ (s.obj n).count < (s.obj n).target ∨ ((s.obj n).auto = false ∧ (s.obj n).released = true)) :
    releaseTest n src s = s := by
  refine if_neg ?_
  rcases h with h | h | ⟨hauto, hreleased⟩
  · simp [h]
  · simp [Nat.not_le.2 h]
  · simp [hauto, hreleased]

end

end Sys2Proof.Machine

/-! Fabric memory and the Counting board: the statements of chapter 10 settled. -/
namespace Sys2Proof.FabricMemory
open Sys2Proof Sys2Proof.Machine

/-- Settles O8: by what lies at the offset; a core's memories are written through the table of cores, whose order lets the core read back. -/
theorem memoryWriteKeepsForm : Obligations.MemoryWriteKeepsForm := by
  unfold Obligations.MemoryWriteKeepsForm
  intro s a bs htables hmem
  have ⟨hhbm, hflash, hcores⟩ := hmem
  cases hplace : placeOf a with
  | hbm o =>
    rw [memWr_hbm hplace]
    exact ⟨⟨Mem.wf_wr s.hbm 0 a bs hhbm, hflash, hcores⟩, htables⟩
  | rod c o =>
    rw [memWr_rod hplace]
    obtain ⟨hrmem, himem⟩ := hcores c
    exact ⟨memOk_modCore htables hmem ⟨Mem.wf_wr _ 0 o bs hrmem, himem⟩, tablesOk_modCore htables⟩
  | imem c o =>
    rw [memWr_imem hplace]
    obtain ⟨hrmem, himem⟩ := hcores c
    exact ⟨memOk_modCore htables hmem ⟨hrmem, Mem.wf_wr _ 0 o bs himem⟩, tablesOk_modCore htables⟩
  | board | region | control | reserved =>
    rw [memWr_elsewhere (by simp [hplace]) (by simp [hplace]) (by simp [hplace])]
    exact ⟨hmem, htables⟩

/-- Settles O9: byte by byte, from what a write to a table in order reads as. -/
theorem hbmReadAfterWrite : Obligations.HbmReadAfterWrite := by
  unfold Obligations.HbmReadAfterWrite
  rintro s a bs ⟨hwf, -⟩ hin
  exact ⟨memRd_memWr hwf hin, fun b => memByte_memWr_other hin⟩

/-- Settles O36: an atomic is a count of its access, which changes registers and records alone, and then one write. -/
theorem atomicOnHbm : Obligations.AtomicOnHbm := by
  unfold Obligations.AtomicOnHbm
  rintro s f new o ⟨hwf, -⟩ hplace hin hue w r
  obtain rfl := placeOf_eq_hbm hplace
  have hlen (v : Nat) : (bytesLE w v).length = w := length_bytesLE w v
  have hr : r = _ := atomicApply_hbm hplace hue
  have hwrote : s.WroteHbm r.2 f.offset (bytesLE w (new (natLE (s.memRd f.offset w)) (natLE f.operand))) :=
    hr ▸ wroteHbm_memWr (recOnly_hbmAccess ..) hwf hplace (by rwa [hlen])
  obtain ⟨hback, hothers, hcores, -, hboard, -⟩ := hwrote
  rw [hlen] at hback hothers
  exact ⟨by rw [hr], by rw [hr]; exact statusWord_mod .., hback, hothers, hcores, hboard⟩

/-- Settles O37: the write, and then the frame discarded with an ACK left to send, each leave alone what the other changes. -/
theorem storeToHbm : Obligations.StoreToHbm := by
  unfold Obligations.StoreToHbm
  rintro s i f b o ⟨hwf, -⟩ hplace hlen hin hgone hue hbuf
  obtain rfl := placeOf_eq_hbm hplace
  generalize ht : memWr f.offset f.operand (hbmAccess f.src true f.offset f.len s).2 = t
  have hwrote : s.WroteHbm t f.offset f.operand := ht ▸ wroteHbm_memWr (recOnly_hbmAccess ..) hwf hplace (by rwa [hlen])
  obtain ⟨hback, hothers, -, hbrews, hboard, hnet⟩ := hwrote
  rw [hlen] at hback hothers
  have hstored : t.buf i = some b := by rw [State.buf, hnet]; exact hbuf
  obtain ⟨hackCores, hackBrews, -, hackHbm, -, -, hackBoard, -⟩ := workKept_iff.2 (work_ackStore (st := 0) hstored)
  refine ⟨ackStore i 0 t, ht ▸ storeUse_hbm hplace hgone hue, ?readBack, fun a ha => ?others, ⟨ackCell b, ?named, fun p hport => ?cell⟩,
    hackBrews.trans hbrews⟩
  case readBack => exact (State.memRd_congr hackHbm hackCores ..).trans hback
  case others => exact (State.memByte_congr hackHbm hackCores a).trans (hothers a ha)
  case named => rw [hackBoard, hboard]
  case cell => exact ⟨fun r held hcharge => ackCell_slot hport hcharge, fun x y vc n hcharge => ackCell_cross hport hcharge⟩

/-- Settles O38: each row of Table 10.11 by what the log holds under the request's key. -/
theorem appliedOnce : Obligations.AppliedOnce := by
  unfold Obligations.AppliedOnce
  intro s i f e deny apply
  refine ⟨fun hlog hop hoff hoperand => ⟨fun w d hlive => ?hit, fun hspent hretry => ?stale⟩, fun hnew hroom => ?new, fun hnew hfull => ?full⟩
  case hit => exact loggedUse_of_hit (State.logCase_hit hlog hop hoff hoperand hlive)
  case stale => exact loggedUse_of_stale (State.logCase_stale hlog hop hoff hoperand hspent hretry)
  case new => exact loggedUse_of_apply (State.logCase_new hnew) hroom
  case full => exact loggedUse_of_full (State.logCase_new hnew) hfull

/-- Settles O39: both sides of the test. -/
theorem releaseRule : Obligations.ReleaseRule := by
  unfold Obligations.ReleaseRule
  rintro s n src o rfl
  exact ⟨releaseTest_of_holds, releaseTest_of_fails⟩

end Sys2Proof.FabricMemory

/-! The epoch of a frame in serial arithmetic (R329), an acknowledged keepalive request (R390, R407), and the events whose condition has several parts
(R325, R342, R390, R398, R399, R408, R414). -/
namespace Sys2Proof.Machine
open Sys2Proof

-- The epoch check (R329) --------------------------------------------------------------------------------------------------------------------

theorem epochAhead_iff {e a : Nat} : epochAhead e a = true ↔ 1 ≤ (e + 65536 - a) % 65536 ∧ (e + 65536 - a) % 65536 ≤ 32767 := by
  simp only [epochAhead, Bool.and_eq_true, decide_eq_true_eq]

/-- The accepted epoch is not ahead of itself. -/
theorem epochAhead_self (a : Nat) : epochAhead a a = false := by
  simp [epochAhead]

/-- Of two epochs of 16 bits that differ, the one that is not ahead of the other is 1 to 32,768 behind it, and the other way round. -/
theorem behind_iff_not_epochAhead {e a : Nat} (he : e < 2 ^ 16) (ha : a < 2 ^ 16) :
    (1 ≤ (a + 65536 - e) % 65536 ∧ (a + 65536 - e) % 65536 ≤ 32768) ↔ e ≠ a ∧ epochAhead e a = false := by
  rw [Bool.eq_false_iff, ne_eq (epochAhead e a), epochAhead_iff]
  omega

section
variable {s : State} {f : Frame}

theorem State.epochFail_of_checked (hchecked : epochExempt f = false) :
    s.epochFail f = if f.mepoch = s.fld F.GLOBAL_MEPOCH_MEPOCH 0 then none
      else if epochAhead f.mepoch (s.fld F.GLOBAL_MEPOCH_MEPOCH 0) then some F.GLOBAL_MEPOCH_AHEAD else some F.GLOBAL_MEPOCH_OLD := by
  simp only [State.epochFail, hchecked, Bool.false_or, decide_eq_true_eq]

theorem State.epochFail_eq_none_iff (hchecked : epochExempt f = false) :
    s.epochFail f = none ↔ f.mepoch = s.fld F.GLOBAL_MEPOCH_MEPOCH 0 := by
  rw [State.epochFail_of_checked hchecked]
  split
  · next heq => exact iff_of_true rfl heq
  · next hne => split <;> exact iff_of_false nofun hne

theorem State.epochFail_eq_ahead_iff (hchecked : epochExempt f = false) :
    s.epochFail f = some F.GLOBAL_MEPOCH_AHEAD ↔ epochAhead f.mepoch (s.fld F.GLOBAL_MEPOCH_MEPOCH 0) = true := by
  rw [State.epochFail_of_checked hchecked]
  split
  · next heq => exact iff_of_false nofun (by rw [heq, epochAhead_self]; nofun)
  · split
    · next hahead => exact iff_of_true rfl hahead
    · next hbehind => exact iff_of_false (by decide) hbehind

theorem State.epochFail_eq_old_iff (hchecked : epochExempt f = false) :
    s.epochFail f = some F.GLOBAL_MEPOCH_OLD ↔
      f.mepoch ≠ s.fld F.GLOBAL_MEPOCH_MEPOCH 0 ∧ epochAhead f.mepoch (s.fld F.GLOBAL_MEPOCH_MEPOCH 0) = false := by
  rw [State.epochFail_of_checked hchecked]
  split
  · next heq => exact iff_of_false nofun fun h => h.1 heq
  · next hne =>
    split
    · next hahead => exact iff_of_false (by decide) fun h => by rw [hahead] at h; exact nomatch h.2
    · next hbehind => exact iff_of_true rfl ⟨hne, Bool.eq_false_iff.2 hbehind⟩

end

-- Keepalive (R390, R407) --------------------------------------------------------------------------------------------------------------------

/-- A KA_ACK is taken where the port's own request is pending: one whose lanes are reversed drops the request. -/
theorem kaAcked_eq (p : Nat) (f : Frame) (s : State) :
    kaAcked p f s =
      if (s.port p).ka = .asked then
        (if s.reversed p then s.modPort p (fun x => { x with ka := .none })
        else if (kaEnter p s).kaRecall p then kaLeave p (kaEnter p s) else kaEnter p s)
      else s := by
  unfold kaAcked
  by_cases hasked : (s.port p).ka = .asked
  · simp only [hasked, decide_true, Bool.true_and, if_true]
  · simp only [hasked, decide_false, Bool.false_and, Bool.false_eq_true, if_false]

-- Events of a port --------------------------------------------------------------------------------------------------------------------------

section
variable {s : State} {p : PortId}

/-- The pause after a failed training ends (R388). -/
theorem execTrainingRestart_next (hpresent : (s.port p).present = true) (htraining : s.lstate p = 2) (hrest : (s.port p).rest = true) :
    execTrainingRestart p s = .next (s.after (trainingRestartEffect p)) := actIf_true (by simp [hpresent, htraining, hrest])

/-- A port passes probation in a tick in which nothing bad fell (R325, R345). -/
theorem execProbationPass_next (hpresent : (s.port p).present = true) (hprobation : s.lstate p = 3) (hclean : (s.port p).probBad ≠ s.now + 1) :
    execProbationPass p s = .next (s.after (passProbation p)) := actIf_true (by simp [hpresent, hprobation, hclean])

/-- A codeword is corrected on lanes that carry the port (R408). -/
theorem execCorrectedCodeword_next {syms : List (LaneId × Nat)} (hlinked : s.linked p = true) (hlive : ∀ x ∈ syms, s.laneLive p x.1 = true) :
    execCorrectedCodeword p syms s = .next (s.after (correctedCodewordEffect p syms)) :=
  actIf_true (Bool.and_eq_true_iff.2 ⟨hlinked, List.all_eq_true.2 hlive⟩)

/-- A port that may enter keepalive, has not asked, and has been idle for IDLEMS asks (R390). -/
theorem execKaIdleTimeout_next (hready : s.kaReady p = true) (hka : (s.port p).ka = .none)
    (hidle : (s.port p).lastData + ms (s.fld F.PORT_KA_IDLEMS p) ≤ s.now) :
    execKaIdleTimeout p s = .next (s.after (kaIdleTimeoutEffect p)) := actIf_true (by simp [hready, hka, hidle])

/-- The RETURN of a port has run out of time (R339). -/
theorem execUnitReturnTimeout_next {n : Nat} (hreturning : s.portList.find? (fun q => (s.port q).returning) = some n) :
    execUnitReturnTimeout s = .next (s.after (unitReturnTimeoutEffect n)) := by
  simp only [execUnitReturnTimeout, hreturning]
  rfl

end

-- Rails and temperatures --------------------------------------------------------------------------------------------------------------------

section
variable {s : State}

theorem State.kettleOn_of_phase (hphase : s.kettle.phase ≠ .off) : s.kettleOn = true := decide_eq_true hphase

/-- VDD_CORE falls below the warning level (R342). -/
theorem execHoldEnter_next {mv : Nat} (hrails : s.railsOn = true) (hhold : s.bit F.GLOBAL_HOLD_INHOLD 0 = false) (hmv : mv < 700) :
    execHoldEnter mv s = .next (s.after (holdEnterEffect mv)) := actIf_true (by simp [hrails, hhold, hmv])

/-- VDD_CORE falls below the reset level (R399). -/
theorem execBrownoutReset_next {mv : Nat} (hon : s.kettleOn = true) (hpwrok : s.kettle.pwrok = true) (hmv : mv < 630) :
    execBrownoutReset mv s = .next (s.afterAll (brownoutResetEffect mv)) := actAllIf_true (by simp [hon, hpwrok, hmv])

/-- A die sensor reaches its trip temperature (R414). -/
theorem execThermalTrip_next {die : Fin 24} {t : BitVec 16} (hon : s.kettleOn = true) (htrip : s.kettle.trip = false)
    (htemp : tripTemp die ≤ t.toInt) : execThermalTrip die t s = .next (s.after thermalTripEffect) := actIf_true (by simp [hon, htrip, htemp])

/-- Every die sensor shows below 95 °C (R414). -/
theorem execThermtripRelease_next (hhot : s.kettle.phase = .hot) (hcool : ∀ d : Nat, d < 24 → s.dieTemp d < 760) :
    execThermtripRelease s = .next (s.after thermtripReleaseEffect) := actIf_true (by simpa [hhot] using hcool)

end

end Sys2Proof.Machine

/-! Faults and membership: the statements of chapter 12 settled. -/
namespace Sys2Proof.FaultsMembership
open Sys2Proof Sys2Proof.Machine

/-- Settles O34: the three ranges of serial arithmetic, for epochs of 16 bits. -/
theorem epochCheck : Obligations.EpochCheck := by
  unfold Obligations.EpochCheck
  intro s f hchecked a e
  exact ⟨State.epochFail_eq_none_iff hchecked, (State.epochFail_eq_ahead_iff hchecked).trans epochAhead_iff,
    (State.epochFail_eq_old_iff hchecked).trans (behind_iff_not_epochAhead (wbits_lt ..) (wbits_lt ..)).symm⟩

/-- Settles O40: each row is consumed by its unit, or has its effect on the frame that comes to it. -/
theorem linkAndForwardFrames : Obligations.LinkAndForwardFrames := by
  unfold Obligations.LinkAndForwardFrames
  refine ⟨consume_takes fun _ _ => rfl, ?kaAck, consume_takes fun _ _ => rfl, consume_takes fun _ _ => rfl, consume_takes fun _ _ => rfl,
    consume_takes fun _ _ => rfl, fun f s hoffered => actIf_true hoffered, fun p rx s hlinked hkind => actIf_true ?beat,
    fun f s hoffered => actIf_true hoffered, fun f s hoffered => actIf_true hoffered⟩
  case kaAck =>
    rw [← funext fun p => funext fun f => funext (kaAcked_eq p f)]
    exact consume_takes fun _ _ => rfl
  case beat => simp [hlinked, hkind]

/-- Settles O52: each event takes its effect under its own condition. -/
theorem linkEvents : Obligations.LinkEvents := by
  unfold Obligations.LinkEvents
  refine ⟨fun s p syms during a b => ⟨fun hlinked => actIf_true hlinked, fun hlinked => actIf_true hlinked, fun htrains => actIf_true htrains,
      fun htrains => actIf_true htrains, execTrainingRestart_next, execProbationPass_next, execCorrectedCodeword_next,
      fun hlinked => actIf_true hlinked, fun hdies hup => actIf_true ?d2d⟩,
    fun s p n => ⟨execKaIdleTimeout_next, fun hentering => actIf_true (decide_eq_true hentering), fun hentering => actIf_true (decide_eq_true hentering),
      fun hleaving => actIf_true (decide_eq_true hleaving), fun hleaving => actIf_true (decide_eq_true hleaving), execUnitReturnTimeout_next⟩⟩
  case d2d => simp [hdies, hup]

/-- Settles O53: each threshold by its row's condition, and each reset by its effect. -/
theorem holdAndResets : Obligations.HoldAndResets := by
  unfold Obligations.HoldAndResets
  intro s mv die t
  exact ⟨execHoldEnter_next, fun hhold => actIf_true hhold, execBrownoutReset_next, fun hbrownout => actIf_true (decide_eq_true hbrownout),
    fun hon hpwrok => actAllIf_true (Bool.and_eq_true_iff.2 ⟨hon, hpwrok⟩), rfl, fun hoff => actAllIf_true (decide_eq_true hoff),
    fun hphase => actAllIf_true (State.kettleOn_of_phase hphase),
    fun hphase hpwrok => actAllIf_true (Bool.and_eq_true_iff.2 ⟨State.kettleOn_of_phase hphase, hpwrok⟩),
    fun hphase => actAllIf_true (State.kettleOn_of_phase hphase),
    fun hphase => execThermalTrip_next (State.kettleOn_of_phase hphase), execThermtripRelease_next⟩

end Sys2Proof.FaultsMembership

/-! What a command can do (log entry 1): nothing, or an effect that leaves the queue, the clock and the fuses; only the resets and the boot events
do more. -/
namespace Sys2Proof.Machine
open Sys2Proof

/-- An answer in a state is an event's: the state as it was, or an effect that leaves the queue, the clock and the fuses. -/
def IsEvent (o : Host.Outcome State Fault Refusal) (s : State) : Prop := ∃ (b : Bool) (f : State → State), o = actIf b f s

theorem isEvent_actIf (b : Bool) (f : State → State) (s : State) : IsEvent (actIf b f s) s := ⟨b, f, rfl⟩

theorem isEvent_act (f : State → State) (s : State) : IsEvent (act f s) s := ⟨true, f, rfl⟩

theorem isEvent_next (s : State) : IsEvent (.next s) s := ⟨false, id, rfl⟩

/-- An event leaves the clock. -/
theorem IsEvent.clock {o : Host.Outcome State Fault Refusal} {s t : State} (h : IsEvent o s) (ht : o = .next t) : t.clock = s.clock := by
  obtain ⟨b, f, rfl⟩ := h
  rcases actIf_cases ht with rfl | ⟨-, rfl⟩ <;> rfl

-- The shared rows ---------------------------------------------------------------------------------------------------------------------------

section
variable (c : CoreId) (q opc : Nat) (chk : State → Cmd → Nat → Bool) (rep : Cmd → Nat → State → State) (s : State)

theorem isEvent_vqRun : IsEvent (vqRun c opc chk rep s) s := by
  unfold vqRun
  split
  · exact isEvent_actIf _ _ _
  · exact isEvent_next _

theorem isEvent_startCmd : IsEvent (startCmd c q opc chk s) s := by
  unfold startCmd
  split
  · exact isEvent_actIf _ _ _
  · exact isEvent_next _

theorem isEvent_finishCmd : IsEvent (finishCmd c q opc rep s) s := by
  unfold finishCmd
  split
  · exact isEvent_actIf _ _ _
  · exact isEvent_next _

theorem isEvent_nopCmd : IsEvent (nopCmd c q s) s := by
  unfold nopCmd
  split
  · exact isEvent_actIf _ _ _
  · exact isEvent_next _

theorem isEvent_requestRow (u : Requester) (rej : Cmd → State → Bool) : IsEvent (requestRow c opc u rej s) s := by
  unfold requestRow
  split
  · exact isEvent_actIf _ _ _
  · split
    · exact isEvent_next _
    · exact isEvent_act _ _

end

theorem isEvent_imageRow (mop : Nat) (m : CtlMsg) (op : List Byte → State → Nat × List Byte × State) (s : State) : IsEvent (imageRow mop m op s) s := by
  unfold imageRow
  split
  · exact isEvent_actIf _ _ _
  · exact isEvent_actIf _ _ _

-- Rows that look up more than one thing before they act -------------------------------------------------------------------------------------

theorem isEvent_pushStallEnd (c : CoreId) (s : State) : IsEvent (execPushStallEnd c s) s := by
  unfold execPushStallEnd
  dsimp only
  split
  · exact isEvent_actIf _ _ _
  · exact isEvent_next _

theorem isEvent_combineBlockDone (layer : BitVec 32) (step : Word) (owner : Fnid) (token : BitVec 32) (b : Nat) (s : State) :
    IsEvent (execCombineBlockDone layer step owner token b s) s := by
  unfold execCombineBlockDone
  split
  · exact isEvent_next _
  · split
    · exact isEvent_actIf _ _ _
    · exact isEvent_next _

theorem isEvent_commitComplete (s : State) : IsEvent (execCommitComplete s) s := by
  unfold execCommitComplete
  split
  · exact isEvent_next _
  · split
    · exact isEvent_actIf _ _ _
    · exact isEvent_act _ _

theorem isEvent_unloadDone (s : State) : IsEvent (execUnloadDone s) s := by
  unfold execUnloadDone
  split
  · exact isEvent_next _
  · split
    · exact isEvent_next _
    · exact isEvent_actIf _ _ _

theorem isEvent_shadowArbiterDone (i : Nat) (upset : Option (List Byte)) (s : State) : IsEvent (execShadowArbiterDone i upset s) s := by
  unfold execShadowArbiterDone
  split
  · exact isEvent_next _
  · split
    · exact isEvent_act _ _
    · exact isEvent_next _

theorem isEvent_uncorrectableEcc (e : EccSite) (s : State) : IsEvent (execUncorrectableEcc e s) s := by
  cases e with
  | contribution =>
    unfold execUncorrectableEcc
    dsimp only
    split
    · exact isEvent_next _
    · exact isEvent_actIf _ _ _
  | activation | output =>
    unfold execUncorrectableEcc
    dsimp only
    split
    · exact isEvent_next _
    · exact isEvent_act _ _
  | hbm => exact isEvent_actIf _ _ _
  | rodMem | instrMem | beadFile | sramCorrected | hbmCorrected => exact isEvent_act _ _

theorem isEvent_tallyBookWrite (ok : Bool) (s : State) : IsEvent (execTallyBookWrite ok s) s := by
  unfold execTallyBookWrite
  dsimp only
  split
  · exact isEvent_actIf _ _ _
  · exact isEvent_actIf _ _ _

-- Every row ---------------------------------------------------------------------------------------------------------------------------------

/-- The effects that may change more than an event's: power comes and goes, a device reset by a pin or a rail, and the boot. -/
inductive BootEffect : (State → State) → Prop
  | powerOn : BootEffect powerOnEffect
  | powerLoss : BootEffect kettlePowerLossEffect
  | pwrokFall : BootEffect sysPwrokFallEffect
  | rstAssert : BootEffect sysRstNAssertEffect
  | brownout (mv : Nat) : BootEffect (brownoutResetEffect mv)
  | undervoltage : BootEffect railReset
  | start (x : Straps) : BootEffect (bootStartEffect x)
  | verifyDone (a b : ImageContent) : BootEffect (imageVerifyDoneEffect a b)
  | ready (trained : List StackTrain) (ok : Bool) (c : ImageContent) : BootEffect (bootReadyEffect trained ok c)

/-- An answer in a state is a boot event's: the state as it was, or one of these effects, which leaves the queue. -/
def IsBootEvent (o : Host.Outcome State Fault Refusal) (s : State) : Prop := ∃ b f, BootEffect f ∧ o = actAllIf b f s

theorem isBootEvent_actAllIf {f : State → State} (h : BootEffect f) (b : Bool) (s : State) : IsBootEvent (actAllIf b f s) s := ⟨b, f, h, rfl⟩

/-- All that a command can do. -/
theorem exec_event_or_boot (i : Instr) (s : State) : IsEvent (exec i s) s ∨ IsBootEvent (exec i s) s := by
  cases i
  case powerOn => exact .inr (isBootEvent_actAllIf .powerOn _ _)
  case kettlePowerLoss => exact .inr (isBootEvent_actAllIf .powerLoss _ _)
  case sysPwrokFall => exact .inr (isBootEvent_actAllIf .pwrokFall _ _)
  case sysRstNAssert => exact .inr (isBootEvent_actAllIf .rstAssert _ _)
  case brownoutReset mv => exact .inr (isBootEvent_actAllIf (.brownout mv) _ _)
  case railUndervoltage => exact .inr (isBootEvent_actAllIf .undervoltage _ _)
  case bootStart x => exact .inr (isBootEvent_actAllIf (.start x) _ _)
  case imageVerifyDone a b => exact .inr (isBootEvent_actAllIf (.verifyDone a b) _ _)
  case bootReady trained ok =>
    dsimp only [exec, execBootReady]
    split
    · exact .inl (isEvent_next _)
    · next c _ => exact .inr (isBootEvent_actAllIf (.ready trained ok c) _ _)
  all_goals refine .inl ?_
  case vnop | vld | vst | vbcast | viadd | visub | vimul | vand | vor | vxor | vshl | vshr | vmin | vmax | vcmp | vsel | vfadd | vfmul | vffma | vcvt
      | vperm | vexp2 | vrmax | bacc | bmac | baddp | bout | bst | bclr | btal =>
    exact isEvent_vqRun _ _ _ _ _
  case vunpk | vpack | bexp | bscat =>
    dsimp only [exec, execVunpk, execVpack, execBexp, execBscat]
    exact isEvent_vqRun _ _ _ _ _
  case tmm | ssort | smerge | sfilt | scomp | sscan | spick | mcopy => exact isEvent_startCmd _ _ _ _ _
  case srand | mfill | mgather =>
    dsimp only [exec, execSrand, execMfill, execMgather]
    exact isEvent_startCmd _ _ _ _ _
  case tmmComplete | ssortComplete | smergeComplete | sfiltComplete | scompComplete | sscanComplete | spickComplete | srandComplete | mcopyComplete
      | mfillComplete | mgatherComplete =>
    exact isEvent_finishCmd _ _ _ _ _
  case tnop | snop | mnop => exact isEvent_nopCmd _ _ _
  case fmem | fsync => exact isEvent_requestRow _ _ _ _ _
  case imgerase | imgwrite => exact isEvent_imageRow _ _ _ _
  -- one thing is looked up: nothing where it is absent, else the effect under a condition
  case ffence | fmemTimeout | collBlockReduced | collTimeout | collUnmatchedExpiry | tokenRouted | layerTimeout | reseqLearnEnd | reseqEntryIdle
      | egressFrameStart | egressAgeing | replayLogExpiry | logRoomGrant | releaseForm | rewindDone | auditRecheckDone | shadowCheckDone =>
    dsimp only [exec, execFfence, execFmemTimeout, execCollBlockReduced, execCollTimeout, execCollUnmatchedExpiry, execTokenRouted, execLayerTimeout,
      execReseqLearnEnd, execReseqEntryIdle, execEgressFrameStart, execEgressAgeing, execReplayLogExpiry, execLogRoomGrant, execReleaseForm,
      execRewindDone, execAuditRecheckDone, execShadowCheckDone]
    split
    · exact isEvent_next _
    · exact isEvent_actIf _ _ _
  -- the rows that look up one thing and act on it
  case fnop | fsend | fsendAccepted | frecv | egressFrameEnd | unitReturnTimeout | islandWake =>
    dsimp only [exec, execFnop, execFsend, execFsendAccepted, execFrecv, execEgressFrameEnd, execUnitReturnTimeout, execIslandWake]
    split
    · exact isEvent_next _
    · exact isEvent_act _ _
  case beatRx f => cases f with
    | inbox => exact isEvent_next _
    | port => exact isEvent_actIf _ _ _
  case pushStallEnd => exact isEvent_pushStallEnd _ _
  case combineBlockDone => exact isEvent_combineBlockDone _ _ _ _ _ _
  case commitComplete => exact isEvent_commitComplete _
  case unloadDone => exact isEvent_unloadDone _
  case shadowArbiterDone => exact isEvent_shadowArbiterDone _ _ _
  case uncorrectableEcc => exact isEvent_uncorrectableEcc _ _
  case tallyBookWrite => exact isEvent_tallyBookWrite _ _
  case caddyWaitGrant | queueSample | coarseWheelSlot => exact isEvent_act _ _
  -- the rows of one condition and one effect
  all_goals exact isEvent_actIf _ _ _

end Sys2Proof.Machine

/-! The clock and the fuses (R359, R371): every function that a device reset or a boot event goes through leaves them alone, in the order of the model. A write
to control space is one of them, for the boot applies REGINIT (R369). -/
namespace Sys2Proof.Machine
open Sys2Proof

/-- What no effect but a boot event's changes: the clock and the fuses. -/
def State.outside (s : State) : Clock × Fuses := (s.clock, s.fuses)

-- How effects are put together --------------------------------------------------------------------------------------------------------------

section
variable {s t u : State}

theorem outside_ite {c : Prop} [Decidable c] (ht : t.outside = s.outside) (hu : u.outside = s.outside) : (if c then t else u).outside = s.outside := by
  split
  · exact ht
  · exact hu

theorem outside_snd_ite {α : Type} {c : Prop} [Decidable c] {x y : α × State} (hx : x.2.outside = s.outside) (hy : y.2.outside = s.outside) :
    (if c then x else y).2.outside = s.outside := by
  split
  · exact hx
  · exact hy

theorem outside_of_recOnly (h : s.RecOnly t) : t.outside = s.outside := by
  rw [h]
  rfl

theorem outside_when (b : Bool) {f : State → State} (h : ∀ s : State, (f s).outside = s.outside) : (s.when b f).outside = s.outside :=
  outside_ite (h s) rfl

theorem outside_eachDo {α : Type} {f : α → State → State} (h : ∀ (x : α) (s : State), (f x s).outside = s.outside) (l : List α) (s : State) :
    (eachDo l f s).outside = s.outside := eachDo_keeps State.outside h l s

/-- A result that carries a value beside the state, with the value read in another way. -/
theorem outside_map {α β : Type} {o : Option (α × State)} {g : α × State → β × State} {x : β × State} (h : o.map g = some x)
    (ho : ∀ {y : α × State}, o = some y → y.2.outside = s.outside) (hg : ∀ y, (g y).2 = y.2 := by exact fun _ => rfl) :
    x.2.outside = s.outside := by
  obtain ⟨y, hy, rfl⟩ := Option.map_eq_some_iff.1 h
  rw [hg, ho hy]

/-- A fold that carries a value beside the state. -/
theorem outside_foldl {α β : Type} {f : β × State → α → β × State} (h : ∀ (a : β × State) (x : α), (f a x).2.outside = a.2.outside) (l : List α)
    (a : β × State) : (l.foldl f a).2.outside = a.2.outside := by
  induction l generalizing a with
  | nil => rfl
  | cons x l ih => exact (ih _).trans (h a x)

end

section
variable (s : State)

-- Registers, cores and plain parts of the state ---------------------------------------------------------------------------------------------

theorem outside_setReg (r : Reg) (i : Nat) (w : Word) : (s.setReg r i w).outside = s.outside := rfl
theorem outside_setFld (f : Fld) (i v : Nat) : (s.setFld f i v).outside = s.outside := rfl
theorem outside_bumpN (f : Fld) (i n : Nat) : (s.bumpN f i n).outside = s.outside := rfl
theorem outside_bump (f : Fld) (i : Nat) : (s.bump f i).outside = s.outside := rfl
theorem outside_raise (f : Fld) (i v : Nat) : (s.raise f i v).outside = s.outside := rfl
theorem outside_setCore (c : Nat) (k : Core) : (s.setCore c k).outside = s.outside := rfl
theorem outside_modCore (c : Nat) (f : Core → Core) : (s.modCore c f).outside = s.outside := rfl
theorem outside_freed : s.freed.outside = s.outside := rfl
theorem outside_setPort (p : Nat) (x : Port) : (s.setPort p x).outside = s.outside := rfl
theorem outside_modPort (p : Nat) (f : Port → Port) : (s.modPort p f).outside = s.outside := rfl
theorem outside_setBuf (i : Nat) (b : Option Buf) : (s.setBuf i b).outside = s.outside := rfl
theorem outside_setQueue (p q : Nat) (x : EgQueue) : (s.setQueue p q x).outside = s.outside := rfl
theorem outside_setEntry (g : Nat) (e : RsEntry) : (s.setEntry g e).outside = s.outside := rfl
theorem outside_modEntry (g : Nat) (e : RsEntry) : (s.modEntry g e).outside = s.outside := rfl
theorem outside_toInbox (i : Nat) : (toInbox i s).outside = s.outside := rfl
theorem outside_putLayer (l : Layer) : (s.putLayer l).outside = s.outside := rfl
theorem outside_setKettle (k : Kettle) : ({ s with kettle := k } : State).outside = s.outside := rfl
theorem outside_setNet (n : Net) : ({ s with net := n } : State).outside = s.outside := rfl
theorem outside_setColl (c : Coll) : ({ s with coll := c } : State).outside = s.outside := rfl
theorem outside_setExp (e : Exp) : ({ s with exp := e } : State).outside = s.outside := rfl
theorem outside_setBoard (b : Board) : ({ s with board := b } : State).outside = s.outside := rfl
theorem outside_setFree (n : Nat) : ({ s with free := n } : State).outside = s.outside := rfl

theorem outside_wakeIsland (n : Nat) : (s.wakeIsland n).outside = s.outside := outside_ite rfl rfl

-- Records (R360, R361) and faults -----------------------------------------------------------------------------------------------------------

theorem outside_addRec (typ die : Nat) (pay : List Word) : (addRec typ die pay s).outside = s.outside := outside_of_recOnly (recOnly_addRec ..)

theorem outside_faultRec (die : Nat) (w : Word) (core : Nat) : (faultRec die w core s).outside = s.outside := outside_of_recOnly (recOnly_faultRec ..)

theorem outside_raiseFault (f : Fld) (die : Nat) (w : Word) (core : Nat) : (raiseFault f die w core s).outside = s.outside :=
  outside_of_recOnly (recOnly_raiseFault ..)

theorem outside_addStreamRec (typ die : Nat) (pay : List Word) : (addStreamRec typ die pay s).outside = s.outside := rfl

theorem outside_coreFault (c : Nat) (e : RodErr) (q : Nat) (a : BitVec 16) : (coreFault c e q a s).outside = s.outside :=
  outside_ite rfl ((outside_faultRec ..).trans rfl)

theorem outside_quizRec (kind index die result e o : Nat) : (quizRec kind index die result e o s).outside = s.outside :=
  outside_ite (outside_addRec ..) (outside_addStreamRec ..)

theorem outside_quizRecFree (kind index die result : Nat) : (quizRecFree kind index die result s).outside = s.outside :=
  (outside_quizRec ..).trans rfl

-- Byte memories -----------------------------------------------------------------------------------------------------------------------------

theorem outside_freeRod (c : Nat) (as : List Nat) : (freeRod c as s).outside = s.outside := outside_ite rfl rfl

theorem outside_sharedDo (c p : Nat) (sps : List Span) {f : State → State} (hf : ∀ s : State, (f s).outside = s.outside) :
    (sharedDo c p sps f s).outside = s.outside :=
  (outside_freeRod ..).trans ((hf _).trans ((outside_freeRod ..).trans rfl))

theorem outside_hbmHeal (off n : Nat) : (hbmHeal off n s).outside = s.outside := by
  refine outside_eachDo ?_ _ _
  exact fun _ _ => rfl

theorem outside_spoilHbm (off n : Nat) : (spoilHbm off n s).outside = s.outside := rfl

theorem outside_memWr (off : Nat) (bs : List Byte) : (memWr off bs s).outside = s.outside := by
  unfold memWr
  split
  · exact (outside_spoilHbm ..).trans ((outside_hbmHeal ..).trans rfl)
  · rfl
  · rfl
  · rfl

theorem outside_windowWr (off : Nat) (bs : List Byte) : (windowWr off bs s).outside = s.outside := by
  unfold windowWr
  split
  · exact outside_sharedDo _ _ _ _ fun t => outside_memWr t _ _
  · exact outside_memWr ..

end

-- Cells and buffers (R213 to R257) ----------------------------------------------------------------------------------------------------------

theorem outside_slotTake {r n : Nat} {s : State} {x : List Nat × State} (h : slotTake r n s = some x) : x.2.outside = s.outside := by
  induction n generalizing s x with
  | zero => cases h; rfl
  | succ n ih =>
    simp only [slotTake] at h
    split at h
    · cases h
    · split at h
      · cases h
      · next heq => cases h; exact (ih heq).trans rfl

theorem outside_slotShared {r n : Nat} {s : State} {x : List Nat × State} (h : slotShared r n s = some x) : x.2.outside = s.outside := by
  induction n generalizing s x with
  | zero => cases h; rfl
  | succ n ih =>
    simp only [slotShared] at h
    split at h
    · cases h
    · split at h
      · cases h
      · next heq => cases h; exact (ih heq).trans rfl

theorem outside_looseTake {d n : Nat} {s : State} {x : List Nat × State} (h : looseTake d n s = some x) : x.2.outside = s.outside := by
  induction n generalizing s x with
  | zero => cases h; rfl
  | succ n ih =>
    simp only [looseTake] at h
    split at h
    · cases h
    · split at h
      · cases h
      · next heq => cases h; exact (ih heq).trans rfl

theorem outside_partTake1 {i k : Nat} {s : State} {x : Nat × State} (h : partTake1 i k s = some x) : x.2.outside = s.outside := by
  unfold partTake1 at h
  split at h
  · cases h
  · split at h
    · cases h
    · cases h; rfl

theorem outside_partTake {i k n : Nat} {s : State} {x : List Nat × State} (h : partTake i k n s = some x) : x.2.outside = s.outside := by
  induction n generalizing s x with
  | zero => cases h; rfl
  | succ n ih =>
    simp only [partTake] at h
    split at h
    · cases h
    · next hone =>
      split at h
      · cases h
      · next heq => cases h; exact (ih heq).trans (outside_partTake1 hone)

section
variable (s : State)

theorem outside_sendWord (p lt v : Nat) : (sendWord p lt v s).outside = s.outside := by
  unfold sendWord
  refine outside_ite rfl ?_
  split
  · rfl
  · exact outside_ite rfl rfl

theorem outside_repay (o : Owe) : (repay o s).outside = s.outside := outside_ite rfl ((outside_sendWord ..).trans rfl)

theorem outside_partFree (i : Nat) (held : List Nat) : (partFree i held s).outside = s.outside := by
  unfold partFree
  split
  · rfl
  · exact outside_ite rfl rfl

theorem outside_uncharge (c : Charge) (s : State) : (uncharge c s).outside = s.outside := by
  induction c generalizing s with
  | both a b iha ihb => exact (ihb _).trans (iha _)
  | part => exact outside_partFree ..
  | none | slot | pool | cross | release => rfl

theorem outside_recharge (i : Nat) (c : Charge) : (recharge i c s).outside = s.outside := by
  unfold recharge
  split
  · rfl
  · dsimp only
    split
    · exact (outside_setBuf ..).trans (outside_uncharge ..)
    · exact (outside_repay ..).trans ((outside_setBuf ..).trans (outside_uncharge ..))

theorem outside_unrefOne (i n : Nat) : (unrefOne i n s).outside = s.outside := by
  unfold unrefOne
  split
  · exact outside_ite rfl ((outside_raiseFault ..).trans rfl)
  · exact outside_ite rfl ((outside_setBuf ..).trans (outside_recharge ..))

theorem outside_unref (i n : Nat) : (unref i n s).outside = s.outside := by
  unfold unref
  split
  · exact outside_unrefOne ..
  · dsimp only
    split
    · exact outside_ite (outside_unrefOne ..) ((outside_unrefOne ..).trans (outside_unrefOne ..))
    · exact outside_unrefOne ..

theorem outside_discard (i : Nat) : (discard i s).outside = s.outside := outside_unref ..

end

section
variable {s : State}

theorem outside_copyCharge {b : Buf} {x : Charge × State} (h : copyCharge b s = some x) : x.2.outside = s.outside := by
  unfold copyCharge at h
  dsimp only at h
  split at h
  · exact outside_map h outside_partTake
  · exact outside_map h outside_slotTake
  · exact outside_map h outside_looseTake

theorem outside_addRefN {n i : Nat} {s : State} {x : Nat × State} (h : addRefN n i s = some x) : x.2.outside = s.outside := by
  induction n using Nat.strong_induction_on generalizing i s x with
  | _ n ih =>
    unfold addRefN at h
    split at h
    · cases h; rfl
    · split at h
      · cases h; rfl
      · split at h
        · exact ih _ (Nat.lt_succ_self _) h
        · split at h
          · cases h
          · next hcopy => cases h; exact (outside_copyCharge hcopy).trans rfl

theorem outside_actRef {a : Option Nat} {x : Option Nat × State} (h : actRef a s = some x) : x.2.outside = s.outside := by
  unfold actRef at h
  split at h
  · cases h; rfl
  · exact outside_map h outside_addRefN

theorem outside_lineTake {l : Line} {n : Nat} {x : Charge × State} (h : lineTake l n s = some x) : x.2.outside = s.outside := by
  unfold lineTake at h
  split at h
  · exact outside_map h outside_partTake
  · exact outside_map h outside_looseTake
  · exact outside_map h outside_slotShared

theorem outside_looseCharge {d : Nat} {f : Frame} {x : Charge × State} (h : looseCharge d f s = some x) : x.2.outside = s.outside := by
  unfold looseCharge at h
  split at h
  · cases h
  · exact outside_map h outside_looseTake

end

section
variable (s : State)

-- The states of a core ----------------------------------------------------------------------------------------------------------------------

theorem outside_enterCoreSt (c : Nat) (st : CoreSt) : (enterCoreSt c st s).outside = s.outside := outside_ite rfl rfl

theorem outside_takeRelease (c slot : Nat) : (takeRelease c slot s).outside = s.outside := (outside_enterCoreSt ..).trans rfl

theorem outside_acceptRelease (slot c : Nat) : (acceptRelease slot c s).outside = s.outside := by
  unfold acceptRelease
  dsimp only
  split
  · exact outside_takeRelease ..
  · exact outside_takeRelease ..
  · exact outside_ite ((outside_coreFault ..).trans rfl) rfl
  · exact outside_ite ((outside_coreFault ..).trans rfl) rfl
  · exact outside_ite ((outside_coreFault ..).trans rfl) rfl
  · rfl
  · rfl

theorem outside_haltSet (c : Nat) : (haltSet c s).outside = s.outside := outside_ite rfl rfl

theorem outside_haltClear (c : Nat) : (haltClear c s).outside = s.outside := by
  refine outside_ite (outside_ite ?_ rfl) rfl
  split
  · exact (outside_takeRelease ..).trans rfl
  · rfl

theorem outside_signalAs (c t q p : Nat) (a : BitVec 16) : (signalAs c t q p a s).outside = s.outside := outside_ite (outside_coreFault ..) rfl

theorem outside_signalBy (c q p : Nat) (h : Cmd) : (signalBy c q p h s).outside = s.outside := outside_ite (outside_signalAs ..) rfl

theorem outside_fqRetire (c : Nat) : (fqRetire c s).outside = s.outside :=
  (outside_eachDo (fun _ t => (outside_signalBy ..).trans (outside_modCore t ..)) _ _).trans rfl

theorem outside_fqDone (c id r : Nat) : (fqDone c id r s).outside = s.outside := (outside_fqRetire ..).trans rfl

theorem outside_frecvTake (c id : Nat) (h : Cmd) (r : Nat) (pay : List Byte) : (frecvTake c id h r pay s).outside = s.outside :=
  outside_ite ((outside_fqDone ..).trans (outside_sharedDo _ _ _ _ fun _ => rfl)) ((outside_fqDone ..).trans (outside_coreFault ..))

-- Forwarding and the egress queues (R213 to R266) -------------------------------------------------------------------------------------------

theorem outside_formWait (x : Formed) : (formWait x s).outside = s.outside := by
  unfold formWait
  dsimp only
  split <;> rfl

theorem outside_linkPlace (p : Nat) (f : Frame) (c : Charge) : (linkPlace p f c s).outside = s.outside := rfl

theorem outside_linkFrame (p : Nat) (h : Hdr) : (linkFrame p h s).outside = s.outside := by
  unfold linkFrame
  dsimp only
  split
  · next hcharge => exact (outside_linkPlace ..).trans (outside_looseCharge hcharge)
  · exact outside_formWait ..

theorem outside_mgmtFrame (p mtype : Nat) (payload : List Byte) : (mgmtFrame p mtype payload s).outside = s.outside := outside_linkFrame ..

theorem outside_kaLeave (p : Nat) : (kaLeave p s).outside = s.outside := outside_ite ((outside_mgmtFrame ..).trans rfl) rfl

theorem outside_enqueueAt (p i : Nat) (staged : Bool) : (enqueueAt p i staged s).outside = s.outside := by
  unfold enqueueAt
  split
  · rfl
  · exact outside_ite ((outside_kaLeave ..).trans rfl) rfl

theorem outside_crossCount (a b : Nat) (f : Frame) : (crossCount a b f s).outside = s.outside := outside_ite rfl rfl

theorem outside_crossOver (i d : Nat) : (crossOver i d s).2.outside = s.outside := by
  have hcount (a b : Nat) (f : Frame) (n : Net) : (crossCount a b f { s with net := n }).outside = s.outside := outside_crossCount _ a b f
  unfold crossOver
  split
  · rfl
  · dsimp only
    split
    · split
      · exact (outside_recharge ..).trans (hcount ..)
      · exact (outside_setBuf ..).trans ((outside_recharge ..).trans (hcount ..))
    · exact (outside_unref ..).trans (hcount ..)

theorem outside_crossPlace (i d : Nat) (ports : List Nat) : (crossPlace i d ports s).outside = s.outside := by
  unfold crossPlace
  dsimp only
  refine (outside_eachDo (fun p t => outside_enqueueAt t p _ _) _ _).trans ?_
  split
  · exact (outside_setBuf ..).trans (outside_crossOver ..)
  · exact outside_crossOver ..

theorem outside_crossTo (d : Nat) (ports : List Nat) (i : Nat) : (crossTo d ports i s).outside = s.outside := by
  unfold crossTo
  split
  · rfl
  · refine outside_ite ?_ (outside_ite (outside_crossPlace ..) rfl)
    exact outside_eachDo (fun p t => outside_enqueueAt t p _ _) _ _

theorem outside_sendTo (p i : Nat) : (sendTo p i s).outside = s.outside := outside_crossTo ..

theorem outside_crossGo (l : List Cross) (stuck : List Nat) (s : State) : (crossGo l stuck s).2.outside = s.outside := by
  induction l generalizing stuck s with
  | nil => rfl
  | cons x t ih =>
    unfold crossGo
    split
    · exact ih ..
    · dsimp only
      split
      · exact (ih ..).trans (outside_crossPlace ..)
      · exact ih ..

theorem outside_crossDrain : (crossDrain s).outside = s.outside := (outside_setNet ..).trans (outside_crossGo ..)

theorem outside_fenceCount (is : List Nat) : (fenceCount is s).outside = s.outside := outside_eachDo (fun i t => outside_bump t _ i) _ _

theorem outside_unlessFenced (i : Nat) {go : State → State} (h : ∀ s : State, (go s).outside = s.outside) :
    (unlessFenced i go s).outside = s.outside := by
  unfold unlessFenced
  split
  · rfl
  · exact outside_ite (h s) ((outside_discard ..).trans (outside_fenceCount ..))

theorem outside_route (i b r : Nat) (fromUp : Bool) : (route i b r fromUp s).outside = s.outside := by
  refine outside_unlessFenced s i fun s => ?_
  split
  · rfl
  · split
    · exact outside_discard ..
    · exact outside_discard ..
    · refine outside_ite (outside_discard ..) ((outside_sendTo ..).trans ((outside_setBuf ..).trans ?_))
      exact outside_when _ fun _ => rfl

theorem outside_multicast (i : Nat) (own down : Bool) : (multicast i own down s).outside = s.outside := by
  unfold multicast
  split
  · rfl
  · dsimp only
    refine outside_ite (outside_discard ..) (outside_ite (outside_discard ..) (outside_ite ((outside_discard ..).trans ?_)
      (outside_ite ((outside_toInbox ..).trans ?_) ?_)))
    · exact outside_eachDo (fun p t => outside_fenceCount t _) _ _
    all_goals
      refine (outside_eachDo (fun d t => outside_crossTo t d _ _) _ _).trans ((outside_eachDo (fun p t => outside_enqueueAt t p _ _) _ _).trans ?_)
      exact (outside_setBuf ..).trans (outside_eachDo (fun p t => outside_fenceCount t _) _ _)

/-- A frame of this device is stored, and goes on as go says, or waits for room. -/
theorem outside_storeOwn (f : Frame) (o : Origin) {go : Nat → State → State} (h : ∀ (i : Nat) (s : State), (go i s).outside = s.outside) :
    (storeOwn f o go s).outside = s.outside := by
  unfold storeOwn
  split
  · exact outside_formWait ..
  · next hcharge =>
    refine (h ..).trans (Eq.trans rfl ?_)
    split at hcharge
    · exact outside_looseCharge hcharge
    · cases hcharge; rfl

theorem outside_sendFrame (f : Frame) (o : Origin) : (sendFrame f o s).outside = s.outside := by
  refine outside_storeOwn s f o fun i s => ?_
  exact outside_ite (outside_multicast ..) (outside_ite rfl (outside_route ..))

theorem outside_sendPlain (h : Hdr) (o : Origin) : (sendPlain h o s).outside = s.outside := outside_sendFrame ..

-- The resequencer (R240 to R246) ------------------------------------------------------------------------------------------------------------

theorem outside_nackLost (src dst : Fnid) (r : LostReason) (qs : List Nat) : (nackLost src dst r qs s).outside = s.outside :=
  outside_eachDo (fun _ t => outside_sendPlain t _ _) _ _

theorem outside_deliver (g i : Nat) : (deliver g i s).outside = s.outside := by
  unfold deliver
  refine outside_ite rfl (outside_unlessFenced s i fun s => ?_)
  split
  · rfl
  · split
    · exact outside_discard ..
    · exact outside_ite (outside_discard ..) (outside_sendTo ..)

theorem outside_settle (g n : Nat) (e : RsEntry) (s : State) : (settle g n e s).2.outside = s.outside := by
  induction n generalizing e s with
  | zero => rfl
  | succ n ih =>
    unfold settle
    split
    · rfl
    · dsimp only
      split
      · rfl
      · exact ih ..
      · exact ih ..
      · exact (ih ..).trans (outside_deliver ..)

theorem outside_dropHeld (g lo : Nat) (e : RsEntry) : (dropHeld g lo e s).2.outside = s.outside :=
  (outside_nackLost ..).trans ((outside_bumpN ..).trans (outside_eachDo (fun (h : Nat × Nat) t => outside_discard t h.2) _ _))

/-- Where the kernel compares windowAdvance at some values with its body, it unfolds the body's matches first, and so counts WINDOW's 1,024 places and the
SEQ's modulus of 2^24 in unary. Here the whole function is replaced by its body under a name for its result, so that it compares no match by unfolding it. -/
theorem outside_windowAdvance (g q : Nat) (e : RsEntry) : (windowAdvance g q e s).2.outside = s.outside := by
  generalize hW : windowAdvance = W
  delta windowAdvance at hW
  generalize h : W g q e s = r
  subst hW
  beta_reduce at h
  extract_lets d n leaving lost held marked told at h
  have htold : told.outside = s.outside := outside_nackLost ..
  clear_value told marked held lost leaving n d
  split at h
  next hdrop =>
    subst h
    refine (congrArg (fun x : RsEntry × State => x.2.outside) hdrop).symm.trans ?_
    split
    · exact (outside_dropHeld ..).trans htold
    · exact (outside_dropHeld ..).trans htold
    · exact (outside_dropHeld ..).trans htold
    · exact htold

theorem outside_placeFrame (g i q : Nat) (ord : Bool) (e : RsEntry) : (placeFrame g i q ord e s).1.outside = s.outside := by
  unfold placeFrame
  split
  · exact (outside_modEntry ..).trans (outside_settle ..)
  · exact (outside_modEntry ..).trans ((outside_settle ..).trans (outside_ite rfl (outside_deliver ..)))

theorem outside_reseqArrive (g i : Nat) : (reseqArrive g i s).1.outside = s.outside := by
  have hadvance := outside_windowAdvance
  unfold reseqArrive
  generalize windowAdvance = W at *
  split
  · rfl
  · extract_lets f q
    split
    · split
      · exact (outside_placeFrame ..).trans rfl
      · split
        · exact (outside_placeFrame ..).trans rfl
        · split
          · exact (outside_nackLost ..).trans ((outside_discard ..).trans rfl)
          · split
            · rfl
            · exact (outside_deliver ..).trans rfl
    · extract_lets t below
      split
      · exact (outside_placeFrame ..).trans rfl
      · split
        · exact (outside_nackLost ..).trans ((outside_discard ..).trans rfl)
        · split
          · split
            next heq =>
              refine (outside_placeFrame ..).trans ((congrArg (fun x : RsEntry × State => x.2.outside) heq).symm.trans ?_)
              exact (hadvance ..).trans rfl
          · exact (outside_placeFrame ..).trans rfl

theorem outside_sendOrigin (f : Frame) (o : Origin) : (sendOrigin f o s).outside = s.outside := by
  unfold sendOrigin
  refine outside_ite (outside_sendFrame ..) ?_
  dsimp only
  split
  · exact outside_sendFrame ..
  · refine outside_storeOwn s f o fun i s => ?_
    split
    · exact outside_unlessFenced s i fun s => outside_ite (outside_discard ..) (outside_reseqArrive ..)
    · exact outside_ite (outside_reseqArrive ..) (outside_reseqArrive ..)

theorem outside_requeue (i : Nat) : (requeue i s).outside = s.outside := by
  unfold requeue
  split
  · rfl
  · refine outside_ite (outside_unref ..) (outside_ite ?_ (outside_discard ..))
    split
    · exact outside_discard ..
    · split
      · exact outside_ite (outside_route ..) (outside_route ..)
      · exact outside_route ..

theorem outside_waitDrop (p : Nat) : (waitDrop p s).outside = s.outside :=
  (outside_eachDo (fun _ t => outside_ite (outside_bump t _ _) (outside_requeue t _)) _ _).trans rfl

theorem outside_portDrop (p : Nat) : (portDrop p s).outside = s.outside := by
  refine (outside_crossDrain _).trans ((outside_waitDrop ..).trans ?_)
  refine outside_ite ((outside_quizRecFree ..).trans ?_) ?_
  all_goals
    refine (outside_eachDo (fun (e : QEnt) t => outside_requeue t e.buf) _ _).trans ?_
    split
    · exact (outside_unref ..).trans (outside_when _ fun _ => rfl)
    · rfl

end

-- Frames that wait to be formed (R257) ------------------------------------------------------------------------------------------------------

theorem outside_frecvTry {i : Nat} {s t : State} (h : frecvTry i s = some t) : t.outside = s.outside := by
  unfold frecvTry at h
  split at h
  · cases h
  · split at h
    · split at h
      · cases h; exact (outside_discard ..).trans (outside_frecvTake ..)
      · cases h
    · cases h

section
variable (s : State)

theorem outside_offerFrecv (i : Nat) : (offerFrecv i s).outside = s.outside := by
  unfold offerFrecv
  cases h : frecvTry i s with
  | none => rfl
  | some t => exact outside_frecvTry h

theorem outside_formTry {x : Formed} {t : State} (h : formTry x s = some t) : t.outside = s.outside := by
  unfold formTry at h
  split at h
  · cases h
  · next hline =>
    split at h
    · cases h
    · next hact =>
      refine Eq.trans ?_ ((outside_actRef hact).trans (outside_lineTake hline))
      dsimp only at h
      split at h
      · cases h; exact outside_offerFrecv ..
      · cases h; rfl
      · cases h; exact outside_sendOrigin ..

theorem outside_formSend (x : Formed) : (formSend x s).outside = s.outside := by
  unfold formSend
  refine outside_ite (outside_formWait ..) ?_
  split
  · next h => exact outside_formTry s h
  · exact outside_formWait ..

-- Measures of delivery bounds (R130, R173) --------------------------------------------------------------------------------------------------

theorem outside_breach (m : Meas) (excess port : Nat) : (breach m excess port s).outside = s.outside := by
  refine (outside_when _ fun t => outside_raiseFault t ..).trans ?_
  dsimp only
  split
  · exact (outside_setExp ..).trans ((outside_addRec ..).trans (outside_ite rfl rfl))
  · exact (outside_addRec ..).trans (outside_ite rfl rfl)

theorem outside_measEnd (m : Meas) : (measEnd m s).outside = s.outside := by
  unfold measEnd
  split
  · rfl
  · exact outside_ite (outside_breach ..) rfl

theorem outside_measSettle : (measSettle s).outside = s.outside := (outside_eachDo (fun m t => outside_measEnd t m) _ _).trans rfl

-- Collectives (R101 to R145) ----------------------------------------------------------------------------------------------------------------

theorem outside_clearBlock (x : Nat × Nat) : (clearBlock x s).outside = s.outside := rfl

theorem outside_endWaiting (p : Frame → Bool) (f : Fld) (i : Nat) : (endWaiting p f i s).outside = s.outside :=
  (outside_eachDo (fun _ t => (outside_discard ..).trans (outside_bump t f i)) _ _).trans rfl

theorem outside_endInst (x : Inst) (f : Fld) : (endInst x f s).outside = s.outside := by
  unfold endInst
  dsimp only
  split
  on_goal 2 => refine (outside_freed _).trans ?_
  all_goals
    refine (outside_setReg ..).trans ((outside_bump ..).trans ((outside_setColl ..).trans ((outside_endWaiting ..).trans ?_)))
    refine (outside_ite (outside_eachDo (fun _ t => outside_clearBlock t _) _ _) rfl).trans ?_
    refine (outside_eachDo (fun (y : Nat × List Nat) t => outside_partFree t _ y.2) _ _).trans ?_
    exact (outside_eachDo (fun (h : Piece) t => outside_discard t h.buf) _ _).trans rfl

theorem outside_collRewind (slot : Nat) (from_ : Word) : (collRewind slot from_ s).outside = s.outside :=
  (outside_setColl ..).trans (outside_eachDo (fun x t => outside_endInst t x _) _ _)

theorem outside_collQuar (c : Nat) : (collQuar c s).outside = s.outside := rfl

-- Expert layers (R146 to R178) --------------------------------------------------------------------------------------------------------------

theorem outside_legMeas (l : Layer) (d : XDesc) (owner : Fnid) (no k closing tick : Nat) : (legMeas l d owner no k closing tick s).outside = s.outside :=
  outside_ite rfl rfl

theorem outside_squash (c : Staged) (l : Layer) : (squash c l s).2.outside = s.outside :=
  (outside_bump ..).trans (outside_eachDo (fun _ t => (outside_unref ..).trans (outside_setQueue t ..)) _ _)

theorem outside_squashTok (p : Staged → Bool) (t : Tok) (l : Layer) : (squashTok p t l s).2.outside = s.outside :=
  outside_foldl (fun a c => outside_squash a.2 c a.1) _ (l, s)

theorem outside_squashAll (p : Staged → Bool) (l : Layer) : (squashAll p l s).2.outside = s.outside :=
  outside_foldl (fun a t => outside_squashTok a.2 p t a.1) _ (l, s)

theorem outside_weighed (l : Layer) : (weighed l s).2.outside = s.outside := by
  unfold weighed
  split <;> rfl

theorem outside_unwatchLayer (l : Layer) : (unwatchLayer l s).outside = s.outside := by
  refine outside_eachDo ?_ _ _
  exact fun _ _ => rfl

theorem outside_takeEntries (n : Nat) (l : Layer) (s : State) : (takeEntries n l s).2.outside = s.outside := by
  induction n generalizing l s with
  | zero => rfl
  | succ n ih =>
    unfold takeEntries
    dsimp only
    split
    · exact (ih ..).trans (outside_wakeIsland ..)
    · rfl

theorem outside_shareEntries : (shareEntries s).outside = s.outside :=
  outside_eachDo (fun _ t => (outside_putLayer ..).trans (outside_takeEntries _ _ t)) _ _

theorem outside_sendLstatus (code : Nat) (o : Fnid) (l : Layer) : (sendLstatus code o l s).2.outside = s.outside := by
  have hweighed := outside_weighed s l
  unfold sendLstatus
  generalize weighed l s = w at *
  obtain ⟨l, t⟩ := w
  dsimp only
  refine (outside_formSend ..).trans (Eq.trans (outside_ite ((outside_legMeas ..).trans ?_) ?_) hweighed)
  all_goals exact outside_snd_ite rfl rfl

theorem outside_loadRecord (l : Layer) (d : XDesc) (code : Nat) : (loadRecord l d code s).outside = s.outside := by
  unfold loadRecord
  extract_lets a ent routed t
  rw [outside_windowWr, outside_windowWr]

theorem outside_freeTok (d : XDesc) (t : Tok) : (freeTok d t s).outside = s.outside := by
  unfold freeTok
  refine (outside_eachDo (fun (x : Nat × List Nat) t => outside_partFree t d.cpart x.2) _ _).trans ?_
  split
  · exact (outside_unref ..).trans (outside_eachDo (fun o t => outside_repay t o) _ _)
  · exact outside_eachDo (fun o t => outside_repay t o) _ _

theorem outside_closeLayer (failed : Bool) (l : Layer) : (closeLayer failed l s).2.outside = s.outside := by
  refine (outside_shareEntries _).trans ((outside_setExp ..).trans ((outside_unwatchLayer ..).trans ?_))
  refine (outside_eachDo (fun t u => outside_freeTok u _ t) _ _).trans ((outside_setNet ..).trans ((outside_endWaiting ..).trans ?_))
  exact (outside_eachDo (fun y u => outside_clearBlock u _) _ _).trans ((outside_squashAll ..).trans (outside_weighed ..))

theorem outside_dropOffers (l : Layer) : (dropOffers l s).outside = s.outside := (outside_eachDo (fun i t => outside_discard t i) _ _).trans rfl

theorem outside_dropMeas (l : Layer) : (dropMeas l s).outside = s.outside := (outside_measSettle _).trans rfl

theorem outside_layerFail (code : Nat) (l : Layer) : (layerFail code l s).outside = s.outside := by
  refine (outside_bump ..).trans ((outside_loadRecord ..).trans ((outside_dropMeas ..).trans ((outside_dropOffers ..).trans ?_)))
  refine (outside_closeLayer ..).trans ((outside_eachDo (fun n t => outside_formSend t _) _ _).trans ?_)
  exact outside_foldl (fun a o => outside_sendLstatus a.2 code o a.1) _ (l, s)

theorem outside_expRewind (slot : Nat) (from_ : Word) : (expRewind slot from_ s).outside = s.outside := by
  refine (outside_setExp ..).trans (outside_eachDo (fun l t => ?_) _ _)
  exact (outside_bump ..).trans ((outside_dropMeas ..).trans ((outside_dropOffers ..).trans (outside_closeLayer t ..)))

theorem outside_expPort (p : Nat) : (expPort p s).outside = s.outside := by
  refine outside_eachDo (fun l t => ?_) _ _
  exact outside_ite ((outside_layerFail ..).trans (outside_squashAll t ..)) ((outside_putLayer ..).trans (outside_squashAll t ..))

theorem outside_expCoreQuar (c : Nat) : (expCoreQuar c s).outside = s.outside := outside_eachDo (fun _ t => outside_putLayer t _) _ _

-- REWIND and unload (R336, R337, R383) ------------------------------------------------------------------------------------------------------

theorem outside_slotFree (r : Nat) (held : List Nat) : (slotFree r held s).outside = s.outside := rfl

theorem outside_stopCore (c : Nat) : (stopCore c s).outside = s.outside := by
  refine (outside_modCore ..).trans (outside_eachDo ?_ _ _)
  exact fun _ _ => rfl

theorem outside_rewindCore (c : Nat) : (rewindCore c s).outside = s.outside :=
  outside_ite ((outside_modCore ..).trans ((outside_modCore ..).trans (outside_stopCore ..)))
    ((outside_enterCoreSt ..).trans ((outside_modCore ..).trans (outside_stopCore ..)))

theorem outside_idleCore (c : Nat) : (idleCore c s).outside = s.outside := (outside_modCore ..).trans (outside_stopCore ..)

theorem outside_dropFormed (b : Brew) (p : Frame → Bool) : (dropFormed b p s).outside = s.outside := rfl

theorem outside_stopWork (k : Nat) (b : Brew) (from_ : Word) : (stopWork k b from_ s).outside = s.outside :=
  (outside_expRewind ..).trans ((outside_collRewind ..).trans (outside_dropFormed ..))

theorem outside_stopAll (k : Nat) (b : Brew) : (stopAll k b s).outside = s.outside :=
  (outside_expRewind ..).trans ((outside_collRewind ..).trans (outside_dropFormed ..))

theorem outside_rewind (k : Nat) (step : Word) : (rewind k step s).outside = s.outside := by
  unfold rewind
  split
  · rfl
  · exact outside_ite rfl ((outside_eachDo (fun c t => outside_rewindCore t c) _ _).trans ((outside_stopWork ..).trans rfl))

theorem outside_rewindWrite (k : Nat) (step : Word) : (rewindWrite k step s).outside = s.outside := outside_ite rfl (outside_rewind ..)

theorem outside_unloadBegin : (unloadBegin s).outside = s.outside := by
  unfold unloadBegin
  split
  · rfl
  · split
    · rfl
    · exact (outside_eachDo (fun c t => outside_idleCore t c) _ _).trans ((outside_stopAll ..).trans rfl)

theorem outside_startUnload (k : Nat) (who : Option Fnid) : (startUnload k who s).outside = s.outside :=
  outside_ite rfl ((outside_unloadBegin _).trans rfl)

-- Links (R325, R339, R388, R390) ------------------------------------------------------------------------------------------------------------

theorem outside_unfencePort (p : Nat) : (unfencePort p s).outside = s.outside := outside_eachDo (fun i t => outside_setFld t _ i 0) _ _

theorem outside_setLink (p n : Nat) : (setLink p n s).outside = s.outside :=
  (outside_setFld ..).trans ((outside_ite (outside_modPort ..) rfl).trans (outside_ite (outside_unfencePort ..) rfl))

theorem outside_portOut (p n : Nat) : (portOut p n s).outside = s.outside :=
  (outside_expPort ..).trans ((outside_portDrop ..).trans (outside_setLink ..))

theorem outside_noteFabric : (noteFabric s).outside = s.outside := outside_ite rfl rfl

theorem outside_portUp (p : Nat) : (portUp p s).outside = s.outside :=
  (outside_noteFabric _).trans ((outside_modPort ..).trans (outside_setLink ..))

theorem outside_failStop : (failStop s).outside = s.outside :=
  (outside_setKettle ..).trans ((outside_eachDo (fun p t => outside_portOut t p 0) _ _).trans (outside_raiseFault ..))

theorem outside_pmapHold (p : Nat) (old : Word) : (pmapHold p old s).outside = s.outside := outside_ite rfl rfl

theorem outside_laneCfgHold (p l : Nat) (old : Word) : (laneCfgHold p l old s).outside = s.outside := outside_ite rfl rfl

-- Unit commands (R339) ----------------------------------------------------------------------------------------------------------------------

theorem outside_unitEnd (pass : Option Bool) : (unitEnd pass s).outside = s.outside := by
  cases pass <;> rfl

theorem outside_portRemove (p : Nat) : (portRemove p s).outside = s.outside :=
  (outside_unitEnd ..).trans (outside_ite rfl (outside_portOut ..))

theorem outside_portReturn (p : Nat) : (portReturn p s).outside = s.outside :=
  outside_ite (outside_unitEnd ..) ((outside_setFld ..).trans ((outside_modPort ..).trans
    (outside_ite ((outside_modPort ..).trans (outside_setLink ..)) rfl)))

theorem outside_modLife (d : Nat) (f : Life → Life) : (modLife d f s).outside = s.outside := rfl

theorem outside_quarantine (c cause bin : Nat) : (quarantine c cause bin s).outside = s.outside :=
  outside_ite rfl ((outside_collQuar ..).trans ((outside_expCoreQuar ..).trans ((outside_addRec ..).trans
    ((outside_raiseFault ..).trans (outside_modCore ..)))))

theorem outside_quarantineFree (c cause : Nat) : (quarantineFree c cause s).outside = s.outside := (outside_quarantine ..).trans (outside_freed _)

theorem outside_quizStart (c : Nat) (ret : Bool) : (quizStart c ret s).outside = s.outside := rfl

theorem outside_quizRestore (c : Nat) : (quizRestore c s).outside = s.outside := by
  have hleft (t u : State) (h : u.outside = t.outside) (st : CoreSt) :
      (if st = .idle then u.modCore c (fun k => { k with st := .idle }) else enterCoreSt c st u).outside = t.outside :=
    outside_ite ((outside_modCore ..).trans h) ((outside_enterCoreSt ..).trans h)
  unfold quizRestore
  dsimp only
  split
  · exact hleft _ _ (outside_modCore ..) _
  · refine outside_ite ((outside_idleCore ..).trans (hleft _ _ (outside_modCore ..) _)) ?_
    refine outside_ite ((outside_rewindCore ..).trans (hleft _ _ (outside_modCore ..) _)) ?_
    exact outside_ite ((outside_acceptRelease ..).trans (hleft _ _ (outside_modCore ..) _)) (hleft _ _ (outside_modCore ..) _)

theorem outside_stackQuizAbort (k : Nat) : (stackQuizAbort k s).outside = s.outside :=
  outside_ite ((outside_quizRecFree ..).trans (outside_setKettle ..)) rfl

theorem outside_stackOut (k : Nat) : (stackOut k s).outside = s.outside := rfl

theorem outside_stackRemove (k : Nat) : (stackRemove k s).outside = s.outside :=
  (outside_unitEnd ..).trans ((outside_raiseFault ..).trans ((outside_freed _).trans ((outside_stackOut ..).trans (outside_stackQuizAbort ..))))

theorem outside_stackReturn (k : Nat) : (stackReturn k s).outside = s.outside :=
  (outside_setFld ..).trans ((outside_stackOut ..).trans (outside_stackQuizAbort ..))

theorem outside_stackTrained (t : StackTrain) : (stackTrained t s).outside = s.outside := rfl

theorem outside_stackIn (t : StackTrain) : (stackIn t s).outside = s.outside := rfl

theorem outside_coreRemove (c : Nat) : (coreRemove c s).outside = s.outside :=
  (outside_unitEnd ..).trans ((outside_quarantineFree ..).trans
    (outside_ite ((outside_quizRestore ..).trans (outside_quizRecFree ..)) rfl))

theorem outside_coreReturn (c : Nat) : (coreReturn c s).outside = s.outside := by
  refine (outside_setFld ..).trans (outside_ite ((outside_modCore ..).trans ?_) ((outside_quizStart ..).trans ?_))
  all_goals exact outside_ite (outside_wakeIsland ..) rfl

theorem outside_unitCmd (w : Word) : (unitCmd w s).outside = s.outside := by
  unfold unitCmd
  dsimp only
  split
  · exact outside_ite (outside_portRemove ..) (outside_portReturn ..)
  · exact outside_ite (outside_coreRemove ..) (outside_coreReturn ..)
  · exact outside_ite (outside_stackRemove ..) (outside_stackReturn ..)

-- Resets and power states (R10, R391, R392) -------------------------------------------------------------------------------------------------

theorem outside_addLife : (addLife s).outside = s.outside :=
  (outside_setKettle ..).trans (outside_ite (outside_eachDo (fun i t => outside_modLife t i _) _ _) rfl)

theorem outside_holdEnd (mv : Nat) (reset : Bool) : (holdEnd mv reset s).outside = s.outside := by
  refine (outside_addRec ..).trans ((outside_eachDo ?_ _ _).trans rfl)
  exact fun _ _ => rfl

theorem outside_holdCut (mv : Nat) : (holdCut mv s).outside = s.outside := outside_ite (outside_holdEnd ..) rfl

theorem outside_atReset : s.atReset.outside = s.outside := (outside_holdCut ..).trans (outside_addLife _)

theorem outside_diesReset : (diesReset s).outside = s.outside := rfl

theorem outside_deviceReset (cause : Nat) (p : Phase) : (deviceReset cause p s).outside = s.outside := by
  rw [deviceReset_eq]
  exact Eq.trans rfl (outside_atReset s)

theorem outside_kettleOnly : (kettleOnly s).outside = s.outside := (outside_setFld ..).trans (Eq.trans rfl (outside_atReset s))

theorem outside_leaveIdle : (leaveIdle s).outside = s.outside := rfl

theorem outside_pwrRun : (pwrRun s).outside = s.outside :=
  outside_ite (outside_ite rfl (outside_deviceReset ..))
    (outside_ite ((outside_leaveIdle _).trans (outside_eachDo (fun p t => outside_kaLeave t p) _ _)) rfl)

theorem outside_pwrIdle : (pwrIdle s).outside = s.outside :=
  outside_ite ((outside_setKettle ..).trans (outside_eachDo (fun _ t => (outside_mgmtFrame ..).trans (outside_modPort t ..)) _ _)) rfl

theorem outside_pwrKettleOnly : (pwrKettleOnly s).outside = s.outside := outside_ite (outside_kettleOnly _) rfl

theorem outside_pwrCmd (w : Word) : (pwrCmd w s).outside = s.outside := by
  unfold pwrCmd
  split
  · exact outside_pwrRun _
  · exact outside_pwrIdle _
  · exact outside_pwrKettleOnly _

-- What a write to control space does (chapter 16) -------------------------------------------------------------------------------------------

theorem outside_of_clearOnly {s t : State} (h : s.ClearOnly t) : t.outside = s.outside := by
  rw [h]
  rfl

theorem outside_sendDatagram (recs : List Rec) : (sendDatagram recs s).outside = s.outside := by
  unfold sendDatagram
  split <;> rfl

theorem outside_replayStart : (replayStart s).outside = s.outside :=
  (outside_setFld ..).trans (outside_eachDo (fun l t => outside_sendDatagram t l) _ _)

theorem outside_bankArm : (bankArm s).outside = s.outside := outside_eachDo (fun p t => outside_kaLeave t p) _ _

theorem outside_bankCurrent (b : Nat) : (bankCurrent b s).outside = s.outside := (outside_eachDo (fun p t => outside_portUp t p) _ _).trans rfl

theorem outside_rodCtrl (c : Nat) (old v : Word) : (rodCtrl c old v s).outside = s.outside := by
  refine outside_ite ((outside_haltSet ..).trans ?_) (outside_ite ((outside_haltClear ..).trans ?_) ?_)
  all_goals exact (outside_ite (outside_setReg ..) rfl).trans (outside_ite (outside_setReg ..) rfl)

theorem outside_taintColl (p : Bool → Nat → CDesc → Bool) (running : Bool) (ds : List (Bool × Nat)) : (taintColl p running ds s).outside = s.outside := rfl

theorem outside_taintExp (p : Nat → XDesc → Bool) : (taintExp p s).outside = s.outside := rfl

theorem outside_taint (r : Reg) (i : Nat) (old new : Word) : (taint r i old new s).outside = s.outside := by
  unfold taint
  dsimp only
  split
  · exact outside_when _ fun _ => outside_taintColl ..
  · exact outside_when _ fun _ => outside_taintColl ..
  · exact outside_when _ fun _ => outside_taintExp ..
  · exact (outside_taintExp ..).trans (outside_taintColl ..)
  · exact (outside_taintExp ..).trans (outside_taintColl ..)
  · split
    · rfl
    · exact outside_ite rfl (outside_ite (outside_ite (outside_taintColl ..) rfl) (outside_taintColl ..))
  · rfl

theorem outside_ctlEffect (r : Reg) (i : Nat) (old new v : Word) : (ctlEffect r i old new v s).outside = s.outside := by
  have hclear {b : Bool} {f : State → State} (h : ∀ t : State, t.ClearOnly (f t)) : (s.when b f).outside = s.outside :=
    outside_of_clearOnly (clearOnly_when s h)
  unfold ctlEffect
  split
  · exact outside_when _ fun t => outside_addRec t ..            -- GLOBAL_MODE
  · exact hclear (clearOnly_clearRegs _)                         -- GLOBAL_REJ_CLR
  · exact hclear (clearOnly_clearRegs _)                         -- GLOBAL_STRICT_CLR
  · exact outside_when _ fun t => outside_unitCmd t _            -- GLOBAL_UNITCMD
  · exact outside_when _ fun t => outside_pwrCmd t _             -- KETTLE_PWR_CMD
  · exact outside_of_clearOnly (clearOnly_healthClear _ _)       -- KETTLE_HEALTH_CLR
  · exact hclear (clearOnly_frClear _)                           -- PORT_FRCLR
  · exact hclear (clearOnly_qClear _)                            -- PORT_EGCFG
  · exact hclear clearOnly_routeClear                            -- ROUTE_TALLY_CLR
  · exact outside_ite (outside_bankArm _) (outside_ite (outside_bankCurrent ..) rfl)
  · exact outside_when _ fun t => outside_startUnload t ..       -- SCHED_UNLOAD
  · exact outside_rewindWrite ..
  · exact hclear (clearOnly_clearRegs _)                         -- SCHED_BREACH_CLR
  · exact outside_of_clearOnly (clearOnly_collClear _ _)
  · exact hclear clearOnly_expClear
  · exact outside_of_clearOnly (clearOnly_sampClear _ _)
  · exact outside_setReg ..                                      -- SCHED_PLACE
  · exact hclear clearOnly_caddyClear
  · exact outside_rodCtrl ..
  · exact outside_of_clearOnly (clearOnly_beadClear _ _)
  · exact hclear clearOnly_memregClear
  · exact hclear (clearOnly_clearRegs _)                         -- CBOARD_CLR
  · exact (outside_when _ fun t => outside_replayStart t).trans (outside_setFld ..)
  · exact outside_pmapHold ..
  · split                                                        -- LANE_CFG
    · exact outside_laneCfgHold ..
    · rfl
  · exact outside_when _ fun _ => rfl                            -- AUDIT_RECHK
  · exact outside_taint ..

theorem outside_ctlApply (r : Reg) (i : Nat) (v : Word) : (ctlApply r i v s).outside = s.outside :=
  (outside_ctlEffect ..).trans (outside_setReg ..)

theorem outside_ctlWrite (w : Option Who) (r : Reg) (i : Nat) (v : Word) : (ctlWrite w r i v s).2.outside = s.outside := by
  unfold ctlWrite
  split
  · exact outside_bump ..
  · exact outside_ctlApply ..

theorem outside_oobWriteAt (off : Nat) (v : Word) : (oobWriteAt off v s).2.outside = s.outside := by
  unfold oobWriteAt
  split
  · exact outside_bump ..
  · exact outside_ctlWrite ..

theorem outside_oobWriteFull (a : Nat) (v : Word) : (oobWriteFull a v s).2.outside = s.outside :=
  outside_snd_ite (outside_bump ..) (outside_oobWriteAt ..)

-- The boot (R349, R369 to R374) -------------------------------------------------------------------------------------------------------------

theorem outside_loadReg (x : BitVec 32 × Word) : (loadReg x s).outside = s.outside := by
  unfold loadReg
  split
  · rfl
  · exact outside_ite rfl rfl

theorem outside_loadImage (c : ImageContent) : (loadImage c s).outside = s.outside :=
  (outside_setFld ..).trans ((outside_eachDo (fun x t => outside_loadReg t x) _ _).trans rfl)

theorem outside_bootRec (pos : Nat) : (bootRec pos s).outside = s.outside := outside_addRec ..

theorem outside_lifeCheck (d : Nat) : (lifeCheck d s).outside = s.outside :=
  outside_ite rfl (outside_ite rfl ((outside_setFld ..).trans ((outside_bootRec ..).trans (outside_modLife ..))))

theorem outside_bootStack (trained : List StackTrain) (k : Nat) : (bootStack trained k s).outside = s.outside := by
  unfold bootStack
  split
  · refine outside_ite (outside_stackIn ..) ((outside_freed _).trans ((outside_raiseFault ..).trans ?_))
    exact (outside_stackOut ..).trans (outside_stackTrained ..)
  · exact (outside_freed _).trans ((outside_raiseFault ..).trans (outside_stackOut ..))

theorem outside_fuseAdvance : (fuseAdvance s).outside = s.outside := outside_ite rfl rfl

theorem outside_bootReadyEffect (trained : List StackTrain) (ok : Bool) (c : ImageContent) : (bootReadyEffect trained ok c s).outside = s.outside := by
  refine outside_ite (outside_failStop _) ((outside_fuseAdvance _).trans ?_)
  refine (outside_eachDo (fun p t => outside_setFld t ..) _ _).trans ((outside_setKettle ..).trans ((outside_setFld ..).trans ?_))
  refine (outside_bootRec ..).trans ((outside_eachDo (fun d t => outside_lifeCheck t d) _ _).trans ?_)
  refine (outside_eachDo (fun k t => outside_bootStack t _ k) _ _).trans ?_
  refine (outside_eachDo (fun (x : Nat × Word) t => outside_oobWriteFull t x.1 x.2) _ _).trans ?_
  refine (outside_eachDo (fun d t => outside_setReg t ..) _ _).trans ((outside_loadImage ..).trans ((outside_setKettle ..).trans ?_))
  exact outside_addLife _

theorem outside_imageVerifyDoneEffect (a b : ImageContent) : (imageVerifyDoneEffect a b s).outside = s.outside :=
  outside_ite rfl (outside_ite rfl ((outside_setKettle ..).trans ((outside_setFld ..).trans ((outside_kettleOnly _).trans rfl))))

theorem outside_sysPwrokFallEffect : (sysPwrokFallEffect s).outside = s.outside :=
  (outside_setKettle ..).trans ((outside_setFld ..).trans (outside_deviceReset ..))

theorem outside_sysRstNAssertEffect : (sysRstNAssertEffect s).outside = s.outside := by
  refine (outside_setKettle ..).trans (outside_ite (outside_deviceReset ..) ((outside_setFld ..).trans (outside_deviceReset ..)))

theorem outside_railReset : (railReset s).outside = s.outside := (outside_setKettle ..).trans (outside_deviceReset ..)

theorem outside_brownoutResetEffect (mv : Nat) : (brownoutResetEffect mv s).outside = s.outside :=
  (outside_railReset _).trans ((outside_holdEnd ..).trans (outside_ite rfl rfl))

theorem outside_bookStat : (bookStat s).outside = s.outside := rfl

-- Reading the book (R359, R362) -------------------------------------------------------------------------------------------------------------

/-- What reading the book leaves alone: the ticks and the fuses, but not what PTIME counts from. -/
def State.outsideBook (s : State) : Nat × Nat × Fuses := (s.clock.ktick, s.clock.rtick, s.fuses)

theorem outsideBook_of_outside {s t : State} (h : t.outside = s.outside) : t.outsideBook = s.outsideBook :=
  congrArg (fun x : Clock × Fuses => (x.1.ktick, x.1.rtick, x.2)) h

theorem outsideBook_bookRestore : (bookRestore s).outsideBook = s.outsideBook := by
  unfold bookRestore
  refine Eq.trans rfl ((outsideBook_of_outside (outside_eachDo (fun r t => outside_modLife t _ _) _ _)).trans ?_)
  dsimp only
  split
  · split <;> rfl
  · split <;> rfl

theorem outsideBook_bookScan : (bookScan s).outsideBook = s.outsideBook := by
  unfold bookScan
  dsimp only
  refine (outsideBook_of_outside ((outside_eachDo (fun d t => outside_setFld t ..) _ _).trans
    ((outside_bookStat _).trans (outside_setFld ..)))).trans ?_
  split
  · rfl
  · exact outsideBook_bookRestore s

/-- The boot starts the time since the last device reset anew (R376). -/
theorem outsideBook_bootStartEffect (x : Straps) : (bootStartEffect x s).outsideBook = (s.clock.ktick, s.clock.ktick, s.fuses) := by
  refine (outsideBook_of_outside ((outside_setKettle ..).trans (outside_ite (outside_setFld ..) rfl))).trans ?_
  exact outsideBook_bookScan _

end

end Sys2Proof.Machine

/-! The clock's invariant: what an event and a boot event do to it. -/
namespace Sys2Proof.Machine
open Sys2Proof

-- The clock stays sound ---------------------------------------------------------------------------------------------------------------------

theorem clockOk_of_outside {s t : State} (h : t.outside = s.outside) (hok : s.ClockOk) : t.ClockOk := by
  have hclock : t.clock = s.clock := congrArg Prod.fst h
  rwa [State.ClockOk, hclock]

theorem clockOk_bootStartEffect (x : Straps) (s : State) : (bootStartEffect x s).ClockOk := by
  have hticks := outsideBook_bootStartEffect s x
  simp only [State.outsideBook, Prod.mk.injEq] at hticks
  obtain ⟨hk, hr, -⟩ := hticks
  rw [State.ClockOk, hk, hr]

/-- A cold start begins with the clock at 0 (R359). -/
theorem clockOk_cold (p : Phase) (nonce : Word) (s : State) : (s.cold p nonce).ClockOk := Nat.le_refl 0

theorem BootEffect.clockOk {f : State → State} (h : BootEffect f) {s : State} (hok : s.ClockOk) : (f s).ClockOk := by
  cases h with
  | powerOn => exact clockOk_of_outside (outside_freed _) (clockOk_cold .inReset s.freeVal s)
  | powerLoss => exact clockOk_cold .off 0 s
  | start x => exact clockOk_bootStartEffect x s
  | pwrokFall => exact clockOk_of_outside (outside_sysPwrokFallEffect s) hok
  | rstAssert => exact clockOk_of_outside (outside_sysRstNAssertEffect s) hok
  | brownout mv => exact clockOk_of_outside (outside_brownoutResetEffect s mv) hok
  | undervoltage => exact clockOk_of_outside (outside_railReset s) hok
  | verifyDone a b => exact clockOk_of_outside (outside_imageVerifyDoneEffect s a b) hok
  | ready trained ok c => exact clockOk_of_outside (outside_bootReadyEffect s trained ok c) hok

theorem IsEvent.clockOk {o : Host.Outcome State Fault Refusal} {s t : State} (h : IsEvent o s) (ht : o = .next t) (hok : s.ClockOk) : t.ClockOk := by
  rwa [State.ClockOk, h.clock ht]

theorem IsBootEvent.clockOk {o : Host.Outcome State Fault Refusal} {s t : State} (h : IsBootEvent o s) (ht : o = .next t) (hok : s.ClockOk) :
    t.ClockOk := by
  obtain ⟨b, f, hf, rfl⟩ := h
  rcases actAllIf_cases ht with rfl | ⟨-, rfl⟩
  · exact hok
  · exact hf.clockOk (s := s.hushed) hok

theorem exec_keeps_clockOk {i : Instr} {s t : State} (ht : exec i s = .next t) (hok : s.ClockOk) : t.ClockOk := by
  rcases exec_event_or_boot i s with h | h
  · exact h.clockOk ht hok
  · exact h.clockOk ht hok

theorem State.tick_clockOk {s : State} (hok : s.ClockOk) : s.tick.ClockOk := Nat.le_succ_of_le hok

end Sys2Proof.Machine

/-! PLDM (R365), the book's writer (R361), and the events of the monitors, quizzes and checks whose condition has several parts
(R339, R353, R354, R356 to R358, R385). -/
namespace Sys2Proof.Machine
open Sys2Proof

-- PLDM (R365) -------------------------------------------------------------------------------------------------------------------------------

section
variable {s : State} {r : PldmReq}

theorem State.kettleOn_of_smbusTakes (htakes : s.smbusTakes r = true) : s.kettleOn = true := by
  simp only [State.smbusTakes, Bool.and_eq_true] at htakes
  exact htakes.1.1

/-- A command with data of the length that its row asks for is answered as the row says. -/
theorem pldm_next {ptype code len : Nat} {f g : State → State} (htakes : s.smbusTakes r = true) (htype : r.ptype = BitVec.ofNat 8 ptype)
    (hcode : r.code = BitVec.ofNat 8 code) (hlen : r.data.length = len) (h : f s.hushed = g s.hushed) :
    pldm ptype code len r f s = .next (s.after g) :=
  actIf_after (by simp [htakes, htype, hcode]) (by rw [if_pos hlen, h])

/-- An answer uses up no free value. -/
theorem pldmAnswer_free (r : PldmReq) (cc : Nat) (data : List Byte) (s : State) : (pldmAnswer r cc data s).free = s.free :=
  eachDo_keeps State.free (fun _ t => t.emit_free _) _ s

theorem execGetPldmCommands_next (htakes : s.smbusTakes r = true) (htype : r.ptype = 0) (hcode : r.code = 0x05) (hlen : r.data.length = 5)
    (hknown : leAt r.data 0 1 = 0 ∨ leAt r.data 0 1 = 2) :
    execGetPldmCommands r s = .next (s.after (pldmAnswer r 0 (pldmCommands (leAt r.data 0 1)))) :=
  pldm_next htakes htype hcode hlen (if_pos (by simpa using hknown))

/-- GET_PLDM_VERSION is answered for type 0 and type 2. -/
theorem execGetPldmVersion_next (htakes : s.smbusTakes r = true) (htype : r.ptype = 0) (hcode : r.code = 0x03) (hlen : r.data.length = 6)
    (hknown : leAt r.data 5 1 = 0 ∨ leAt r.data 5 1 = 2) : ∃ bs, execGetPldmVersion r s = .next (s.after (pldmAnswer r 0 bs)) :=
  ⟨_, pldm_next htakes htype hcode hlen (if_pos (by simpa using hknown))⟩

/-- The state and the open previous state of the sensor come before its reading. -/
theorem execGetSensorReading_next (htakes : s.smbusTakes r = true) (htype : r.ptype = 2) (hcode : r.code = 0x11) (hlen : r.data.length = 3)
    (hnumeric : isNumeric (leAt r.data 0 2) = true) :
    ∃ bs, execGetSensorReading r s =
      .next (s.after (fun t => readDone ((pldmAnswer r 0 (bs ++ int4 (s.reading (leAt r.data 0 2))) t).freed))) :=
  ⟨_, pldm_next htakes htype hcode hlen (if_pos hnumeric)⟩

theorem execGetStateSensorReadings_next (htakes : s.smbusTakes r = true) (htype : r.ptype = 2) (hcode : r.code = 0x21) (hlen : r.data.length = 4)
    (hsensor : leAt r.data 0 2 = 11) :
    ∃ bs, execGetStateSensorReadings r s =
      .next (s.after (fun t => (pldmAnswer r 0 ([1, 0, BitVec.ofInt 8 (s.reading 11)] ++ bs) t).freed)) :=
  ⟨[(s.freeVal.truncate 8 : Byte), BitVec.ofInt 8 (s.reading 11)], pldm_next htakes htype hcode hlen (if_pos hsensor)⟩

/-- The repository is available; what follows holds the open times, which use up the free values. -/
theorem execGetPdrRepositoryInfo_next (htakes : s.smbusTakes r = true) (htype : r.ptype = 2) (hcode : r.code = 0x50) (hdata : r.data = []) :
    ∃ bs, execGetPdrRepositoryInfo r s = .next (s.after (fun t => { pldmAnswer r 0 ([0] ++ bs) t with free := t.free + 27 })) := by
  apply Exists.intro
  refine pldm_next htakes htype hcode (congrArg List.length hdata) ?_
  simp only [pldmAnswer_free, List.append_assoc]
  rfl

/-- A first part of a record that the repository holds, or of the first record. -/
theorem execGetPdr_next (htakes : s.smbusTakes r = true) (htype : r.ptype = 2) (hcode : r.code = 0x51) (hlen : r.data.length = 13)
    (hrecord : leAt r.data 0 4 ≤ 14) (hfirst : leAt r.data 8 1 = 1) : ∃ bs, execGetPdr r s = .next (s.after (pldmAnswer r 0 bs)) := by
  have hheld : ¬ 14 < if leAt r.data 0 4 = 0 then 1 else leAt r.data 0 4 := by split <;> omega
  apply Exists.intro
  refine pldm_next htakes htype hcode hlen ?_
  simp only [hheld, hfirst, if_false, lt_irrefl, decide_true, Bool.not_true, Bool.false_and, Bool.false_eq_true]
  rfl

/-- A command that no row names is answered with ERROR_UNSUPPORTED_PLDM_CMD. -/
theorem execPldmUnsupportedCommand_next (htakes : s.smbusTakes r = true)
    (hbase : ¬ (r.ptype = 0 ∧ (r.code = 0x02 ∨ r.code = 0x03 ∨ r.code = 0x04 ∨ r.code = 0x05)))
    (hplatform : ¬ (r.ptype = 2 ∧ (r.code = 0x11 ∨ r.code = 0x21 ∨ r.code = 0x50 ∨ r.code = 0x51))) :
    execPldmUnsupportedCommand r s = .next (s.after (pldmAnswer r 0x05 [])) := by
  simp only [← BitVec.toNat_inj] at hbase hplatform
  refine actIf_true ?_
  simp only [htakes, Bool.true_and, Bool.not_eq_true', Bool.or_eq_false_iff, Bool.and_eq_false_iff, decide_eq_false_iff_not]
  simp at hbase hplatform ⊢
  omega

end

-- The book's writer (R361) ------------------------------------------------------------------------------------------------------------------

section
variable {s : State} {ok : Bool}

/-- Nothing waits once the old records are dropped. -/
theorem execTallyBookWrite_empty (hon : s.kettleOn = true) (hrestored : s.kettle.restored = true)
    (hqueue : (dropOld (flushCoal s)).book.queue = []) : execTallyBookWrite ok s = .next (s.after (fun t => dropOld (flushCoal t))) := by
  simp only [execTallyBookWrite, hon, if_true, hqueue]
  exact actIf_true hrestored

/-- The oldest record that waits is written within the budget. -/
theorem execTallyBookWrite_record {n : Nat} {r : Rec} {rest : List (Nat × Rec)} (hon : s.kettleOn = true) (hrestored : s.kettle.restored = true)
    (hqueue : (dropOld (flushCoal s)).book.queue = (n, r) :: rest) (hbudget : 0 < (dropOld (flushCoal s)).book.budget) :
    execTallyBookWrite ok s = .next (s.after (bookWriteEffect ok r rest)) := by
  simp only [execTallyBookWrite, hon, if_true, hqueue]
  exact actIf_true (by simp [hrestored, hbudget])

end

-- Islands, stacks and checks ----------------------------------------------------------------------------------------------------------------

section
variable {s : State}

/-- The conditions of R385 let an island sleep. -/
theorem execIslandSleep_next {n : IslandId} (hawake : s.awake n = true) (hfree : s.heldAwake n = false)
    (hidle : ∀ j : Nat, j < 4 → s.coreIdle (4 * n + j) = true) : execIslandSleep n s = .next (s.after (islandSleepEffect n)) :=
  actIf_true (by simpa [hawake, hfree] using hidle)

/-- A wake that is under way completes (R386). -/
theorem execIslandWake_next {n : IslandId} {cold : Bool} (hwaking : s.waking.find? (fun y => y.1 = n.val) = some (n.val, cold)) :
    execIslandWake n s = .next (s.after (islandWakeEffect n cold)) := by
  simp only [execIslandWake, hwaking]
  rfl

/-- The scrub of the stack that the RETURN names ends (R339). -/
theorem execStackScrubDone_next {x : StackTrain} {ue : Bool} (hbusy : s.bit F.GLOBAL_UNITCMD_BUSY 0 = true)
    (hkind : s.fld F.GLOBAL_UNITCMD_KIND 0 = 2) (hindex : s.fld F.GLOBAL_UNITCMD_INDEX 0 = x.stack.val) :
    execStackScrubDone x ue s = .next (s.after (stackScrubDoneEffect x ue)) := actIf_true (by simp [hbusy, hkind, hindex])

/-- A check whose checker has not ended yet gets its output (R353). -/
theorem execShadowCheckDone_next {i : Nat} {upset : Option (List Byte)} {x : ShadowChk} (hcheck : s.shadow.checks[i]? = some x)
    (hopen : x.chkOut = none) : execShadowCheckDone i upset s = .next (s.after (shadowCheckDoneEffect i (upset.getD x.ins.result) x)) := by
  simp only [execShadowCheckDone, hcheck]
  exact actIf_true (by rw [hopen]; rfl)

/-- A check with an arbiter is decided by the arbiter's output (R354). -/
theorem execShadowArbiterDone_next {i : Nat} {upset : Option (List Byte)} {x : ShadowChk} {o : List Byte} {a : Nat}
    (hcheck : s.shadow.checks[i]? = some x) (hout : x.chkOut = some o) (harbiter : x.arbiter = some a) :
    execShadowArbiterDone i upset s = .next (s.after (shadowArbiterDoneEffect i (upset.getD x.ins.result) x o a)) := by
  simp only [execShadowArbiterDone, hcheck, hout, harbiter]
  rfl

end

-- Quizzes (R356 to R358) --------------------------------------------------------------------------------------------------------------------

section
variable {s : State}

/-- A core's quiz is due: a sleeping island is woken for it where no admitted Brew names its cores (R358). -/
theorem execCoreQuizDue_next {c : CoreId} (hon : s.unitsOn = true) (hfree : (s.core c).quizzable = true)
    (hinterval : s.fld F.KETTLE_QUIZ_CFG_COREINT 0 ≠ 0) (hhold : s.bit F.GLOBAL_HOLD_INHOLD 0 = false)
    (hisland : s.bit F.ROD_ISLAND_ASLEEP (c / 4) = false ∨ s.islandNamed (c / 4) = false) :
    execCoreQuizDue c s = .next (s.after (coreQuizDueEffect c)) := actIf_true (by simpa [hon, hfree, hinterval, hhold] using hisland)

/-- A port in PROBATION has no quiz under way. -/
theorem execLaneQuizDue_next {p : PortId} (hpresent : (s.port p).present = true) (hquiz : (s.port p).quiz = none) (hprobation : s.lstate p = 3) :
    execLaneQuizDue p s = .next (s.after (laneQuizDueEffect p)) := actIf_true (by simp [hpresent, hquiz, hprobation])

/-- A stack in service that no quiz holds is due. -/
theorem execStackQuizDue_next {k : StackId} (hon : s.unitsOn = true) (hin : s.hbmOut.contains k.val = false)
    (hfree : s.kettle.stackQuiz.contains k.val = false) (hinterval : s.fld F.KETTLE_QUIZ_CFG_STACKINT 0 ≠ 0) :
    execStackQuizDue k s = .next (s.after (stackQuizDueEffect k)) := actIf_true (by rw [hon, hin, hfree]; simpa using hinterval)

end

-- Uncorrectable errors (R129, R169) ---------------------------------------------------------------------------------------------------------

section
variable {s : State} {n o : BitVec 32} {step : Word}

/-- An error strikes a contribution that its instance holds. -/
theorem execUncorrectableEcc_contribution {m blk : Nat} {y : Inst} (hinst : s.instNo n.toNat step = some y) (hholds : y.holds m blk = true) :
    execUncorrectableEcc (.contribution n step m blk) s =
      .next (s.after (fun t => collEcc n.toNat step (some m) blk (caddyEcc (t.desc y.samp y.desc).cpart t))) := by
  simp only [execUncorrectableEcc, hinst]
  exact actIf_true hholds

/-- What an error in the partition that holds an open layer step's data does to the token it strikes. -/
def layerEcc (n : Nat) (step : Word) (owner : Fnid) (o : Nat) (l : Layer) (t : State) : State :=
  expEcc n step owner o (caddyEcc (t.xdesc l.desc).cpart t)

theorem execUncorrectableEcc_activation {owner : Fnid} {l : Layer} (hlayer : s.layerNo n.toNat step = some l) :
    execUncorrectableEcc (.activation n step owner o) s = .next (s.after (layerEcc n.toNat step owner o.toNat l)) := by
  simp only [execUncorrectableEcc, hlayer]
  rfl

theorem execUncorrectableEcc_output {owner : Fnid} {l : Layer} (hlayer : s.layerNo n.toNat step = some l) :
    execUncorrectableEcc (.output n step owner o) s = .next (s.after (layerEcc n.toNat step owner o.toNat l)) := by
  simp only [execUncorrectableEcc, hlayer]
  rfl

end

end Sys2Proof.Machine

/-! Health, records and the out-of-band endpoint: the statements of chapter 13 settled. -/
namespace Sys2Proof.HealthTally
open Sys2Proof Sys2Proof.Machine

/-- Settles O4: time advances the clock, an event leaves it, and a boot event leaves it, starts it at 0, or takes now as the last device reset. -/
theorem clockInvariant : Obligations.ClockInvariant := by
  unfold Obligations.ClockInvariant
  intro s t hok ht
  unfold step at ht
  split at ht
  · cases ht
    exact State.tick_clockOk hok
  · next i rest _ => exact exec_keeps_clockOk (s := { s with pending := rest }) ht hok

/-- Settles O5: nothing has run. -/
theorem clockAtReset : Obligations.ClockAtReset := by
  unfold Obligations.ClockAtReset
  exact Nat.le_refl 0

/-- Settles O56: each row by its condition, the checks and errors by what their place holds. -/
theorem monitorsAndChecks : Obligations.MonitorsAndChecks := by
  unfold Obligations.MonitorsAndChecks
  refine ⟨fun s die t n l h w i x ue cold => ?monitors, fun s i upset o x a c e g p k r => ?checks⟩
  case monitors =>
    exact ⟨fun hon => actIf_true hon, fun hawake => actIf_true hawake, fun hawake => actIf_true hawake, fun htrained => actIf_true htrained,
      execIslandSleep_next, execIslandWake_next, fun hdue => actIf_true hdue, execStackScrubDone_next⟩
  case checks =>
    refine ⟨execShadowCheckDone_next, execShadowArbiterDone_next, fun hcheck => actIf_true (decide_eq_true hcheck), execCoreQuizDue_next,
      fun hquiz => actIf_true (decide_eq_true hquiz), execLaneQuizDue_next, fun hquiz => actIf_true hquiz, execStackQuizDue_next,
      fun hquiz => actIf_true hquiz, fun m j b h d w => ⟨rfl, rfl, rfl, rfl, rfl, fun hoff => actIf_true (decide_eq_true hoff)⟩, ?held⟩
    case held =>
      intro n o step m blk y l owner
      exact ⟨execUncorrectableEcc_contribution, fun hlayer => ⟨execUncorrectableEcc_activation hlayer, execUncorrectableEcc_output hlayer⟩⟩

/-- Settles O57: a record is written or not by what waits once the old ones are dropped, and each other event by its condition. -/
theorem bookAndStream : Obligations.BookAndStream := by
  unfold Obligations.BookAndStream
  intro s ok n room r rest
  exact ⟨execTallyBookWrite_empty, execTallyBookWrite_record, fun hon => actIf_true hon, fun hon => actIf_true hon, fun hon => actIf_true hon,
    fun hreplay => actIf_true hreplay⟩

/-- Settles O58: each supported command by its row, and every other by the row of those that none supports. -/
theorem pldmCommands : Obligations.PldmCommands := by
  unfold Obligations.PldmCommands
  intro s r x htakes
  exact ⟨actIf_true (State.kettleOn_of_smbusTakes htakes),
    fun htype hcode hdata => pldm_next htakes htype hcode (congrArg List.length hdata) rfl,
    fun htype hcode hdata => pldm_next htakes htype hcode (congrArg List.length hdata) rfl,
    execGetPldmCommands_next htakes, execGetPldmVersion_next htakes, execGetSensorReading_next htakes, execGetStateSensorReadings_next htakes,
    execGetPdrRepositoryInfo_next htakes, execGetPdr_next htakes, execPldmUnsupportedCommand_next htakes⟩

end Sys2Proof.HealthTally

/-! The fuses (R371): no command changes them, and a tick blows one at most. -/
namespace Sys2Proof.Machine
open Sys2Proof

theorem fuses_of_outside {s t : State} (h : t.outside = s.outside) : t.fuses = s.fuses := congrArg Prod.snd h

/-- A boot starts the clock anew and leaves the fuses. -/
theorem fuses_bootStartEffect (x : Straps) (s : State) : (bootStartEffect x s).fuses = s.fuses :=
  congrArg (fun y : Nat × Nat × Fuses => y.2.2) (outsideBook_bootStartEffect s x)

theorem BootEffect.fuses {f : State → State} (h : BootEffect f) (s : State) : (f s).fuses = s.fuses := by
  cases h with
  | powerOn => rfl
  | powerLoss => rfl
  | start x => exact fuses_bootStartEffect x s
  | pwrokFall => exact fuses_of_outside (outside_sysPwrokFallEffect s)
  | rstAssert => exact fuses_of_outside (outside_sysRstNAssertEffect s)
  | brownout mv => exact fuses_of_outside (outside_brownoutResetEffect s mv)
  | undervoltage => exact fuses_of_outside (outside_railReset s)
  | verifyDone a b => exact fuses_of_outside (outside_imageVerifyDoneEffect s a b)
  | ready trained ok c => exact fuses_of_outside (outside_bootReadyEffect s trained ok c)

theorem IsEvent.fuses {o : Host.Outcome State Fault Refusal} {s t : State} (h : IsEvent o s) (ht : o = .next t) : t.fuses = s.fuses := by
  obtain ⟨b, f, rfl⟩ := h
  rcases actIf_cases ht with rfl | ⟨-, rfl⟩
  · rfl
  · rfl

theorem IsBootEvent.fuses {o : Host.Outcome State Fault Refusal} {s t : State} (h : IsBootEvent o s) (ht : o = .next t) : t.fuses = s.fuses := by
  obtain ⟨b, f, hf, rfl⟩ := h
  rcases actAllIf_cases ht with rfl | ⟨-, rfl⟩
  · rfl
  · exact hf.fuses s.hushed

theorem exec_fuses {i : Instr} {s t : State} (ht : exec i s = .next t) : t.fuses = s.fuses := by
  rcases exec_event_or_boot i s with h | h
  · exact h.fuses ht
  · exact h.fuses ht

theorem Fuses.svn_le_blown (f : Fuses) (n : Nat) : f.svn ≤ (f.blown n).svn := by
  unfold Fuses.blown
  split
  · exact Nat.le_succ _
  · exact Nat.le_refl _

theorem Fuses.blown_keyHash (f : Fuses) (n : Nat) : (f.blown n).keyHash = f.keyHash := by
  unfold Fuses.blown
  split <;> rfl

theorem Fuses.blown_dieId (f : Fuses) (n : Nat) : (f.blown n).dieId = f.dieId := by
  unfold Fuses.blown
  split <;> rfl

theorem State.fusesKept_tick (s : State) : s.FusesKept s.tick :=
  ⟨s.fuses.svn_le_blown _, s.fuses.blown_keyHash _, s.fuses.blown_dieId _⟩

theorem State.fusesKept_of_eq {s t : State} (h : t.fuses = s.fuses) : s.FusesKept t := by
  rw [State.FusesKept, h]
  exact ⟨Nat.le_refl _, rfl, rfl⟩

end Sys2Proof.Machine

/-! The boot (R370 to R374) and PACE (R393). -/
namespace Sys2Proof.Machine
open Sys2Proof

section
variable {s : State}

/-- The slot that was chosen boots once it is verified. -/
theorem execBootReady_next {trained : List StackTrain} {ok : Bool} {c : ImageContent} (hphase : s.kettle.phase = .verified)
    (hchosen : s.kettle.chosen = some c) : execBootReady trained ok s = .next (s.afterAll (bootReadyEffect trained ok c)) := by
  simp only [execBootReady, hchosen]
  exact actAllIf_true (decide_eq_true hphase)

end

section
variable {pace avg cap : Nat} {held : Bool}

/-- A throttle halves PACE. -/
theorem nextPace_hot : nextPace pace avg cap true held = max 1 (pace / 2) := rfl

/-- Power above the cap lowers PACE. -/
theorem nextPace_above (hcap : cap ≠ 0) (h : cap < avg) : nextPace pace avg cap false held = max 1 (pace - 1) := by simp [nextPace, hcap, h]

/-- Power below 98 % of the cap raises PACE where no throttle holds it. -/
theorem nextPace_below (hcap : cap ≠ 0) (h : 100 * avg < 98 * cap) : nextPace pace avg cap false false = min 64 (pace + 1) := by
  have hle : ¬ cap < avg := by omega
  simp [nextPace, hcap, hle, h]

/-- All that PACE can do without a throttle: fall by one, rise by one, or stay. -/
theorem nextPace_cool (pace avg cap : Nat) (held : Bool) : nextPace pace avg cap false held = max 1 (pace - 1) ∨
    nextPace pace avg cap false held = min 64 (pace + 1) ∨ nextPace pace avg cap false held = pace := by
  unfold nextPace
  rw [if_neg Bool.false_ne_true]
  split
  · exact .inl rfl
  · split
    · exact .inr (.inl rfl)
    · exact .inr (.inr rfl)

/-- Without a throttle PACE moves by one at most. -/
theorem nextPace_cool_near (hlo : 1 ≤ pace) (hhi : pace ≤ 64) :
    nextPace pace avg cap false held ≤ pace + 1 ∧ pace ≤ nextPace pace avg cap false held + 1 := by
  rcases nextPace_cool pace avg cap held with h | h | h <;> rw [h] <;> omega

/-- PACE stays from 1 to 64. -/
theorem nextPace_bounds {hot : Bool} (hlo : 1 ≤ pace) (hhi : pace ≤ 64) : 1 ≤ nextPace pace avg cap hot held ∧ nextPace pace avg cap hot held ≤ 64 := by
  cases hot with
  | true => rw [nextPace_hot]; omega
  | false => rcases nextPace_cool pace avg cap held with h | h | h <;> rw [h] <;> omega

end

end Sys2Proof.Machine

/-! Control messages (R377 to R379, Table 14.9). -/
namespace Sys2Proof.Machine
open Sys2Proof

section
variable {s : State} {m : CtlMsg}

/-- What the last command sent has no part in whether a message is authentic. -/
theorem State.hushed_authentic (s : State) (m : CtlMsg) : s.hushed.authentic m = s.authentic m := rfl

/-- The SEQ that was used last has no part in what a message's operation is given. -/
theorem State.opData_seqUsed (s : State) (m : CtlMsg) : (s.seqUsed m).opData m = s.opData m := rfl

theorem ctlRead_seqUsed (s : State) (m : CtlMsg) (r : Reg) (i : Nat) : ctlRead (s.seqUsed m) r i = ctlRead s r i := rfl

theorem State.hushed_ctlRead (s : State) (r : Reg) (i : Nat) : ctlRead s.hushed r i = ctlRead s r i := rfl

theorem State.oobReadAt_hushed_seqUsed (s : State) (m : CtlMsg) (a : Nat) : (s.hushed.seqUsed m).oobReadAt a = s.oobReadAt a := by
  unfold State.oobReadAt
  refine if_congr Iff.rfl rfl ?_
  generalize Reg.at? (a - ctlBase) = place
  cases place with
  | none => rfl
  | some x => exact (ctlRead_seqUsed ..).trans (s.hushed_ctlRead ..)

/-- An authentic message uses its SEQ, and its operation says what is answered. -/
theorem oobDo_authentic {op : List Byte → State → Nat × List Byte × State} {status : Nat} {data : List Byte} {t : State}
    (hauth : s.authentic m = true) (hop : op (s.opData m) (s.seqUsed m) = (status, data, t)) : oobDo m op s = oobAnswer m status data t := by
  have hdo : oobDo m op s = (fun x : Nat × List Byte × State => oobAnswer m x.1 x.2.1 x.2.2) (op ((s.seqUsed m).opData m) (s.seqUsed m)) :=
    if_pos hauth
  rw [hdo, State.opData_seqUsed, hop]

theorem oobRow_next {mop : Nat} {op : List Byte → State → Nat × List Byte × State} {status : Nat} {data : List Byte} {g : State → State}
    (hon : s.kettleOn = true) (hformed : m.formed = true) (hauth : s.authentic m = true) (hmop : m.mop = mop)
    (hop : op (s.opData m) (s.hushed.seqUsed m) = (status, data, g s.hushed)) :
    oobRow mop m op s = .next (s.after (fun t => oobAnswer m status data (g t))) :=
  actIf_after (by simp [hon, hformed, hmop]) (oobDo_authentic (s := s.hushed) hauth hop)

theorem execOobRead_next (hon : s.kettleOn = true) (hformed : m.formed = true) (hauth : s.authentic m = true) (hmop : m.mop = 1)
    (halign : m.arg % 8 = 0) :
    execOobRead m s = .next (s.after (fun t => oobAnswer m 0 (wordsToBytes [s.oobReadAt m.arg]) (t.seqUsed m))) := by
  refine oobRow_next (g := fun t => t.seqUsed m) hon hformed hauth hmop ?_
  rw [if_pos halign, State.oobReadAt_hushed_seqUsed]

/-- A write that R7 accepts is applied. -/
theorem execOobWrite_next (hon : s.kettleOn = true) (hformed : m.formed = true) (hauth : s.authentic m = true) (hmop : m.mop = 2)
    (hlen : (s.opData m).length = 8) (hok : (oobWriteFull m.arg (BitVec.ofNat 64 (natLE (s.opData m))) (s.hushed.seqUsed m)).1 = true) :
    execOobWrite m s = .next (s.after (fun t => oobAnswer m 0 [] (oobWriteFull m.arg (BitVec.ofNat 64 (natLE (s.opData m))) (t.seqUsed m)).2)) := by
  refine oobRow_next (g := fun t => (oobWriteFull m.arg (BitVec.ofNat 64 (natLE (s.opData m))) (t.seqUsed m)).2) hon hformed hauth hmop ?_
  simp only [hlen, hok, ne_eq, not_true_eq_false, if_false, if_true]

theorem execBookread_next (hon : s.kettleOn = true) (hformed : m.formed = true) (hauth : s.authentic m = true) (hmop : m.mop = 6) :
    execBookread m s = .next (s.after (fun t => oobAnswer m 0 (s.bookFrom m.arg) (t.seqUsed m))) :=
  oobRow_next hon hformed hauth hmop rfl

/-- A reserved MOP is refused once the message is found authentic (Table 14.10, log entry 101). -/
theorem execReservedMop_next (hon : s.kettleOn = true) (hformed : m.formed = true) (hauth : s.authentic m = true) (hmop : 7 ≤ m.mop) :
    execReservedMop m s = .next (s.after (fun t => oobAnswer m 2 [] (t.seqUsed m))) :=
  actIf_after (by simp [hon, hformed, hmop]) (oobDo_authentic (s := s.hushed) hauth rfl)

-- The image messages ------------------------------------------------------------------------------------------------------------------------

section
variable {mop : Nat} {op : List Byte → State → Nat × List Byte × State}

/-- An image message that finds the flash free is a row of Table 14.9 as any other. -/
theorem imageRow_free (h : m.busy = false) : imageRow mop m op s = oobRow mop m op s := by simp [imageRow, h]

/-- An image message that finds the flash in use is answered BUSY, which is counted nowhere (log entry 100). -/
theorem imageRow_busy (hon : s.kettleOn = true) (hformed : m.formed = true) (hauth : s.authentic m = true) (hmop : m.mop = mop)
    (hbusy : m.busy = true) : imageRow mop m op s = .next (s.after (oobReply m 4 [])) := by
  rw [imageRow, if_pos (Bool.and_eq_true_iff.2 ⟨hbusy, hauth⟩)]
  exact actIf_after (by simp [hon, hformed, hmop]) rfl

end

/-- The state with a message's SEQ used and the flash changed by w. -/
def State.flashed (s : State) (m : CtlMsg) (w : SMap Byte → SMap Byte) : State :=
  { s.seqUsed m with kettle := { (s.seqUsed m).kettle with flash := w s.kettle.flash } }

theorem execImgerase_next (hon : s.kettleOn = true) (hformed : m.formed = true) (hauth : s.authentic m = true) (hmop : m.mop = 4)
    (hfree : m.busy = false) (hopen : s.slotOpen m.arg 1 = true) :
    execImgerase m s = .next (s.after (fun t => oobAnswer m 0 [] (t.flashed m (flashErase m.arg)))) :=
  (imageRow_free hfree).trans (oobRow_next (g := fun t => t.flashed m (flashErase m.arg)) hon hformed hauth hmop (if_pos hopen))

/-- Whether the slot is open does not depend on the SEQ that is used. -/
theorem execImgwrite_next (hon : s.kettleOn = true) (hformed : m.formed = true) (hauth : s.authentic m = true) (hmop : m.mop = 5)
    (hfree : m.busy = false) (hopen : s.slotOpen m.arg (s.opData m).length = true) (hpage : m.arg % 256 + (s.opData m).length ≤ 256) :
    execImgwrite m s = .next (s.after (fun t => oobAnswer m 0 [] (t.flashed m (flashProg m.arg (s.opData m))))) := by
  refine (imageRow_free hfree).trans (oobRow_next (g := fun t => t.flashed m (flashProg m.arg (s.opData m))) hon hformed hauth hmop ?_)
  have hslot : (s.hushed.seqUsed m).slotOpen m.arg (s.opData m).length = true := hopen
  simp only [hslot, Bool.not_true, Bool.false_eq_true, if_false]
  exact if_neg (Nat.not_lt.2 hpage)

-- OOB_RESET ---------------------------------------------------------------------------------------------------------------------------------

theorem pwrok_addLife (s : State) : (addLife s).kettle.pwrok = s.kettle.pwrok := by
  unfold addLife
  dsimp only
  split
  · refine eachDo_keeps (fun s => s.kettle.pwrok) ?_ _ _
    exact fun _ _ => rfl
  · rfl

theorem pwrok_holdEnd (mv : Nat) (reset : Bool) (s : State) : (holdEnd mv reset s).kettle.pwrok = s.kettle.pwrok := by
  unfold holdEnd
  rw [addRec_kettle]
  refine (eachDo_keeps (fun s => s.kettle.pwrok) ?_ _ _).trans rfl
  exact fun _ _ => rfl

theorem State.pwrok_atReset (s : State) : s.atReset.kettle.pwrok = s.kettle.pwrok := by
  unfold State.atReset holdCut
  split
  · exact (pwrok_holdEnd ..).trans (pwrok_addLife s)
  · exact pwrok_addLife s

/-- A device reset leaves the pin SYS_PWROK as it stands. -/
theorem pwrok_deviceReset (cause : Nat) (p : Phase) (s : State) : (deviceReset cause p s).kettle.pwrok = s.kettle.pwrok := by
  rw [deviceReset_eq]
  exact s.pwrok_atReset

theorem kettle_oobAnswer (m : CtlMsg) (status : Nat) (data : List Byte) (s : State) : (oobAnswer m status data s).kettle = s.kettle := by
  unfold oobAnswer
  split <;> rfl

/-- With the supplies good and no rail waited for, the answer is followed by a device reset alone. -/
theorem execOobReset_next (hon : s.kettleOn = true) (hformed : m.formed = true) (hauth : s.authentic m = true) (hmop : m.mop = 3)
    (hphase : s.kettle.phase ≠ .brownout) (hpwrok : s.kettle.pwrok = true) :
    execOobReset m s = .next (s.after (fun t => deviceReset 3 .inReset (oobAnswer m 0 [] (t.seqUsed m)))) := by
  refine actIf_after (by simp [hon, hformed, hmop]) ?_
  have hdo : oobDo m (fun _ s => (0, [], s)) s.hushed = oobAnswer m 0 [] (s.hushed.seqUsed m) := oobDo_authentic (s := s.hushed) hauth rfl
  have hgood : (deviceReset 3 .inReset (oobAnswer m 0 [] (s.hushed.seqUsed m))).kettle.pwrok = true := by
    rw [pwrok_deviceReset, kettle_oobAnswer]
    exact hpwrok
  simp only [hdo, State.hushed_authentic, hauth, State.hushed_kettle, hphase, hgood, if_true, if_false]

end

end Sys2Proof.Machine

/-! Neighbour discovery and echo (R377), and the test access port (R412). -/
namespace Sys2Proof.Machine
open Sys2Proof

section
variable {s : State} {src target : BitVec 128} {body : List Byte}

/-- An echo request to one of the port's addresses is answered from it. -/
theorem execIcmpv6EchoRequest_own (hon : s.kettleOn = true) (hmine : s.myAddr target = true) (hone : target ≠ allNodes) :
    execIcmpv6EchoRequest ⟨src, target⟩ body s = .next (s.after (sends (icmpMsg target src 129 body))) :=
  actIf_after (by simp [hon, hmine]) (by simp [hone])

/-- An echo request to all nodes is answered from the device's own address. -/
theorem execIcmpv6EchoRequest_all (hon : s.kettleOn = true) :
    execIcmpv6EchoRequest ⟨src, allNodes⟩ body s = .next (s.after (sends (icmpMsg s.ownAddr src 129 body))) :=
  actIf_after (by simp [hon]) (by rw [if_pos rfl]; rfl)

/-- A solicitor that names itself is sent a solicited advertisement. -/
theorem execNeighbourSolicitation_next (hon : s.kettleOn = true) (hmine : s.myAddr target = true) (hsrc : src ≠ 0) :
    ∃ bs, execNeighbourSolicitation src target s = .next (s.after (sends (icmpMsg target src 136 (0x60 :: bs)))) := by
  apply Exists.intro
  refine actIf_after (by simp [hon, hmine]) ?_
  simp only [hsrc, decide_false, Bool.false_eq_true, if_false, List.cons_append]
  rfl

/-- The EXTEST family takes effect, or behaves as BYPASS, by SYS_RST_N and the rails (log entry 103). -/
theorem extest_next (j : JtagIr) (hon : s.kettleOn = true) :
    extest j s = .next (s.after (fun t => setTap (if t.kettle.rstn = false ∧ t.kettle.phase ≠ .brownout then j else .bypass) t)) := by
  have hextest : s.hushed.extestOn = true ↔ s.kettle.rstn = false ∧ s.kettle.phase ≠ .brownout := by
    have hhushed : s.hushed.kettleOn = true := hon
    simp only [State.extestOn, hhushed, Bool.true_and, Bool.and_eq_true, Bool.not_eq_true', State.hushed_kettle]
    exact and_congr Iff.rfl decide_eq_true_iff
  exact actIf_after hon (congrArg (setTap · s.hushed) (if_congr hextest rfl rfl))

end

end Sys2Proof.Machine

/-! Boot, power and the ports of service: the statements of chapter 14 settled. -/
namespace Sys2Proof.BootPower
open Sys2Proof Sys2Proof.Machine

/-- Settles O6: a tick blows one fuse at most, and a command, be it an event or a boot event, none. -/
theorem fusesOnlyBlow : Obligations.FusesOnlyBlow := by
  unfold Obligations.FusesOnlyBlow
  refine ⟨fun s t ht => ?step, fun i s t ht => exec_fuses ht⟩
  unfold step at ht
  split at ht
  · cases ht
    exact s.fusesKept_tick
  · next i rest _ => exact State.fusesKept_of_eq (exec_fuses (s := { s with pending := rest }) ht)

/-- Settles O55: each event by its condition, and PACE by the cases of its next value. -/
theorem bootAndPower : Obligations.BootAndPower := by
  unfold Obligations.BootAndPower
  refine ⟨fun s x a b c trained ok watts => ?events, fun pace avg cap hot held hlo hhi => ?pace⟩
  case events =>
    exact ⟨fun hreset => actAllIf_true (decide_eq_true hreset), fun hbooting => actAllIf_true (decide_eq_true hbooting), execBootReady_next,
      fun hup hmove => actIf_true (by simp [hup, hmove]), fun hup hidle hmove => actIf_true (by simp [hup, hidle, hmove]),
      fun hon => actIf_true (decide_eq_true hon)⟩
  case pace =>
    obtain ⟨hone, hmax⟩ := nextPace_bounds (avg := avg) (cap := cap) (hot := hot) (held := held) hlo hhi
    refine ⟨hone, hmax, ?near, ?above, ?below, ?hot⟩
    case near =>
      rintro rfl
      exact nextPace_cool_near hlo hhi
    case above =>
      rintro rfl hcap hover hpace
      rw [nextPace_above hcap hover]
      omega
    case below =>
      rintro rfl rfl hcap hunder hpace
      rw [nextPace_below hcap hunder]
      omega
    case hot =>
      rintro rfl hpace
      rw [nextPace_hot]
      omega

/-- Settles O59: HELLO by its condition, and each other message by its row, which an authentic message passes. -/
theorem controlMessages : Obligations.ControlMessages := by
  unfold Obligations.ControlMessages
  intro s m hon hformed
  refine ⟨fun hmop => actIf_after (by simp [hon, hformed, hmop]) rfl, fun hauth => ?_⟩
  exact ⟨execOobRead_next hon hformed hauth, execOobWrite_next hon hformed hauth, execOobReset_next hon hformed hauth,
    execImgerase_next hon hformed hauth, execImgwrite_next hon hformed hauth, imageRow_busy hon hformed hauth, imageRow_busy hon hformed hauth,
    execBookread_next hon hformed hauth, execReservedMop_next hon hformed hauth⟩

/-- Settles O60: the port answers what is for it, and the test access port takes each instruction while VDD_KETTLE is up. -/
theorem portsOfService : Obligations.PortsOfService := by
  unfold Obligations.PortsOfService
  intro s src target body bits hphase
  have hon : s.kettleOn = true := decide_eq_true hphase
  refine ⟨execIcmpv6EchoRequest_own hon, execIcmpv6EchoRequest_all hon, execNeighbourSolicitation_next hon, actIf_true hon, actIf_true hon,
    ⟨_, actIf_after hon rfl⟩, ?extest⟩
  rintro i j (⟨rfl, rfl⟩ | ⟨rfl, rfl⟩ | ⟨rfl, rfl⟩)
  · exact extest_next .extest hon
  · exact extest_next .extestPulse hon
  · exact extest_next .extestTrain hon

end Sys2Proof.BootPower

/-! The machine as a whole (chapter 0): what a step runs, and what every command answers. -/
namespace Sys2Proof.Machine
open Sys2Proof

theorem IsEvent.next {o : Host.Outcome State Fault Refusal} {s : State} (h : IsEvent o s) : ∃ t, o = .next t ∧ t.pending = s.pending := by
  obtain ⟨b, f, rfl⟩ := h
  obtain ⟨t, ht, hpending, -⟩ := actIf_next b f s
  exact ⟨t, ht, hpending⟩

theorem IsBootEvent.next {o : Host.Outcome State Fault Refusal} {s : State} (h : IsBootEvent o s) : ∃ t, o = .next t ∧ t.pending = s.pending := by
  obtain ⟨b, f, -, rfl⟩ := h
  exact actAllIf_next b f s

end Sys2Proof.Machine

/-! The machine as a whole: the statements about steps and commands settled. -/
namespace Sys2Proof.WholeMachine
open Sys2Proof Sys2Proof.Machine

/-- Settles O1: a step looks at the front of the queue. -/
theorem stepRunsFront : Obligations.StepRunsFront := by
  unfold Obligations.StepRunsFront
  intro s i rest
  rfl

/-- Settles O2: with nothing to run, a step is a tick. -/
theorem idleStepTicks : Obligations.IdleStepTicks := by
  unfold Obligations.IdleStepTicks
  intro s hempty
  have hstep : step s = .next s.tick := by rw [step, hempty]
  exact hstep

/-- Settles O3: a command is an event or a boot event, and both answer a next state. -/
theorem everyCommandGoesOn : Obligations.EveryCommandGoesOn := by
  unfold Obligations.EveryCommandGoesOn
  intro i s
  rcases exec_event_or_boot i s with h | h
  · exact h.next
  · exact h.next

end Sys2Proof.WholeMachine

/-! The form of the memories and the tables (R277, chapter 16): what a command changes keeps it. Every function of the model that changes a state has its
lemma, in the order of the model, with the form of the state that it is given as its hypothesis. -/
namespace Sys2Proof.Machine
open Sys2Proof

-- A default proof (:= by rfl) waits until all before it is checked: with the bodies checked side by side, each that waits would hold a thread.
set_option Elab.async false

/-- The tables list their keys in order, and the byte memories are in canonical form. -/
def CanonParts (regs : SMap Word) (cores : SMap Core) (hbm flash : SMap Byte) : Prop :=
  (regs.Rising ∧ cores.Rising) ∧ Memory.wf 0 hbm = true ∧ Memory.wf 0xFF flash = true ∧
    ∀ c, Memory.wf 0 (cores.lk {} c).rmem = true ∧ Memory.wf 0 (cores.lk {} c).imem = true

/-- A state's tables and memories are in the form that TablesOk and MemOk ask for. -/
def State.Canon (s : State) : Prop := CanonParts s.regs s.cores s.hbm s.kettle.flash

theorem canon_iff {s : State} : s.Canon ↔ s.TablesOk ∧ s.MemOk := Iff.rfl

/-- The byte memories of a core. -/
def Core.mems (k : Core) : SMap Byte × SMap Byte := (k.rmem, k.imem)

/-- They are in canonical form. -/
def Core.MemsOk (k : Core) : Prop := Memory.wf 0 k.mems.1 = true ∧ Memory.wf 0 k.mems.2 = true

/-- A result that may be none, or an answer that may stop, is a state in form. -/
def CanonOpt (o : Option State) : Prop := ∀ t, o = some t → t.Canon

/-- The same for a result that carries a value beside the state. -/
def CanonOptSnd {α : Type} (o : Option (α × State)) : Prop := ∀ x, o = some x → x.2.Canon

/-- The next state of an answer is in form. -/
def CanonNext (o : Host.Outcome State Fault Refusal) : Prop := ∀ t, o = .next t → t.Canon

/-- What a unit does with frames keeps the form. -/
def Unit.Keeps (u : Unit) : Prop :=
  (∀ (f : Frame) (s : State), s.Canon → (u.bad f s).Canon) ∧ (∀ (i : Nat) (f : Frame) (s : State), s.Canon → CanonOpt (u.use i f s)) ∧
    ∀ (i : Nat) (f : Frame) (s : State), s.Canon → (u.wait i f s).Canon

/-- Its parts. -/
theorem Unit.Keeps.bad {u : Unit} {f : Frame} {s : State} (hu : u.Keeps) (hs : s.Canon) : (u.bad f s).Canon := hu.1 f s hs

theorem Unit.Keeps.use {u : Unit} {i : Nat} {f : Frame} {s : State} (hu : u.Keeps) (hs : s.Canon) : CanonOpt (u.use i f s) := hu.2.1 i f s hs

theorem Unit.Keeps.wait {u : Unit} {i : Nat} {f : Frame} {s : State} (hu : u.Keeps) (hs : s.Canon) : (u.wait i f s).Canon := hu.2.2 i f s hs

/-- What a requester does with its repeats keeps the form. -/
def Requester.Keeps (u : Requester) : Prop := ∀ (id : Nat) (h : Cmd) (r : Nat) (s : State), s.Canon → CanonOpt (u.rep id h r s)

-- How effects are put together --------------------------------------------------------------------------------------------------------------

section
variable {s t u : State} {α β : Type} {c : Prop} [Decidable c]

/-- A change beside the registers, the cores, HBM and the flash. -/
theorem canon_beside {pending clock fuses free brews hbmOut book tele shadow net coll exp board brewAuth hbmUe hold kettle waking out} (hs : s.Canon)
    (hk : kettle.flash = s.kettle.flash := by rfl) :
    (State.mk pending clock fuses free s.regs s.cores brews s.hbm hbmOut book tele shadow net coll exp board brewAuth hbmUe hold kettle waking
      out).Canon := by
  unfold State.Canon
  rw [hk]
  exact hs

theorem canon_ite_snd2 {x y : α × β × State} (hx : x.2.2.Canon) (hy : y.2.2.Canon) : (if c then x else y).2.2.Canon := by
  split
  · exact hx
  · exact hy

theorem canon_ite (ht : t.Canon) (hu : u.Canon) : (if c then t else u).Canon := by
  split
  · exact ht
  · exact hu

theorem canon_ite_snd {x y : α × State} (hx : x.2.Canon) (hy : y.2.Canon) : (if c then x else y).2.Canon := by
  split
  · exact hx
  · exact hy

theorem canon_ite_fst {x y : State × α} (hx : x.1.Canon) (hy : y.1.Canon) : (if c then x else y).1.Canon := by
  split
  · exact hx
  · exact hy

/-- The state of a pair that has been taken apart. -/
theorem canon_snd {p : α × State} {a : α} (heq : p = (a, t)) (h : p.2.Canon) : t.Canon := by
  subst heq
  exact h

theorem canon_snd2 {p : α × β × State} {a : α} {b : β} (heq : p = (a, b, t)) (h : p.2.2.Canon) : t.Canon := by
  subst heq
  exact h

theorem canon_when {b : Bool} {f : State → State} (hs : s.Canon) (hf : ∀ s : State, s.Canon → (f s).Canon) : (s.when b f).Canon := canon_ite (hf s hs) hs

theorem canon_eachDo {l : List α} {f : α → State → State} (hs : s.Canon) (hf : ∀ (x : α) (s : State), s.Canon → (f x s).Canon) : (eachDo l f s).Canon :=
  eachDo_rel (R := fun s t => s.Canon → t.Canon) (fun _ => id) (fun _ _ _ h1 h2 => h2 ∘ h1) hf l s hs

theorem canon_foldl {l : List α} {f : State → α → State} (hs : s.Canon) (hf : ∀ (s : State) (x : α), s.Canon → (f s x).Canon) : (l.foldl f s).Canon :=
  canon_eachDo (f := fun x s => f s x) hs fun x s => hf s x

/-- A fold that carries a value beside the state. -/
theorem canon_foldl_snd {l : List α} {f : β × State → α → β × State} {a : β × State} (h : a.2.Canon)
    (hf : ∀ (a : β × State) (x : α), a.2.Canon → (f a x).2.Canon) : (l.foldl f a).2.Canon := by
  induction l generalizing a with
  | nil => exact h
  | cons x l ih => exact ih (hf a x h)

theorem canon_foldl_snd2 {γ : Type} {l : List α} {f : β × γ × State → α → β × γ × State} {a : β × γ × State} (h : a.2.2.Canon)
    (hf : ∀ (a : β × γ × State) (x : α), a.2.2.Canon → (f a x).2.2.Canon) : (l.foldl f a).2.2.Canon := by
  induction l generalizing a with
  | nil => exact h
  | cons x l ih => exact ih (hf a x h)

theorem canonOpt_none : CanonOpt none := fun _ h => absurd h.symm (Option.some_ne_none _)

theorem canonOpt_some (h : t.Canon) : CanonOpt (some t) := fun _ ht => Option.some.inj ht ▸ h

theorem canonOpt_ite {x y : Option State} (hx : CanonOpt x) (hy : CanonOpt y) : CanonOpt (if c then x else y) := by
  split
  · exact hx
  · exact hy

theorem canonOpt_map {o : Option State} {f : State → State} (ho : CanonOpt o) (hf : ∀ t : State, t.Canon → (f t).Canon) : CanonOpt (o.map f) := by
  intro t ht
  obtain ⟨u, hu, rfl⟩ := Option.map_eq_some_iff.1 ht
  exact hf u (ho u hu)

theorem canonOpt_map_of {o : Option α} {f : α → State} (hf : ∀ x : α, (f x).Canon) : CanonOpt (o.map f) := by
  intro t ht
  obtain ⟨x, -, rfl⟩ := Option.map_eq_some_iff.1 ht
  exact hf x

theorem canonOpt_bind {o : Option State} {f : State → Option State} (ho : CanonOpt o) (hf : ∀ t : State, t.Canon → CanonOpt (f t)) :
    CanonOpt (o.bind f) := by
  intro t ht
  obtain ⟨u, hu, hft⟩ := Option.bind_eq_some_iff.1 ht
  exact hf u (ho u hu) t hft

theorem canonOptSnd_none : CanonOptSnd (none : Option (α × State)) := fun _ h => absurd h.symm (Option.some_ne_none _)

theorem canonOptSnd_some {x : α × State} (h : x.2.Canon) : CanonOptSnd (some x) := fun _ hx => Option.some.inj hx ▸ h

theorem canonOptSnd_ite {x y : Option (α × State)} (hx : CanonOptSnd x) (hy : CanonOptSnd y) : CanonOptSnd (if c then x else y) := by
  split
  · exact hx
  · exact hy

theorem canonOptSnd_map {o : Option (α × State)} {f : α × State → β × State} (ho : CanonOptSnd o)
    (hf : ∀ x : α × State, x.2.Canon → (f x).2.Canon) : CanonOptSnd (o.map f) := by
  intro x hx
  obtain ⟨y, hy, rfl⟩ := Option.map_eq_some_iff.1 hx
  exact hf y (ho y hy)

/-- The state that a result gives, or the one before. -/
theorem canon_getD {o : Option State} (ho : CanonOpt o) (hs : s.Canon) : (o.getD s).Canon := by
  cases o with
  | none => exact hs
  | some t => exact ho t rfl

end

section
variable {s : State} {c : Nat} {k l : Core}

-- Cores -------------------------------------------------------------------------------------------------------------------------------------

/-- A change of a core beside its memories. -/
theorem memsOk_of_mems (hk : k.MemsOk) (h : l.mems = k.mems := by rfl) : l.MemsOk := by
  rw [Core.MemsOk, h]
  exact hk

theorem memsOk_ite {p : Prop} [Decidable p] (hk : k.MemsOk) (hl : l.MemsOk) : (if p then k else l).MemsOk := by
  split
  · exact hk
  · exact hl

/-- A core with other Rod memory. -/
theorem memsOk_rmem {m : SMap Byte} (hk : k.MemsOk) (hm : Memory.wf 0 m = true) : Core.MemsOk { k with rmem := m } := ⟨hm, hk.2⟩

theorem memsOk_imem {m : SMap Byte} (hk : k.MemsOk) (hm : Memory.wf 0 m = true) : Core.MemsOk { k with imem := m } := ⟨hk.1, hm⟩

/-- A core with other Beads. -/
theorem memsOk_beads {m : SMap Bead} {n : SMap Bool} (hk : k.MemsOk) : Core.MemsOk { k with beads := m, bflag := n } := hk

theorem memsOk_tset {m : SMap Nat} (hk : k.MemsOk) : Core.MemsOk { k with tset := m } := hk

theorem wf_foldl_put {α : Type} {l : List α} {m : SMap Byte} {key : α → Nat} {val : α → Byte} (hm : Memory.wf 0 m = true) :
    Memory.wf 0 (l.foldl (fun m x => m.put 0 (key x) (val x)) m) = true := by
  induction l generalizing m with
  | nil => exact hm
  | cons x l ih => exact ih (SMap.wf_put m 0 _ _ hm)

theorem memsOk_wrMem {a : Nat} {bs : List Byte} (hk : k.MemsOk) : (k.wrMem a bs).MemsOk := memsOk_rmem hk (wf_wrMem k a bs hk.1)

theorem memsOk_setGr {r : GReg} {w : Word} (hk : k.MemsOk) : (k.setGr r w).MemsOk := memsOk_ite hk (memsOk_of_mems hk)

theorem memsOk_worked {a b now : Nat} (hk : k.MemsOk) : (k.worked a b now).MemsOk := memsOk_ite (memsOk_of_mems hk) hk

theorem memsOk_zeroed : k.zeroed.MemsOk := ⟨rfl, rfl⟩

theorem memsOk_stepUsed {q : Nat} {w : CmdWord} (hk : k.MemsOk) : (stepUsed k q w).MemsOk := by
  unfold stepUsed
  extract_lets p go
  have hgo (b : Bool) (i : Nat) {k : Core} (hk : k.MemsOk) : (go b i k).MemsOk := memsOk_ite (memsOk_of_mems hk) hk
  exact memsOk_ite hk (hgo _ _ (hgo _ _ (hgo _ _ hk)))

theorem memsOk_enqueue {q : Nat} {w : CmdWord} (hk : k.MemsOk) : (enqueue k q w).MemsOk := memsOk_of_mems (memsOk_stepUsed (q := q) (w := w) hk)

theorem memsOk_clearBeads {slot n : Nat} (hk : k.MemsOk) : (clearBeads k slot n).MemsOk := by
  unfold clearBeads
  exact memsOk_beads hk

theorem memsOk_addBeads {slot : Nat} {vs : List Int} (hk : k.MemsOk) : (addBeads k slot vs).MemsOk := by
  unfold addBeads
  exact memsOk_beads hk

theorem memsOk_advance (hk : k.MemsOk) : k.advance.MemsOk := hk

theorem memsOk_setAr {i : Nat} {x : AReg} (hk : k.MemsOk) : (k.setAr i x).MemsOk := hk

theorem memsOk_touch {p a n : Nat} {w : Bool} (hk : k.MemsOk) : (k.touch p a n w).MemsOk := hk

/-- The memories of a core of a state in form. -/
theorem memsOk_core (hs : s.Canon) : (s.core c).MemsOk := by
  obtain ⟨-, -, -, hcores⟩ := hs
  exact hcores c

-- Registers and cores of the state ----------------------------------------------------------------------------------------------------------

/-- HBM with other bytes. -/
theorem canon_hbm {m : SMap Byte} (hs : s.Canon) (hm : Memory.wf 0 m = true) : ({ s with hbm := m } : State).Canon := by
  obtain ⟨htables, -, hrest⟩ := hs
  exact ⟨htables, hm, hrest⟩

theorem rising_filter {α : Type} {m : SMap α} {p : Nat × α → Bool} (h : m.Rising) : SMap.Rising (m.filter p) :=
  h.sublist (List.Sublist.map _ List.filter_sublist)

theorem wf_filter {m : SMap Byte} {d : Byte} {p : Nat × Byte → Bool} (h : Memory.wf d m = true) : Memory.wf d (m.filter p) = true := by
  obtain ⟨hrising, hne⟩ := SMap.wf_iff.1 h
  exact SMap.wf_iff.2 ⟨rising_filter hrising, fun x hx => hne x (List.mem_of_mem_filter hx)⟩

/-- Other registers, in order. -/
theorem canon_regs {m : SMap Word} (hs : s.Canon) (hm : m.Rising) : ({ s with regs := m } : State).Canon := by
  obtain ⟨⟨-, hcores⟩, hmem⟩ := hs
  exact ⟨⟨hm, hcores⟩, hmem⟩

theorem rising_regs (hs : s.Canon) : s.regs.Rising := by
  obtain ⟨⟨hregs, -⟩, -⟩ := hs
  exact hregs

theorem canon_flash {k : Kettle} (hs : s.Canon) (hk : Memory.wf 0xFF k.flash = true) : ({ s with kettle := k } : State).Canon := by
  obtain ⟨htables, hhbm, -, hcores⟩ := hs
  exact ⟨htables, hhbm, hk, hcores⟩

theorem wf_flash (hs : s.Canon) : Memory.wf 0xFF s.kettle.flash = true := by
  obtain ⟨-, -, hflash, -⟩ := hs
  exact hflash

theorem wf_hbm (hs : s.Canon) : Memory.wf 0 s.hbm = true := by
  obtain ⟨-, hhbm, -⟩ := hs
  exact hhbm

/-- Registers in order and no core and no byte of HBM beside the flash. -/
theorem canon_fresh {t : State} (hregs : t.regs.Rising) (hcores : t.cores = []) (hhbm : t.hbm = []) (hflash : Memory.wf 0xFF t.kettle.flash = true) :
    t.Canon := by
  unfold State.Canon
  rw [hcores, hhbm]
  exact ⟨⟨hregs, .nil⟩, rfl, hflash, fun _ => ⟨rfl, rfl⟩⟩

/-- A core whose memories are in form takes its place. -/
theorem canon_setCore_mems (hs : s.Canon) (hk : k.MemsOk) : (s.setCore c k).Canon := by
  obtain ⟨htables, hmem⟩ := hs
  exact ⟨tablesOk_modCore (g := fun _ => k) htables, memOk_modCore (g := fun _ => k) htables hmem hk⟩

/-- A core whose memories are as before takes its place. -/
theorem canon_setCore (hs : s.Canon) (hk : k.mems = (s.core c).mems := by rfl) : (s.setCore c k).Canon :=
  canon_setCore_mems hs (memsOk_of_mems (memsOk_core hs) hk)

theorem canon_modCore_mems {f : Core → Core} (hs : s.Canon) (hf : ∀ k : Core, k.MemsOk → (f k).MemsOk) : (s.modCore c f).Canon :=
  canon_setCore_mems hs (hf _ (memsOk_core hs))

/-- Work on a core that leaves its memories. -/
theorem canon_modCore {f : Core → Core} (hs : s.Canon) (hf : ∀ k : Core, (f k).mems = k.mems := by exact fun _ => rfl) : (s.modCore c f).Canon :=
  canon_setCore hs (hf _)

theorem canon_setReg {r : Reg} {i : Nat} {w : Word} (hs : s.Canon) : (s.setReg r i w).Canon := by
  obtain ⟨⟨hregs, hcores⟩, hmem⟩ := hs
  exact ⟨⟨s.rising_setReg r i w hregs, hcores⟩, hmem⟩

theorem canon_setFld {f : Fld} {i v : Nat} (hs : s.Canon) : (s.setFld f i v).Canon := canon_setReg hs

theorem canon_bumpN {f : Fld} {i n : Nat} (hs : s.Canon) : (s.bumpN f i n).Canon := canon_setReg hs

theorem canon_bump {f : Fld} {i : Nat} (hs : s.Canon) : (s.bump f i).Canon := canon_setReg hs

theorem canon_raise {f : Fld} {i v : Nat} (hs : s.Canon) : (s.raise f i v).Canon := canon_setReg hs

end

-- Rows --------------------------------------------------------------------------------------------------------------------------------------

section
variable {s : State} {b : Bool} {f : State → State}

theorem canonNext_ite {p : Prop} [Decidable p] {x y : Host.Outcome State Fault Refusal} (hx : CanonNext x) (hy : CanonNext y) :
    CanonNext (if p then x else y) := by
  split
  · exact hx
  · exact hy

theorem canonNext_next (hs : s.Canon) : CanonNext (.next s) := fun _ ht => Host.Outcome.next.inj ht ▸ hs

theorem canonNext_act (hs : s.Canon) (hf : ∀ t : State, t.Canon → (f t).Canon) : CanonNext (act f s) :=
  canonNext_next (canon_beside (hf _ (canon_beside hs)))

theorem canonNext_actIf (hs : s.Canon) (hf : ∀ t : State, t.Canon → (f t).Canon) : CanonNext (actIf b f s) := by
  unfold actIf
  split
  · exact canonNext_act hs hf
  · exact canonNext_next hs

theorem canonNext_actAllIf (hs : s.Canon) (hf : ∀ t : State, t.Canon → (f t).Canon) : CanonNext (actAllIf b f s) := by
  unfold actAllIf
  split
  · exact canonNext_next (canon_beside (hf _ (canon_beside hs)))
  · exact canonNext_next hs

end

end Sys2Proof.Machine

/-! The form kept: records, HBM, the shadow checks and Caddy's buffers (R252 to R263, R352 to R355, R361 to R364). -/
namespace Sys2Proof.Machine
open Sys2Proof

set_option Elab.async false

section
variable {s : State} (hs : s.Canon)
include hs

theorem canon_wakeIsland {n : Nat} : (s.wakeIsland n).Canon := canon_ite (canon_beside hs) hs

theorem canon_freed : s.freed.Canon := canon_beside hs

theorem canon_freeRod {c : Nat} {as : List Nat} : (freeRod c as s).Canon :=
  canon_ite hs (canon_beside (canon_modCore_mems hs fun _ hk => memsOk_rmem hk (wf_foldl_put hk.1)))

theorem canon_sharedDo {c p : Nat} {sps : List Span} {f : State → State} (hf : ∀ t : State, t.Canon → (f t).Canon) : (sharedDo c p sps f s).Canon :=
  canon_freeRod (hf _ (canon_freeRod (canon_modCore hs)))

theorem canon_sharedTry {c p : Nat} {sps : List Span} {f : State → Option State} (hf : ∀ t : State, t.Canon → CanonOpt (f t)) :
    CanonOpt (sharedTry c p sps f s) :=
  canonOpt_map (hf _ (canon_freeRod (canon_modCore hs))) fun _ ht => canon_freeRod ht

theorem canon_bookPut {r : Rec} : (bookPut r s).Canon :=
  canon_ite (canon_beside hs) (canon_ite (canon_bump hs) (canon_ite (canon_bump (canon_beside hs)) (canon_bump hs)))

theorem canon_newRec {typ die : Nat} {pay : List Word} : (newRec typ die pay s).2.Canon := canon_beside hs

theorem canon_flushCoal : (flushCoal s).Canon := canon_eachDo (canon_beside hs) fun _ _ ht => canon_bookPut (canon_beside ht)

theorem canon_bookEvent {r : Rec} : (bookEvent r s).Canon := by
  unfold bookEvent
  extract_lets same _ upd
  split
  · exact canon_bookPut (canon_beside hs)
  · exact canon_ite (canon_bookPut (canon_beside hs)) (canon_beside hs)

theorem canon_bookExcess {r : Rec} : (bookExcess r s).Canon := canon_ite (canon_beside hs) (canon_beside hs)

theorem canon_addRec {typ die : Nat} {pay : List Word} : (addRec typ die pay s).Canon :=
  canon_bookEvent (canon_beside (canon_beside (canon_flushCoal hs)))

theorem canon_addStreamRec {typ die : Nat} {pay : List Word} : (addStreamRec typ die pay s).Canon := canon_beside (canon_beside hs)

theorem canon_addPeriodic {toBook : Bool} {typ die : Nat} {pay : List Word} : (addPeriodic toBook typ die pay s).Canon :=
  canon_ite (canon_bookPut (canon_beside (canon_beside hs))) (canon_beside (canon_beside hs))

theorem canon_faultRec {die : Nat} {w2 : Word} {core : Nat} : (faultRec die w2 core s).Canon := canon_addRec hs

theorem canon_raiseFault {f : Fld} {die : Nat} {w2 : Word} {core : Nat} : (raiseFault f die w2 core s).Canon := canon_faultRec (canon_setFld hs)

theorem canon_coreFault {c : Nat} {e : RodErr} {q : Nat} {addr : BitVec 16} : (coreFault c e q addr s).Canon :=
  canon_ite (canon_setCore hs) (canon_faultRec (canon_setCore hs))

theorem canon_quizRec {kind index die result expected obtained : Nat} : (quizRec kind index die result expected obtained s).Canon :=
  canon_ite (canon_addRec hs) (canon_addStreamRec hs)

theorem canon_quizRecFree {kind index die result : Nat} : (quizRecFree kind index die result s).Canon := canon_quizRec (canon_beside hs)

theorem canon_signalAs {c t q p : Nat} {addr : BitVec 16} : (signalAs c t q p addr s).Canon := canon_ite (canon_coreFault hs) (canon_setCore hs)

theorem canon_signalTok {c t q : Nat} {addr : BitVec 16} : (signalTok c t q addr s).Canon := canon_signalAs hs

theorem canon_stepRecord {c slot : Nat} : (stepRecord c slot s).Canon := by
  unfold stepRecord
  extract_lets k valid w toks
  split
  rename_i r s1 hstep
  have hs1 : s1.Canon := canon_snd hstep (canon_newRec hs)
  split
  rename_i t s2 htok
  have hs2 : s2.Canon := canon_snd htok (canon_ite_snd (canon_newRec (die := coreDie c) (typ := 15) (pay := [w, k.tokWord 0, k.tokWord 8]) hs1) hs1)
  extract_lets old keepOld tele s3 last excess book put
  have hs3 : s3.Canon := canon_ite hs2 (canon_beside hs2)
  have hexcess : excess.Canon := canon_bookExcess hs3
  have hput : put.Canon := canon_bookPut (canon_beside hs3)
  clear_value excess put
  refine canon_setFld (canon_ite (canon_ite ?_ ?_) hs3)
  · cases t with
    | some t => exact canon_bookExcess hexcess
    | none => exact hexcess
  · cases t with
    | some t => exact canon_bookPut hput
    | none => exact hput

theorem canon_hbmHeal {off n : Nat} : (hbmHeal off n s).Canon := canon_eachDo hs fun _ _ ht => canon_beside ht

theorem canon_spoilHbm {off n : Nat} : (spoilHbm off n s).Canon := canon_beside hs

theorem canon_memWr {off : Nat} {bs : List Byte} : (memWr off bs s).Canon := by
  obtain ⟨htables, hmem⟩ := canon_iff.1 hs
  exact canon_iff.2 (FabricMemory.memoryWriteKeepsForm s off bs htables hmem).symm

theorem canon_windowDo {c : Nat} {sps : List Span} {f : State → State} (hf : ∀ t : State, t.Canon → (f t).Canon) : (windowDo c sps f s).Canon :=
  canon_sharedDo hs fun _ ht => hf _ ht

theorem canon_windowWr {off : Nat} {bs : List Byte} : (windowWr off bs s).Canon := by
  unfold windowWr
  split
  · exact canon_windowDo hs fun _ ht => canon_memWr ht
  · exact canon_memWr hs

theorem canon_countForeign {i : Nat} {src : Fnid} : (countForeign i src s).Canon :=
  canon_ite (canon_bump hs) (canon_addRec (canon_setFld (canon_setFld (canon_bump hs))))

theorem canon_hbmAccess {src : Fnid} {write : Bool} {off n : Nat} : (hbmAccess src write off n s).2.Canon := by
  unfold hbmAccess
  split
  · exact hs
  · exact canon_ite_snd (canon_countForeign hs) hs

theorem canon_addBeadTally {t : Tal} : (addBeadTally t s).Canon := canon_foldl hs fun _ _ ht => canon_ite ht (canon_bumpN ht)

theorem canon_addCoreTal {c set : Nat} {t : Tal} : (addCoreTal c set t s).Canon := canon_addBeadTally (canon_modCore hs)

theorem canon_hazard {c : Nat} {h : Hazard} {reg rep : Nat} {pc : BitVec 16} : (hazard c h reg rep pc s).Canon :=
  canon_ite (canon_bump hs) (canon_setReg (canon_bump hs))

theorem canon_makeVisible {c : Nat} {p : VPend} : (makeVisible c p s).Canon := canon_ite (canon_hazard (canon_setCore hs)) (canon_setCore hs)

theorem canon_commitVec {c slot : Nat} : (commitVec c slot s).Canon := canon_eachDo (canon_setCore hs) fun _ _ ht => canon_makeVisible ht

theorem canon_drainVec {c : Nat} : (drainVec c s).Canon := canon_eachDo (canon_setCore hs) fun _ _ ht => canon_makeVisible ht

theorem canon_readHazard {c r rep : Nat} {pc : BitVec 16} : (readHazard c r rep pc s).Canon :=
  canon_ite (canon_hazard hs) (canon_ite hs (canon_hazard hs))

theorem canon_writeVec {c r lat rep : Nat} {pc : BitVec 16} {lanes : List Lane} : (writeVec c r lat rep pc lanes s).Canon := canon_modCore hs

theorem canon_countEmpty {c : Nat} : (countEmpty c s).Canon := canon_bump hs

theorem canon_countStrictRej {c : Nat} : (countStrictRej c s).Canon := canon_bump (canon_bump hs)

theorem canon_shadowCount {c : Nat} : (shadowCount c s).Canon := canon_beside hs

theorem canon_shadowSample {kind c : Nat} {ref blk step : Word} {ins : ShadowIn} {out : List Byte} :
    (shadowSample kind c ref blk step ins out s).Canon := by
  unfold shadowSample
  extract_lets d s1 n rate load
  have hs1 : s1.Canon := canon_shadowCount hs
  refine canon_ite hs1 ?_
  split
  · exact canon_bump hs1
  · exact canon_beside hs1

theorem canon_setPort {p : Nat} {x : Port} : (s.setPort p x).Canon := canon_beside hs

theorem canon_modPort {p : Nat} {f : Port → Port} : (s.modPort p f).Canon := canon_setPort hs

theorem canon_setLstate {p n : Nat} : (s.setLstate p n).Canon := canon_setFld hs

theorem canon_emit {o : Out} : (s.emit o).Canon := canon_beside hs

theorem canon_sendWord {p lt v : Nat} : (sendWord p lt v s).Canon := by
  unfold sendWord
  extract_lets x
  refine canon_ite hs ?_
  split
  · exact canon_emit hs
  · exact canon_ite hs (canon_setPort hs)

theorem canon_flushWords {p : Nat} : (flushWords p s).Canon := canon_eachDo (canon_setPort hs) fun _ _ ht => canon_emit ht

theorem canon_repay {o : Owe} : (repay o s).Canon := canon_ite hs (canon_sendWord (canon_setPort hs))

theorem canon_setSlotHeld {r : Nat} {l : List Nat} : (s.setSlotHeld r l).Canon := canon_raise (canon_setFld (canon_beside hs))

theorem canon_slotTake {r n : Nat} : CanonOptSnd (slotTake r n s) := by
  induction n generalizing s with
  | zero => exact canonOptSnd_some hs
  | succ n ih =>
    unfold slotTake
    split
    · exact canonOptSnd_none
    · dsimp only
      split
      · exact canonOptSnd_none
      · next heq =>
        have ht := ih (canon_bumpN (canon_setSlotHeld hs)) _ heq
        exact canonOptSnd_some ht

theorem canon_slotShared {r n : Nat} : CanonOptSnd (slotShared r n s) := by
  induction n generalizing s with
  | zero => exact canonOptSnd_some hs
  | succ n ih =>
    unfold slotShared
    dsimp only
    split
    · exact canonOptSnd_none
    · split
      · exact canonOptSnd_none
      · next heq =>
        have ht := ih (canon_bumpN (canon_setSlotHeld hs)) _ heq
        exact canonOptSnd_some ht

theorem canon_slotFree {r : Nat} {held : List Nat} : (slotFree r held s).Canon := canon_setSlotHeld hs

theorem canon_looseTake {d n : Nat} : CanonOptSnd (looseTake d n s) := by
  induction n generalizing s with
  | zero => exact canonOptSnd_some hs
  | succ n ih =>
    unfold looseTake
    split
    · exact canonOptSnd_none
    · dsimp only
      split
      · exact canonOptSnd_none
      · next heq =>
        have ht := ih (canon_beside hs) _ heq
        exact canonOptSnd_some ht

theorem canon_looseFree {d : Nat} {held : List Nat} : (looseFree d held s).Canon := canon_beside hs

theorem canon_setPart {i : Nat} {p : Option Part} : (s.setPart i p).Canon := canon_beside hs

theorem canon_partTake1 {i k : Nat} : CanonOptSnd (partTake1 i k s) := by
  unfold partTake1
  split
  · exact canonOptSnd_none
  · split
    · exact canonOptSnd_none
    · exact canonOptSnd_some (canon_raise (canon_bumpN (canon_setPart hs)))

theorem canon_partTake {i k n : Nat} : CanonOptSnd (partTake i k n s) := by
  induction n generalizing s with
  | zero => exact canonOptSnd_some hs
  | succ n ih =>
    unfold partTake
    split
    · exact canonOptSnd_none
    · next hone =>
      split
      · exact canonOptSnd_none
      · next heq =>
        have ht := canon_partTake1 hs _ hone
        have hu := ih ht _ heq
        exact canonOptSnd_some hu

theorem canon_partFree {i : Nat} {held : List Nat} : (partFree i held s).Canon := by
  unfold partFree
  split
  · exact hs
  · exact canon_ite (canon_setPart hs) (canon_setPart hs)

theorem canon_partTake0 {i n : Nat} : (partTake0 i n s).Canon := by
  unfold partTake0
  split
  · exact hs
  · exact canon_raise (canon_setPart hs)

theorem canon_uncharge {c : Charge} : (uncharge c s).Canon := by
  induction c generalizing s with
  | none => exact hs
  | slot => exact canon_slotFree hs
  | part => exact canon_partFree hs
  | pool => exact canon_looseFree hs
  | cross | release => exact canon_beside hs
  | both a b iha ihb => exact ihb (iha hs)

theorem canon_setBuf {i : Nat} {b : Option Buf} : (s.setBuf i b).Canon := canon_beside hs

theorem canon_store {b : Buf} : (store b s).2.Canon := canon_setBuf (canon_beside hs)

theorem canon_recharge {i : Nat} {c : Charge} : (recharge i c s).Canon := by
  unfold recharge
  split
  · exact hs
  · extract_lets s1
    have hs1 : s1.Canon := canon_setBuf (canon_uncharge hs)
    split
    · exact hs1
    · exact canon_repay hs1

theorem canon_unrefOne {i n : Nat} : (unrefOne i n s).Canon := by
  unfold unrefOne
  split
  · exact canon_ite hs (canon_raiseFault (canon_bump hs))
  · exact canon_ite (canon_setBuf hs) (canon_setBuf (canon_recharge hs))

theorem canon_unref {i n : Nat} : (unref i n s).Canon := by
  unfold unref
  split
  · exact canon_unrefOne hs
  · extract_lets s1
    have hs1 : s1.Canon := canon_unrefOne hs
    split
    · exact canon_ite hs1 (canon_unrefOne hs1)
    · exact hs1

theorem canon_discard {i : Nat} : (discard i s).Canon := canon_unref hs

theorem canon_copyCharge {b : Buf} : CanonOptSnd (copyCharge b s) := by
  unfold copyCharge
  extract_lets smallest
  split
  · exact canonOptSnd_map (canon_partTake hs) fun _ ht => ht
  · exact canonOptSnd_map (canon_slotTake hs) fun _ ht => ht
  · exact canonOptSnd_map (canon_looseTake hs) fun _ ht => ht

theorem canon_addRefN {n i : Nat} : CanonOptSnd (addRefN n i s) := by
  induction n using Nat.strong_induction_on generalizing i with
  | _ n ih =>
    unfold addRefN
    split
    · exact canonOptSnd_some hs
    · refine canonOptSnd_ite (canonOptSnd_some (canon_setBuf hs)) ?_
      split
      · exact ih _ (Nat.lt_succ_self _)
      · split
        · exact canonOptSnd_none
        · next heq => exact canonOptSnd_some (canon_setBuf (canon_store (canon_copyCharge (canon_bump hs) _ heq)))

theorem canon_addRef {i : Nat} : CanonOptSnd (addRef i s) := canon_addRefN hs

theorem canon_toInbox {i : Nat} : (toInbox i s).Canon := canon_beside hs

theorem canon_countWait {i part : Nat} : (countWait i part s).Canon := by
  unfold countWait
  split
  · exact hs
  · exact canon_ite hs (canon_bump (canon_setBuf hs))

theorem canon_crossCount {a b : Nat} {f : Frame} : (crossCount a b f s).Canon := canon_when hs fun _ ht => canon_bump ht

theorem canon_partHold {i j : Nat} : CanonOpt (partHold i j s) := by
  unfold partHold
  split
  · exact canonOpt_none
  · extract_lets n d s1
    have hs1 : s1.Canon := canon_recharge (canon_partTake0 (canon_crossCount hs))
    refine canonOpt_ite ?_ canonOpt_none
    split
    · exact canonOpt_some hs1
    · exact canonOpt_some (canon_setBuf hs1)

theorem canon_partPass {part i : Nat} : CanonOpt (partPass part i s) := by
  unfold partPass
  split
  · exact canonOpt_some hs
  · refine canonOpt_ite (canonOpt_ite (canonOpt_some (canon_discard (canon_partFree (canon_partTake0 (canon_crossCount hs))))) canonOpt_none) ?_
    split
    · exact canonOpt_none
    · rename_i s1 heq1
      have hs1 : s1.Canon := canon_partHold hs _ heq1
      exact canonOpt_some (canon_discard hs1)

end

end Sys2Proof.Machine

/-! The form kept: the cores and their engines (R64 to R98, R428). -/
namespace Sys2Proof.Machine
open Sys2Proof

set_option Elab.async false

section
variable {s : State} (hs : s.Canon)
include hs

theorem canonNext_ctl {c : CoreId} {i : Instr} {f : Core → Core} (hf : ∀ k : Core, k.MemsOk → (f k).MemsOk) : CanonNext (ctl c i f s) :=
  canonNext_actIf hs fun _ ht => canon_setCore_mems ht (hf _ (memsOk_core ht))

theorem canonNext_ctlRd {c : CoreId} {i : Instr} {rd : GReg} {v : Core → Word} : CanonNext (ctlRd c i rd v s) :=
  canonNext_ctl hs fun _ hk => memsOk_advance (memsOk_setGr hk)

theorem canonNext_alu {c : CoreId} {i : Instr} {rd rs1 rs2 : GReg} {f : Word → Word → Word} : CanonNext (alu c i rd rs1 rs2 f s) := canonNext_ctlRd hs

theorem canon_enterCoreSt {c : Nat} {st : CoreSt} : (enterCoreSt c st s).Canon := canon_ite (canon_setCore hs) (canon_setCore hs)

theorem canon_takeRelease {c slot : Nat} : (takeRelease c slot s).Canon := canon_enterCoreSt (canon_modCore hs)

theorem canon_acceptRelease {slot c : Nat} : (acceptRelease slot c s).Canon := by
  unfold acceptRelease
  extract_lets k
  split
  · exact canon_takeRelease hs
  · exact canon_takeRelease hs
  · exact canon_ite (canon_coreFault (canon_setCore hs)) (canon_setCore hs)
  · exact canon_ite (canon_coreFault (canon_setCore hs)) (canon_setCore hs)
  · exact canon_ite (canon_coreFault (canon_setCore hs)) (canon_setCore hs)
  · exact hs
  · exact hs

theorem canon_releaseCore {slot c : Nat} : (releaseCore slot c s).Canon := canon_acceptRelease (canon_stepRecord hs)

theorem canon_haltSet {c : Nat} : (haltSet c s).Canon := canon_ite (canon_setCore (canon_setFld hs)) (canon_setFld hs)

theorem canon_haltClear {c : Nat} : (haltClear c s).Canon := by
  unfold haltClear
  extract_lets s1 k s2
  have hs1 : s1.Canon := canon_setFld hs
  have hs2 : s2.Canon := canon_setCore hs1
  refine canon_ite (canon_ite ?_ hs2) hs1
  split
  · exact canon_takeRelease hs2
  · exact hs2

theorem canonNext_ctlLoad {c : CoreId} {i : Instr} {rd rs1 : GReg} {imm : BitVec 16} {w : Nat} : CanonNext (ctlLoad c i rd rs1 imm w s) := by
  refine canonNext_actIf hs fun t ht => canon_ite (canon_beside (canon_setCore_mems ht ?_)) (canon_coreFault ht)
  exact memsOk_advance (memsOk_setGr (memsOk_touch (memsOk_core ht)))

theorem canonNext_ctlStore {c : CoreId} {i : Instr} {rs rs1 : GReg} {imm : BitVec 16} {w : Nat} : CanonNext (ctlStore c i rs rs1 imm w s) := by
  refine canonNext_actIf hs fun t ht => canon_ite (canon_freeRod (canon_setCore_mems ht ?_)) (canon_coreFault ht)
  exact memsOk_advance (memsOk_wrMem (memsOk_core ht))

theorem canonNext_branch {c : CoreId} {i : Instr} {rs1 rs2 : GReg} {off : BitVec 16} {p : Word → Word → Bool} :
    CanonNext (branch c i rs1 rs2 off p s) :=
  canonNext_ctl hs fun k hk => memsOk_ite (memsOk_of_mems (k := k) hk) (memsOk_advance hk)

theorem canon_popHead {c q : Nat} : (popHead c q s).Canon := by
  unfold popHead
  refine canon_modCore_mems hs fun _ ht => ?_
  extract_lets x
  split
  · exact ht
  · extract_lets k1 k2
    refine memsOk_ite (memsOk_of_mems (memsOk_of_mems (memsOk_of_mems (memsOk_of_mems ht)))) (memsOk_of_mems (memsOk_of_mems (memsOk_of_mems ht)))

theorem canon_grantTok {c t : Nat} : (grantTok c t s).Canon := by
  unfold grantTok
  extract_lets k
  split
  · exact canon_setCore hs
  · split
    · exact canon_ite (canon_enterCoreSt (canon_setCore hs)) hs
    · exact hs

theorem canon_pushEffect {c : CoreId} {q : QueueId} {rs1 rs2 : GReg} : (pushEffect c q rs1 rs2 s).Canon :=
  canon_ite (canon_modCore (canon_coreFault hs)) (canon_ite (canon_setCore_mems hs (memsOk_enqueue (memsOk_core hs))) (canon_setCore hs))

theorem canonNext_execPushStallEnd {c : CoreId} : CanonNext (execPushStallEnd c s) := by
  unfold execPushStallEnd
  extract_lets k
  split
  · exact canonNext_actIf hs fun _ ht => canon_enterCoreSt (canon_setCore_mems ht (memsOk_of_mems (memsOk_enqueue (memsOk_core hs))))
  · exact canonNext_next hs

theorem canon_tsigEffect {c : CoreId} {t : Sel} : (tsigEffect c t s).Canon := canon_ite (canon_coreFault hs) (canon_signalTok (canon_setCore hs))

theorem canon_twaitEffect {c : CoreId} {t : Sel} : (twaitEffect c t s).Canon :=
  canon_setCore_mems hs (memsOk_ite (memsOk_advance (memsOk_of_mems (memsOk_core hs))) (memsOk_of_mems (memsOk_core hs)))

theorem canon_strictZero {c : CoreId} {rd : GReg} : (strictZero c rd s).Canon :=
  canon_countStrictRej (canon_setCore_mems hs (memsOk_advance (memsOk_setGr (memsOk_core hs))))

theorem canon_rdcycEffect {c : CoreId} {rd : GReg} : (rdcycEffect c rd s).Canon :=
  canon_ite (canon_strictZero hs) (canon_setCore_mems hs (memsOk_advance (memsOk_setGr (memsOk_core hs))))

theorem canon_rdentEffect {c : CoreId} {rd : GReg} : (rdentEffect c rd s).Canon :=
  canon_ite (canon_strictZero hs) (canon_freed (canon_setCore_mems hs (memsOk_advance (memsOk_setGr (memsOk_core hs)))))

theorem canonNext_execStepwaitEnter {c : CoreId} : CanonNext (execStepwaitEnter c s) := by
  unfold execStepwaitEnter
  extract_lets k
  refine canonNext_actIf hs fun _ ht => canon_ite ?_ (canon_enterCoreSt (canon_modCore (canon_drainVec ht)))
  split
  · exact canon_takeRelease (canon_enterCoreSt (canon_modCore (canon_drainVec ht)))
  · exact canon_enterCoreSt (canon_modCore (canon_drainVec ht))

theorem canon_haltEffect {c : CoreId} : (haltEffect c s).Canon := canon_haltSet (canon_setCore hs)

theorem canon_illegalInstructionEffect {c : CoreId} : (illegalInstructionEffect c s).Canon := canon_coreFault hs

theorem canon_signalBy {c q p : Nat} {h : Cmd} : (signalBy c q p h s).Canon := canon_ite (canon_signalAs hs) hs

theorem canon_signalDone {c q : Nat} {h : Cmd} : (signalDone c q h s).Canon := canon_signalBy hs

theorem canon_vqSlot {c : Nat} {rep : Cmd → Nat → State → State} {h : Cmd} {r : Nat}
    (hrep : ∀ (x : Cmd) (x1 : Nat) (t : State), t.Canon → (rep x x1 t).Canon) : (vqSlot c rep h s r).Canon :=
  canon_modCore (hrep _ _ _ (canon_commitVec hs))

theorem canon_vqIssue {c : Nat} {h : Cmd} : (vqIssue c h s).Canon := canon_when (canon_popHead hs) fun _ ht => canon_drainVec ht

theorem canon_vqFin {c : Nat} {h : Cmd} : (vqFin c h s).Canon := canon_signalDone (canon_when hs (fun _ ht => canon_drainVec ht))

theorem canon_vqBusy {c : Nat} {h : Cmd} : (vqBusy c h s).Canon := canon_modCore_mems hs fun _ ht => memsOk_worked ht

theorem canon_vqWork {c : Nat} {h : Cmd} {rep : Cmd → Nat → State → State} (hrep : ∀ (x : Cmd) (x1 : Nat) (t : State), t.Canon → (rep x x1 t).Canon) :
    (vqWork c h rep s).Canon :=
  canon_vqFin (canon_sharedDo (canon_vqBusy (canon_vqIssue hs)) (fun _ ht => canon_foldl ht (fun _ _ hu => canon_vqSlot hu (fun _ _ _ hv => hrep _ _
    _ hv))))

theorem canonNext_vqRun {c : CoreId} {opc : Nat} {chk : State → Cmd → Nat → Bool} {rep : Cmd → Nat → State → State}
    (hrep : ∀ (x : Cmd) (x1 : Nat) (t : State), t.Canon → (rep x x1 t).Canon) : CanonNext (vqRun c opc chk rep s) := by
  unfold vqRun
  split
  · exact canonNext_actIf hs (fun _ ht => canon_ite (canon_vqFin (canon_countEmpty (canon_vqIssue ht))) (canon_ite (canon_vqWork ht (fun _ _ _ hu =>
    hrep _ _ _ hu)) (canon_coreFault (canon_vqIssue ht))))
  · exact canonNext_next hs

theorem canon_vecOp {c : Nat} {h : Cmd} {r : Nat} {reads : List Nat} {lat : Nat} {f : List (List Lane) → List Lane} :
    (vecOp c h r reads lat f s).Canon :=
  canon_writeVec (canon_eachDo hs (fun _ _ ht => canon_readHazard ht))

theorem canon_vec2 {c : Nat} {h : Cmd} {r lat : Nat} {f : Lane → Lane → Lane} : (vec2 c h r lat f s).Canon := canon_vecOp hs

theorem canon_vec3 {c : Nat} {h : Cmd} {r lat : Nat} {f : Lane → Lane → Lane → Lane} : (vec3 c h r lat f s).Canon := canon_vecOp hs

theorem canon_vecStore {c : Nat} {h : Cmd} {r : Nat} {f : List Lane → List Byte} : (vecStore c h r f s).Canon :=
  canon_modCore_mems (canon_readHazard hs) fun _ ht => memsOk_wrMem ht

theorem canon_vecMax {c : Nat} {h : Cmd} {r : Nat} : (vecMax c h r s).Canon := canon_vecOp hs

theorem canon_vecSel {c : Nat} {h : Cmd} {r : Nat} {least : Bool} : (vecSel c h r least s).Canon := canon_vecOp hs

theorem canon_codeHazard {c : Nat} {h : Cmd} {r : Nat} : (codeHazard c h r s).Canon := canon_when hs fun _ ht => canon_readHazard ht

theorem canon_enterBeads {c slot : Nat} {isInt : Bool} {codeOf : Nat → Nat} {xs : List Cls} : (enterBeads c isInt codeOf slot xs s).1.Canon := by
  unfold enterBeads
  dsimp only
  exact canon_modCore hs

theorem canon_enterRep {c : Nat} {h : Cmd} {r : Nat} {gate : Option Dec} : (enterRep c h r gate s).Canon :=
  canon_addCoreTal (canon_enterBeads (canon_codeHazard hs))

theorem canon_bmacRep {c r : Nat} {h : Cmd} : (bmacRep c h r s).Canon := by
  unfold bmacRep
  exact canon_enterRep (canon_readHazard hs)

theorem canon_bexpRep {c : Nat} {h : Cmd} {r : Nat} : (bexpRep c h r s).Canon := by
  unfold bexpRep
  exact canon_vecOp hs

theorem canon_boutRep {c : Nat} {h : Cmd} {r : Nat} : (boutRep c h r s).Canon :=
  canon_addCoreTal (canon_setCore_mems (canon_codeHazard hs) (memsOk_wrMem (memsOk_core (canon_codeHazard hs))))

theorem canon_offerTile {c : Nat} {ps : List Nat} : (offerTile c ps s).2.Canon := by
  unfold offerTile
  extract_lets q
  split
  rename_i s1 heq
  have hs1 : s1.Canon := canon_snd heq (canon_ite_snd hs (canon_freed hs))
  exact canon_modCore hs1

theorem canon_bscatRep {c : Nat} {h : Cmd} {r : Nat} : (bscatRep c h r s).Canon :=
  canon_addCoreTal (canon_enterBeads (canon_offerTile (canon_codeHazard hs)))

theorem canonNext_execBaddp {c : CoreId} : CanonNext (execBaddp c s) := by
  unfold execBaddp
  exact canonNext_vqRun hs fun _ _ _ ht => canon_modCore_mems ht fun _ hk => memsOk_addBeads hk

theorem canonNext_execBst {c : CoreId} : CanonNext (execBst c s) := by
  unfold execBst
  exact canonNext_vqRun hs fun _ _ _ ht => canon_modCore_mems ht fun _ hk => memsOk_wrMem hk

theorem canonNext_execBclr {c : CoreId} : CanonNext (execBclr c s) := by
  unfold execBclr
  exact canonNext_vqRun hs fun _ _ _ ht => canon_modCore_mems ht fun _ hk => memsOk_clearBeads hk

theorem canonNext_execBtal {c : CoreId} : CanonNext (execBtal c s) := by
  unfold execBtal Core.clearTally
  refine canonNext_vqRun hs fun _ _ _ ht => canon_modCore_mems ht fun k hk => ?_
  exact memsOk_tset (memsOk_wrMem hk)

theorem canon_cmdEnter {c q : Nat} {h : Cmd} : (cmdEnter c q h s).Canon := canon_modCore hs

theorem canon_cmdReps {c q : Nat} {rep : Cmd → Nat → State → State} {f : Fly}
    (hrep : ∀ (x : Cmd) (x1 : Nat) (t : State), t.Canon → (rep x x1 t).Canon) : (cmdReps c q rep f s).Canon :=
  canon_sharedDo hs fun _ ht => canon_eachDo ht fun _ _ hu => hrep _ _ _ hu

theorem canon_cmdLeave {c q : Nat} {rep : Cmd → Nat → State → State} {f : Fly}
    (hrep : ∀ (x : Cmd) (x1 : Nat) (t : State), t.Canon → (rep x x1 t).Canon) : (cmdLeave c q rep f s).Canon :=
  canon_signalDone (canon_modCore_mems (canon_cmdReps hs (fun _ _ _ ht => hrep _ _ _ ht)) (fun _ ht => memsOk_worked (memsOk_of_mems ht)))

theorem canonNext_startCmd {c : CoreId} {q opc : Nat} {chk : State → Cmd → Nat → Bool} : CanonNext (startCmd c q opc chk s) := by
  unfold startCmd
  split
  · exact canonNext_actIf hs (fun _ ht => canon_ite (canon_signalDone (canon_countEmpty (canon_popHead ht))) (canon_ite (canon_cmdEnter
    (canon_popHead ht)) (canon_coreFault (canon_popHead ht))))
  · exact canonNext_next hs

theorem canonNext_finishCmd {c : CoreId} {q opc : Nat} {rep : Cmd → Nat → State → State}
    (hrep : ∀ (x : Cmd) (x1 : Nat) (t : State), t.Canon → (rep x x1 t).Canon) : CanonNext (finishCmd c q opc rep s) := by
  unfold finishCmd
  split
  · exact canonNext_actIf hs fun _ ht => canon_cmdLeave ht (fun _ _ _ hu => hrep _ _ _ hu)
  · exact canonNext_next hs

theorem canonNext_nopCmd {c : CoreId} {q : Nat} : CanonNext (nopCmd c q s) := by
  unfold nopCmd
  split
  · exact canonNext_actIf hs fun _ ht => canon_signalDone (canon_ite (canon_countEmpty (canon_popHead ht)) (canon_popHead ht))
  · exact canonNext_next hs

theorem canon_tmmRep {c : Nat} {h : Cmd} {r : Nat} : (tmmRep c h r s).Canon :=
  canon_shadowSample (canon_addCoreTal (canon_setCore_mems hs (memsOk_wrMem (memsOk_core hs))))

theorem canon_mqTouch {space a n : Nat} {write : Bool} : (mqTouch space a n write s).Canon := by
  unfold mqTouch
  refine canon_ite hs ?_
  split
  · exact canon_beside (canon_hbmAccess hs)
  · exact canon_ite hs (canon_windowDo hs (fun _ ht => ht))
  · exact hs

theorem canon_mqWr {c space a : Nat} {bs : List Byte} : (mqWr c space a bs s).Canon := by
  unfold mqWr
  refine canon_ite (canon_modCore_mems hs fun _ hk => memsOk_wrMem hk) ?_
  have ht : (mqTouch space a bs.length true s).Canon := canon_mqTouch hs
  split
  · refine canon_eachDo (canon_spoilHbm (canon_ite (canon_hbmHeal ht) ht)) fun _ t hu => canon_hbm hu (SMap.wf_put _ 0 _ _ ?_)
    obtain ⟨-, hhbm, -⟩ := hu
    exact hhbm
  · exact canon_windowWr ht

theorem canon_mqCopy {c sx x sy y n : Nat} : (mqCopy c sx x sy y n s).Canon := canon_mqWr (canon_mqTouch hs)

theorem canon_mgatherRow {c : Nat} {h : Cmd} {r i : Nat} {idx : Int} : (mgatherRow c h r i idx s).Canon :=
  canon_ite (canon_mqCopy hs) (canon_coreFault hs)

end

end Sys2Proof.Machine

/-! The form kept: frames: where they go, the resequencer, arrival and egress (R202 to R250, R265 to R270). -/
namespace Sys2Proof.Machine
open Sys2Proof

set_option Elab.async false

section
variable {s : State} (hs : s.Canon)
include hs

theorem canon_setQueue {p q : Nat} {x : EgQueue} : (s.setQueue p q x).Canon := canon_modPort hs

theorem canon_formWait {x : Formed} : (formWait x s).Canon := by
  unfold formWait
  extract_lets _ s1
  have hs1 : s1.Canon := canon_beside hs
  split
  · exact canon_bump hs1
  · exact canon_bump hs1
  · exact hs1

theorem canon_looseCharge {d : Nat} {f : Frame} : CanonOptSnd (looseCharge d f s) :=
  canonOptSnd_ite canonOptSnd_none (canonOptSnd_map (canon_looseTake hs) (fun _ ht => ht))

theorem canon_linkPlace {p : Nat} {f : Frame} {c : Charge} : (linkPlace p f c s).Canon := canon_setQueue (canon_setBuf (canon_beside hs))

theorem canon_linkFrame {p : Nat} {h : Hdr} : (linkFrame p h s).Canon := by
  unfold linkFrame
  extract_lets f
  split
  · rename_i s1 heq
    have hs1 : s1.Canon := canon_looseCharge hs _ heq
    exact canon_linkPlace hs1
  · exact canon_formWait hs

theorem canon_mgmtFrame {p mtype : Nat} {payload : List Byte} : (mgmtFrame p mtype payload s).Canon := canon_linkFrame hs

theorem canon_kaLeave {p : Nat} : (kaLeave p s).Canon := canon_ite (canon_mgmtFrame (canon_setPort hs)) hs

theorem canon_enqueueAt {p i : Nat} {staged : Bool} : (enqueueAt p i staged s).Canon := by
  unfold enqueueAt
  split
  · exact hs
  · exact canon_ite (canon_kaLeave (canon_setQueue hs)) (canon_setQueue hs)

theorem canon_crossOver {i d : Nat} : (crossOver i d s).2.Canon := by
  unfold crossOver
  split
  · exact hs
  · extract_lets n key __src s1 c s2
    have hs1 : s1.Canon := canon_crossCount (canon_beside hs)
    have hs2 : s2.Canon := canon_recharge hs1
    refine canon_ite_snd ?_ (canon_unref (canon_setBuf (canon_beside hs1)))
    split
    · exact hs2
    · exact canon_setBuf hs2

theorem canon_crossPlace {i d : Nat} {ports : List Nat} : (crossPlace i d ports s).Canon := by
  unfold crossPlace
  split
  rename_i s1 heq
  have hs1 : s1.Canon := canon_snd heq (canon_crossOver hs)
  extract_lets s2
  have hs2 : s2.Canon := by
    unfold s2
    split
    · exact canon_setBuf hs1
    · exact hs1
  exact canon_eachDo hs2 fun _ _ ht => canon_enqueueAt ht

theorem canon_crossTo {d : Nat} {ports : List Nat} {i : Nat} : (crossTo d ports i s).Canon := by
  unfold crossTo
  split
  · exact hs
  · exact canon_ite (canon_eachDo hs (fun _ _ ht => canon_enqueueAt ht)) (canon_ite (canon_crossPlace hs) (canon_beside hs))

theorem canon_sendTo {p i : Nat} : (sendTo p i s).Canon := canon_crossTo hs

theorem canon_crossGo {l : List Cross} {stuck : List Nat} : (crossGo l stuck s).2.Canon := by
  induction l generalizing stuck s with
  | nil => exact hs
  | cons x t ih =>
    unfold crossGo
    split
    · exact ih hs
    · refine canon_ite_snd ?_ ?_
      · exact ih (canon_crossPlace hs)
      · exact ih hs

theorem canon_crossDrain : (crossDrain s).Canon := canon_beside (canon_crossGo (canon_beside hs))

theorem canon_fenceCount {is : List Nat} : (fenceCount is s).Canon := canon_eachDo hs fun _ _ ht => canon_bump ht

theorem canon_unlessFenced {i : Nat} {go : State → State} (hgo : ∀ t : State, t.Canon → (go t).Canon) : (unlessFenced i go s).Canon := by
  unfold unlessFenced
  split
  · exact hs
  · exact canon_ite (hgo _ hs) (canon_discard (canon_fenceCount hs))

theorem canon_route {i b r : Nat} {fromUp : Bool} : (route i b r fromUp s).Canon := by
  unfold route
  refine canon_unlessFenced hs fun _ ht => ?_
  split
  · exact ht
  · split
    · exact canon_discard (canon_bump ht)
    · exact canon_discard (canon_bump ht)
    · exact canon_ite (canon_discard (canon_bump ht)) (canon_sendTo (canon_setBuf (canon_when ht (fun _ hu => canon_bump hu))))

theorem canon_multicast {i : Nat} {own down : Bool} : (multicast i own down s).Canon := by
  unfold multicast
  split
  · exact hs
  · extract_lets f ts loc shut s1 ts1 here far refs s2 s3 s4
    have hs1 : s1.Canon := canon_eachDo hs fun _ _ ht => canon_fenceCount ht
    have hs2 : s2.Canon := canon_setBuf hs1
    have hs3 : s3.Canon := canon_eachDo hs2 fun _ _ ht => canon_enqueueAt ht
    have hs4 : s4.Canon := canon_eachDo hs3 fun _ _ ht => canon_crossTo ht
    exact canon_ite (canon_discard (canon_bump hs)) (canon_ite (canon_discard (canon_bump hs)) (canon_ite (canon_discard hs1) (canon_ite
      (canon_toInbox hs4) hs4)))

theorem canon_storeOwn {f : Frame} {o : Origin} {go : Nat → State → State} (hgo : ∀ (x : Nat) (t : State), t.Canon → (go x t).Canon) :
    (storeOwn f o go s).Canon := by
  unfold storeOwn
  split
  · exact canon_formWait hs
  · rename_i s1 heq
    have hs1 : s1.Canon := (canonOptSnd_ite (canon_looseCharge hs) (canonOptSnd_some hs)) _ heq
    exact hgo _ _ (canon_store hs1)

theorem canon_sendFrame {f : Frame} {o : Origin} : (sendFrame f o s).Canon :=
  canon_storeOwn hs fun _ _ ht => canon_ite (canon_multicast ht) (canon_ite (canon_toInbox ht) (canon_route ht))

theorem canon_sendPlain {h : Hdr} {o : Origin} : (sendPlain h o s).Canon := canon_sendFrame hs

theorem canon_setGroup {g : Nat} {l : List RsEntry} : (s.setGroup g l).Canon := canon_beside hs

theorem canon_setEntry {g : Nat} {e : RsEntry} : (s.setEntry g e).Canon := canon_setGroup hs

theorem canon_modEntry {g : Nat} {e : RsEntry} : (s.modEntry g e).Canon := canon_setGroup hs

theorem canon_nackLost {src dst : Fnid} {r : LostReason} {qs : List Nat} : (nackLost src dst r qs s).Canon :=
  canon_eachDo hs fun _ _ ht => canon_sendPlain ht

theorem canon_deliver {g i : Nat} : (deliver g i s).Canon := by
  unfold deliver
  refine canon_ite (canon_toInbox hs) (canon_unlessFenced hs (fun _ ht => ?_))
  split
  · exact ht
  · split
    · exact canon_discard (canon_bump ht)
    · exact canon_ite (canon_discard (canon_bump ht)) (canon_sendTo ht)

theorem canon_settle {g n : Nat} {e : RsEntry} : (settle g n e s).2.Canon := by
  induction n generalizing e s with
  | zero => exact hs
  | succ n ih =>
    unfold settle
    refine canon_ite_snd hs ?_
    extract_lets next
    split
    · exact hs
    · exact ih hs
    · exact ih hs
    · exact ih (canon_deliver hs)

theorem canon_dropHeld {g lo : Nat} {e : RsEntry} : (dropHeld g lo e s).2.Canon :=
  canon_nackLost (canon_bumpN (canon_eachDo hs fun _ _ ht => canon_discard ht))

/-- The function is replaced by its body under a name for its result, for the reason that outside_windowAdvance gives. -/
theorem canon_windowAdvance {g q : Nat} {e : RsEntry} : (windowAdvance g q e s).2.Canon := by
  generalize hW : windowAdvance = W
  delta windowAdvance at hW
  generalize h : W g q e s = r
  subst hW
  beta_reduce at h
  extract_lets d n leaving lost held marked told at h
  have htold : told.Canon := canon_nackLost (canon_bumpN hs)
  clear_value told marked held lost leaving n d
  split at h
  next hdrop =>
    subst h
    refine canon_snd hdrop ?_
    split
    · exact canon_dropHeld htold
    · exact canon_dropHeld htold
    · exact canon_dropHeld htold
    · exact htold

theorem canon_placeFrame {g i q : Nat} {ord : Bool} {e : RsEntry} : (placeFrame g i q ord e s).1.Canon := by
  unfold placeFrame
  refine canon_ite_fst ?_ ?_
  · exact canon_modEntry (canon_settle hs)
  · exact canon_modEntry (canon_settle (canon_ite hs (canon_deliver hs)))

/-- windowAdvance is a name here, for the reason that outside_windowAdvance gives. -/
theorem canon_reseqArrive {g i : Nat} : (reseqArrive g i s).1.Canon := by
  obtain ⟨W, hW, hadvance⟩ : ∃ W, windowAdvance = W ∧ ∀ (g q : Nat) (e : RsEntry) (s : State), s.Canon → (W g q e s).2.Canon :=
    ⟨_, rfl, fun _ _ _ _ hs => canon_windowAdvance hs⟩
  unfold reseqArrive
  rw [hW]
  split
  · exact hs
  · extract_lets f q l fresh t
    split
    · have ht : t.Canon := canon_bump hs
      refine canon_ite_fst (canon_placeFrame (canon_setEntry hs)) (canon_ite_fst (canon_placeFrame (canon_setEntry (canon_setGroup hs))) ?_)
      exact canon_ite_fst (canon_nackLost (canon_discard ht)) (canon_ite_fst ht (canon_deliver ht))
    · extract_lets u below
      have hu : u.Canon := canon_setEntry hs
      refine canon_ite_fst (canon_placeFrame hu) (canon_ite_fst (canon_nackLost (canon_discard (canon_bump hu))) (canon_ite_fst ?_ (canon_placeFrame
        hu)))
      exact canon_placeFrame (hadvance _ _ _ _ hu)

theorem canon_sendOrigin {f : Frame} {o : Origin} : (sendOrigin f o s).Canon := by
  unfold sendOrigin
  refine canon_ite (canon_sendFrame hs) ?_
  dsimp only
  split
  · exact canon_sendFrame hs
  · refine canon_storeOwn hs fun i t ht => ?_
    split
    · exact canon_unlessFenced ht fun u hu => canon_ite (canon_discard (canon_bump hu)) (canon_reseqArrive hu)
    · exact canon_ite (canon_toInbox (canon_reseqArrive ht)) (canon_reseqArrive ht)

/-- dropHeld and settle are names of functions that are known by one property alone here: the kernel would count their modulus of 2^24 in unary
  where it
compares their matches. -/
theorem canon_holdExpired {g q : Nat} {src dst : Fnid} : (holdExpired g src dst q s).Canon := by
  obtain ⟨D, hD, hdrop⟩ : ∃ D, dropHeld = D ∧ ∀ (g lo : Nat) (e : RsEntry) (s : State), s.Canon → (D g lo e s).2.Canon :=
    ⟨_, rfl, fun _ _ _ _ hs => canon_dropHeld hs⟩
  obtain ⟨S, hS, hsettle⟩ : ∃ S, settle = S ∧ ∀ (g n : Nat) (e : RsEntry) (s : State), s.Canon → (S g n e s).2.Canon :=
    ⟨_, rfl, fun _ _ _ _ hs => canon_settle hs⟩
  unfold holdExpired
  rw [hD, hS]
  split
  · exact hs
  · exact canon_modEntry (hsettle _ _ _ _ (hdrop _ _ _ _ (canon_nackLost (canon_bumpN hs))))

theorem canon_learnEndEffect {g : Fin 9} {e : RsEntry} : (learnEndEffect g e s).Canon := by
  unfold learnEndEffect
  extract_lets old e1
  split
  rename_i s1 heq
  have hs1 : s1.Canon := canon_snd heq (canon_settle hs)
  exact canon_modEntry hs1

theorem canonNext_execReseqLearnEnd {g : Fin 9} {src dst : Fnid} : CanonNext (execReseqLearnEnd g src dst s) := by
  unfold execReseqLearnEnd
  split
  · exact canonNext_next hs
  · exact canonNext_actIf hs fun _ ht => canon_learnEndEffect ht

theorem canon_entryIdleEffect {g : Fin 9} {src dst : Fnid} : (entryIdleEffect g src dst s).Canon := canon_setGroup hs

theorem canonNext_execReseqEntryIdle {g : Fin 9} {src dst : Fnid} : CanonNext (execReseqEntryIdle g src dst s) := by
  unfold execReseqEntryIdle
  split
  · exact canonNext_next hs
  · exact canonNext_actIf hs fun _ ht => canon_entryIdleEffect ht

theorem canon_rxHead {p : Nat} {rx : RxFrame} : (rxHead p rx s).2.Canon := by
  unfold rxHead
  extract_lets f t1 c fail a t2 o t3 t4
  have ht1 : t1.Canon := canon_modPort hs
  have ht3 : t3.Canon := canon_when (canon_modPort ht1) fun _ ht => canon_modPort ht
  have ht4 : t4.Canon := canon_when ht3 fun _ ht => canon_modPort ht
  clear_value t4 t3 t1 fail
  refine canon_ite_snd (canon_modPort (canon_when hs fun _ ht => canon_bump ht)) (canon_ite_snd (canon_modPort (canon_bump ht1)) ?_)
  cases fail with
  | some fld => exact canon_repay (canon_bump ht3)
  | none =>
    refine canon_store (canon_ite_snd ht4 ?_)
    split
    · next heq => exact canon_slotTake ht4 _ heq
    · exact ht4

theorem canon_tailFail {p : Nat} {rx : RxFrame} : (tailFail p rx s).Canon := canon_ite (canon_modPort (canon_bump (canon_bump hs))) (canon_bump hs)

theorem canon_dropped {p : Option Nat} {f : Frame} {epoch : Bool} : CanonOpt (s.dropped p f epoch) :=
  canonOpt_ite (canonOpt_some (canon_bump hs)) (canonOpt_ite (canonOpt_some (canon_fenceCount hs)) (canonOpt_ite (canonOpt_map_of (fun _ =>
    canon_bump hs)) canonOpt_none))

theorem canon_unit_take {u : Unit} {i : Nat} {f : Frame} (hu : u.Keeps) : (u.take i f s).Canon := by
  unfold Unit.take
  split
  · next heq => exact hu.use hs _ heq
  · exact canon_toInbox (hu.wait hs)

theorem canon_unit_reach {u : Unit} {i : Nat} {p : Option Nat} {f : Frame} (hu : u.Keeps) : (u.reach i p f s).Canon := by
  unfold Unit.reach
  split
  · next heq => exact canon_discard (canon_dropped hs _ heq)
  · refine canon_ite ?_ (canon_unit_take hs hu)
    have harrive := canon_reseqArrive (g := 8) (i := i) hs
    generalize reseqArrive 8 i s = r at *
    exact canon_ite (canon_unit_take harrive hu) harrive

theorem canon_unit_arrive {u : Unit} {i p : Nat} {rx : RxFrame} (hu : u.Keeps) : (u.arrive i p rx s).Canon := by
  unfold Unit.arrive
  refine canon_ite (canon_discard (hu.bad (canon_tailFail hs))) (canon_ite (canon_discard (hu.bad (canon_bump hs))) ?_)
  refine canon_ite (canon_discard (canon_bump hs)) (canon_ite ?_ (canon_unit_reach hs hu))
  split
  · exact canon_toInbox (canon_setBuf hs)
  · exact hs

theorem canon_unit_resume {u : Unit} {i : Nat} {b : Buf} (hu : u.Keeps) : (u.resume i b s).Canon := by
  unfold Unit.resume
  refine canon_ite (canon_discard (hu.bad (canon_beside hs))) (canon_ite (canon_unit_reach (canon_setBuf (canon_beside hs)) hu) ?_)
  split
  · next heq => exact canon_discard (canon_beside (canon_dropped hs _ heq))
  · split
    · next heq => exact hu.use (canon_beside hs) _ heq
    · exact hu.wait hs

theorem canon_unit_handle {u : Unit} {f : Src} (hu : u.Keeps) : (u.handle f s).Canon := by
  unfold Unit.handle
  split
  · split
    · next heq => exact canon_snd heq (canon_rxHead hs)
    · next heq => exact canon_ite (canon_unit_arrive (canon_snd heq (canon_rxHead hs)) hu) hs
  · split
    · exact hs
    · exact canon_unit_resume hs hu

theorem canonNext_consume {u : Unit} {f : Src} (hu : u.Keeps) : CanonNext (consume u f s) := canonNext_actIf hs fun _ ht => canon_unit_handle ht hu

theorem canon_forwardStored {i p : Nat} : (forwardStored i p s).Canon := by
  unfold forwardStored
  split
  · exact hs
  · extract_lets f s1
    have hs1 : s1.Canon := canon_setBuf hs
    split
    · rename_i s2 heq1
      have hs2 : s2.Canon := canon_dropped hs _ heq1
      exact canon_discard hs2
    · refine canon_ite (canon_discard (canon_bump hs)) ?_
      split
      · exact canon_discard (canon_bump hs)
      · split
        · exact canon_ite (canon_discard (canon_bump hs1)) (canon_ite (canon_reseqArrive hs1) (canon_route hs1))
        · exact canon_route hs1

theorem canon_forwardArrive {i p : Nat} {rx : RxFrame} : (forwardArrive i p rx s).Canon := by
  unfold forwardArrive
  extract_lets f cut go
  refine canon_ite (canon_ite (canon_discard (canon_when hs (fun _ ht => canon_bump ht))) (canon_ite (canon_toInbox (canon_when hs (fun _ ht =>
    canon_bump ht))) ?_)) (canon_ite (canon_ite (canon_discard (canon_ite (canon_tailFail hs) hs)) (canon_ite (canon_toInbox (canon_ite
    (canon_tailFail hs) hs)) ?_)) (canon_discard (canon_tailFail hs)))
  · split
    · exact canon_when hs fun _ ht => canon_bump ht
    · exact canon_forwardStored (canon_setBuf (canon_when hs (fun _ ht => canon_bump ht)))
  · split
    · exact canon_ite (canon_tailFail hs) hs
    · exact canon_forwardStored (canon_setBuf (canon_ite (canon_tailFail hs) hs))

theorem canon_outOfInbox {i : Nat} : (outOfInbox i s).Canon := canon_beside hs

theorem canon_forwardHandle {f : Src} : (forwardHandle f s).Canon := by
  unfold forwardHandle
  split
  · split
    · rename_i s1 heq
      have hs1 : s1.Canon := canon_snd heq (canon_rxHead hs)
      exact hs1
    · rename_i s1 heq
      have hs1 : s1.Canon := canon_snd heq (canon_rxHead hs)
      exact canon_ite (canon_forwardArrive hs1) hs
  · split
    · exact hs
    · split
      · exact canon_discard (canon_outOfInbox hs)
      · exact canon_forwardStored (canon_outOfInbox hs)

theorem canon_collBad {f : Frame} : (collBad f s).Canon := canon_ite (canon_bump hs) hs

theorem canon_mcastBad {f : Frame} : (mcastBad f s).Canon := canon_when hs fun _ ht => canon_collBad ht

theorem canon_mcastStored {i p : Nat} : (mcastStored i p s).Canon := by
  unfold mcastStored
  split
  · exact hs
  · split
    · rename_i s1 heq1
      have hs1 : s1.Canon := canon_dropped hs _ heq1
      exact canon_discard hs1
    · exact canon_multicast (canon_setBuf hs)

theorem canon_mcastHandle {f : Src} : (mcastHandle f s).Canon := by
  unfold mcastHandle
  split
  · split
    · rename_i s1 heq
      have hs1 : s1.Canon := canon_snd heq (canon_rxHead hs)
      exact hs1
    · rename_i s1 heq
      have hs1 : s1.Canon := canon_snd heq (canon_rxHead hs)
      refine canon_ite (canon_ite (canon_discard (canon_mcastBad (canon_tailFail hs1))) (canon_ite (canon_toInbox (canon_when hs1 (fun _ ht =>
        canon_bump ht))) (canon_mcastStored (canon_when hs1 (fun _ ht => canon_bump ht))))) hs
  · split
    · exact hs
    · exact canon_mcastStored (canon_outOfInbox hs)

theorem canon_startFrame {p q : Nat} : (startFrame p q s).Canon := by
  unfold startFrame
  extract_lets x r
  split
  · exact hs
  · split
    · exact hs
    · exact canon_when (canon_emit (canon_emit (canon_modPort (canon_setQueue hs)))) fun _ ht => canon_modPort ht

theorem canonNext_execEgressFrameStart {p : PortId} : CanonNext (execEgressFrameStart p s) := by
  unfold execEgressFrameStart
  split
  · exact canonNext_next hs
  · exact canonNext_actIf hs fun _ ht => canon_startFrame ht

theorem canon_sendIdle {p : Nat} : (sendIdle p s).Canon := canon_when hs fun _ ht => canon_emit ht

theorem canon_endFrame {p i : Nat} : (endFrame p i s).Canon := canon_sendIdle (canon_flushWords (canon_crossDrain (canon_unref (canon_modPort hs))))

theorem canon_coarseWheelSlotEffect {p : PortId} {slot : Fin 1024} : (coarseWheelSlotEffect p slot s).Canon := canon_modPort hs

theorem canon_dequeue {p q i : Nat} : (dequeue p q i s).Canon := canon_setQueue hs

theorem canon_egressAgeingEffect {p : PortId} {q : Fin 32} {e : QEnt} : (egressAgeingEffect p q e s).Canon :=
  canon_crossDrain (canon_unref (canon_when (canon_dequeue (canon_bump hs)) (fun _ ht => canon_bump ht)))

theorem canonNext_execEgressAgeing {p : PortId} {q : Fin 32} {i : Nat} : CanonNext (execEgressAgeing p q i s) := by
  unfold execEgressAgeing
  split
  · exact canonNext_next hs
  · exact canonNext_actIf hs fun _ ht => canon_egressAgeingEffect ht

theorem canon_sampleQueue {p q : Nat} : (sampleQueue p q s).Canon := canon_beside (canon_raise (canon_setFld (canon_setFld hs)))

theorem canon_queueSampleEffect : (queueSampleEffect s).Canon := canon_eachDo hs fun _ _ ht => canon_eachDo ht (fun _ _ hu => canon_sampleQueue hu)

theorem canon_creditRxEffect {p : PortId} {w : Word} : (creditRxEffect p w s).Canon := canon_modPort hs

theorem canon_csyncRxEffect {p : PortId} {w : Word} : (csyncRxEffect p w s).Canon := by
  unfold csyncRxEffect
  extract_lets s1 x a d s2
  have hs1 : s1.Canon := canon_modPort hs
  have hs2 : s2.Canon := canon_setPort hs1
  exact canon_ite (canon_ite hs2 (canon_repay (canon_bumpN hs2))) (canon_bump hs1)

theorem canon_linkWordBadEffect {p : PortId} : (linkWordBadEffect p s).Canon := canon_modPort (canon_bump hs)

theorem canon_linkWordResyncEffect {p : PortId} : (linkWordResyncEffect p s).Canon := canon_modPort hs

theorem canon_creditRefreshEffect {p : PortId} : (creditRefreshEffect p s).Canon := canon_eachDo hs fun _ _ ht => canon_ite ht (canon_sendWord ht)

theorem canon_linkUp {p : Nat} : (linkUp p s).Canon := canon_eachDo (canon_modPort hs) fun _ _ ht => canon_ite ht (canon_sendWord ht)

theorem canon_requeue {i : Nat} : (requeue i s).Canon := by
  unfold requeue
  split
  · exact hs
  · refine canon_ite (canon_unref (canon_bump hs)) (canon_ite ?_ (canon_discard (canon_bump hs)))
    split
    · exact canon_discard (canon_bump hs)
    · split
      · exact canon_ite (canon_route hs) (canon_route (canon_bump (canon_setBuf hs)))
      · exact canon_route hs

theorem canon_waitDrop {p : Nat} : (waitDrop p s).Canon := canon_eachDo (canon_beside hs) fun _ _ ht => canon_ite (canon_bump ht) (canon_requeue ht)

theorem canon_portDrop {p : Nat} : (portDrop p s).Canon := by
  unfold portDrop
  extract_lets x ents s1 s2 s3 s4
  have hs1 : s1.Canon := canon_setPort hs
  have hs2 : s2.Canon := by
    unfold s2
    split
    · exact canon_unref (canon_when hs1 (fun _ ht => canon_bump ht))
    · exact hs1
  have hs3 : s3.Canon := canon_eachDo hs2 fun _ _ ht => canon_requeue ht
  have hs4 : s4.Canon := canon_ite (canon_quizRecFree hs3) hs3
  exact canon_crossDrain (canon_waitDrop hs4)

end

end Sys2Proof.Machine

/-! The form kept: the fabric engine of a core, and what answers requests (R95 to R97, R281 to R300). -/
namespace Sys2Proof.Machine
open Sys2Proof

set_option Elab.async false

section
variable {s : State} (hs : s.Canon)
include hs

theorem canon_fqRetire {c : Nat} : (fqRetire c s).Canon :=
  canon_eachDo (canon_modCore hs) fun _ _ ht => canon_signalBy (canon_modCore_mems ht (fun _ hu => memsOk_worked hu))

theorem canon_fqEnter {c : Nat} {h : Cmd} {todo left : List Nat} : (fqEnter c h todo left s).Canon := canon_modCore hs

theorem canon_fqDone {c id r : Nat} : (fqDone c id r s).Canon := canon_fqRetire (canon_modCore hs)

theorem canon_fqSendAll {send : Cmd → Nat → State → Option State} {h : Cmd} {l : List Nat}
    (hsend : ∀ (x : Cmd) (x1 : Nat) (t : State), t.Canon → CanonOpt (send x x1 t)) : (fqSendAll send h l s).2.Canon := by
  induction l generalizing s with
  | nil => exact hs
  | cons r t ih =>
    unfold fqSendAll
    split
    · exact hs
    · next heq => exact ih (hsend h r s hs _ heq)

theorem canon_fqTodo {c id : Nat} {todo : List Nat} : (fqTodo c id todo s).Canon := canon_modCore hs

theorem canon_fsendFrame {c : Nat} {h : Cmd} {r : Nat} : (fsendFrame c h r s).2.Canon := canon_ite_snd (canon_beside hs) hs

theorem canon_fsendRep {c id r : Nat} {h : Cmd} : CanonOpt (fsendRep c id h r s) := by
  unfold fsendRep
  split
  · exact canonOpt_none
  · next heq =>
    have ht := canon_slotTake hs _ heq
    exact canon_sharedTry ht fun _ hu => canonOpt_ite canonOpt_none (canonOpt_some (canon_sendOrigin (canon_fsendFrame hu)))

theorem canon_fsendGo {c : Nat} {h : Cmd} {id : Nat} {reps : List Nat} : (fsendGo c h id reps s).Canon :=
  canon_fqRetire (canon_modCore (canon_fqTodo (canon_when (canon_fqSendAll hs (fun _ _ _ ht => canon_fsendRep ht)) (fun _ ht => canon_bump ht))))

theorem canon_fsendEffect {c : CoreId} {h : Cmd} : (fsendEffect c h s).Canon :=
  canon_ite (canon_fqRetire (canon_fqEnter (canon_countEmpty (canon_popHead hs)))) (canon_ite (canon_fsendGo (canon_fqEnter (canon_popHead hs)))
    (canon_coreFault (canon_popHead hs)))

theorem canonNext_execFsend {c : CoreId} : CanonNext (execFsend c s) := by
  unfold execFsend
  split
  · exact canonNext_next hs
  · exact canonNext_act hs fun _ ht => canon_fsendEffect ht

theorem canon_fsendNext {c : Nat} : CanonOpt (fsendNext c s) := by
  unfold fsendNext
  split
  · exact canonOpt_none
  · refine canonOpt_ite canonOpt_none ?_
    split
    · exact canonOpt_none
    · split
      · exact canonOpt_none
      · rename_i s1 heq2
        have hs1 : s1.Canon := canon_fsendRep hs _ heq2
        exact canonOpt_some (canon_fsendGo hs1)

theorem canonNext_execFsendAccepted {c : CoreId} : CanonNext (execFsendAccepted c s) := by
  unfold execFsendAccepted
  split
  · exact canonNext_next hs
  · rename_i s1 heq
    have hs1 : s1.Canon := canon_fsendNext hs _ heq
    exact canonNext_act hs fun _ ht => canon_getD (canon_fsendNext ht) ht

theorem canon_frecvTake {c id : Nat} {h : Cmd} {r : Nat} {pay : List Byte} : (frecvTake c id h r pay s).Canon :=
  canon_ite (canon_fqDone (canon_sharedDo hs (fun _ ht => canon_setCore_mems ht (memsOk_wrMem (memsOk_core ht))))) (canon_fqDone (canon_coreFault hs))

theorem canon_frecvTry {i : Nat} : CanonOpt (frecvTry i s) := by
  unfold frecvTry
  split
  · exact canonOpt_none
  · split
    · exact canonOpt_ite (canonOpt_some (canon_discard (canon_frecvTake hs))) canonOpt_none
    · exact canonOpt_none

theorem canon_offerFrecv {i : Nat} : (offerFrecv i s).Canon := canon_getD (canon_frecvTry hs) (canon_beside hs)

theorem canon_frecvAgain : (frecvAgain s).Canon := by
  unfold frecvAgain
  refine canon_eachDo hs fun _ _ ht => ?_
  split
  · rename_i s2 heq
    have hs2 : s2.Canon := canon_frecvTry ht _ heq
    exact canon_beside hs2
  · exact ht

theorem canon_frecvScan {c id : Nat} {h : Cmd} {r : Nat} : (frecvScan c id h r s).Canon := by
  unfold frecvScan
  split
  · exact hs
  · split
    · exact hs
    · exact canon_frecvTake (canon_discard (canon_beside hs))

theorem canon_frecvEffect {c : CoreId} {h : Cmd} : (frecvEffect c h s).Canon :=
  canon_ite (canon_fqRetire (canon_fqEnter (canon_countEmpty (canon_popHead hs)))) (canon_ite (canon_fqRetire (canon_fqEnter (canon_countEmpty
    (canon_countStrictRej (canon_popHead hs))))) (canon_eachDo (canon_fqEnter (canon_popHead hs)) (fun _ _ ht => canon_frecvScan ht)))

theorem canonNext_execFrecv {c : CoreId} : CanonNext (execFrecv c s) := by
  unfold execFrecv
  split
  · exact canonNext_next hs
  · exact canonNext_act hs fun _ ht => canon_frecvEffect ht

theorem canon_sendRequest {c id r : Nat} {q : FmRec} {pay : List Byte} {ary : Nat} {sync : Bool} :
    CanonOpt (sendRequest c id r q pay ary sync s) := by
  unfold sendRequest
  extract_lets k n isSync h
  split
  · exact canonOpt_none
  · rename_i s1 heq
    have hs1 : s1.Canon := canon_slotTake hs _ heq
    split
    · exact canonOpt_none
    · rename_i s2 heq1
      have hs2 : s2.Canon := canon_slotTake hs1 _ heq1
      exact canonOpt_some (canon_sendOrigin (canon_modCore (canon_beside (canon_beside hs2))))

theorem canon_requestBad {c id : Nat} {h : Cmd} {r : Nat} : (requestBad c id h r s).Canon := canon_fqDone (canon_coreFault hs)

theorem canon_fmemRep {c id : Nat} {h : Cmd} {r : Nat} : CanonOpt (fmemRep c id h r s) :=
  canon_sharedTry hs fun _ ht => canonOpt_ite (canon_sharedTry ht (fun _ hu => canon_sendRequest hu)) (canonOpt_some (canon_requestBad ht))

theorem canon_requestGo {c : Nat} {rep : Cmd → Nat → State → Option State} {h : Cmd} {id : Nat} {reps : List Nat}
    (hrep : ∀ (x : Cmd) (x1 : Nat) (t : State), t.Canon → CanonOpt (rep x x1 t)) : (requestGo c rep h id reps s).Canon :=
  canon_fqRetire (canon_fqTodo (canon_when (canon_fqSendAll hs (fun _ _ _ ht => hrep _ _ _ ht)) (fun _ ht => canon_bump ht)))

theorem canon_requestWaits {c : Nat} : (requestWaits c s).Canon := canon_ite hs (canon_bump (canon_modCore hs))

theorem canon_requestIssue {c : Nat} {u : Requester} {h : Cmd} (hu : u.Keeps) : (requestIssue c u h s).Canon := by
  unfold requestIssue
  extract_lets s1 id reps s2
  have hs1 : s1.Canon := canon_popHead hs
  have hs2 : s2.Canon := canon_fqEnter hs1
  refine canon_ite (canon_fqRetire (canon_fqEnter (canon_countEmpty hs1))) (canon_ite (canon_coreFault hs1) ?_)
  split
  · exact canon_requestWaits hs
  · exact canon_requestGo hs2 fun r x t => hu id r x t

theorem canon_requestNext {c : Nat} {u : Requester} {f : Fly} (hu : u.Keeps) : CanonOpt (requestNext c u f s) := by
  unfold requestNext
  split
  · exact canonOpt_none
  · next r _ _ =>
    split
    · exact canonOpt_none
    · next heq => exact canonOpt_some (canon_requestGo (hu f.id f.cmd r s hs _ heq) fun r x t => hu f.id r x t)

theorem canonNext_requestRow {c opc : Nat} {u : Requester} {rej : Cmd → State → Bool} (hu : u.Keeps) : CanonNext (requestRow c opc u rej s) := by
  unfold requestRow
  split
  · exact canonNext_actIf hs fun _ ht => canon_getD (canon_requestNext ht hu) ht
  · split
    · exact canonNext_next hs
    · exact canonNext_act hs (fun _ ht => canon_ite (canon_fqRetire (canon_fqEnter (canon_countEmpty (canon_countStrictRej (canon_popHead ht)))))
      (canon_requestIssue ht hu))

omit hs in
theorem keeps_fmemUnit {c : Nat} : (fmemUnit c).Keeps := fun _ _ _ _ hs => canon_fmemRep hs

theorem canon_fsyncRep {c id : Nat} {h : Cmd} {r : Nat} : CanonOpt (fsyncRep c id h r s) := by
  unfold fsyncRep
  extract_lets op n q
  exact canon_sharedTry (canon_freed hs) fun _ ht => canon_sendRequest ht

omit hs in
theorem keeps_fsyncUnit {c : Nat} : (fsyncUnit c).Keeps := fun _ _ _ _ hs => canon_fsyncRep hs

theorem canon_fnopEffect {c : CoreId} {h : Cmd} : (fnopEffect c h s).Canon :=
  canon_fqRetire (canon_fqEnter (canon_popHead (canon_when hs (fun _ ht => canon_countEmpty ht))))

theorem canonNext_execFnop {c : CoreId} : CanonNext (execFnop c s) := by
  unfold execFnop
  split
  · exact canonNext_next hs
  · exact canonNext_act hs fun _ ht => canon_fnopEffect ht

theorem canon_ffenceEffect {c : CoreId} {h : Cmd} : (ffenceEffect c h s).Canon :=
  canon_ite (canon_fqRetire (canon_fqEnter (canon_countEmpty (canon_popHead hs)))) (canon_ite (canon_fqRetire (canon_fqEnter (canon_eachDo
    (canon_popHead hs) (fun _ _ ht => canon_sharedDo ht (fun _ hu => canon_modCore_mems hu (fun _ hv => memsOk_wrMem hv)))))) (canon_coreFault
    (canon_popHead hs)))

theorem canonNext_execFfence {c : CoreId} : CanonNext (execFfence c s) := by
  unfold execFfence
  split
  · exact canonNext_next hs
  · exact canonNext_actIf hs fun _ ht => canon_ffenceEffect ht

theorem canon_answerReq {c : Nat} {q : FReq} {word : Nat} {data : List Byte} : (answerReq c q word data s).Canon :=
  canon_fqDone (canon_slotFree (canon_sharedDo hs (fun _ ht => canon_modCore_mems ht (fun _ hu => memsOk_of_mems (memsOk_wrMem hu)))))

theorem canon_answerLate {q : FReq} : (answerLate q s).Canon := canon_beside hs

theorem canonNext_execFmemTimeout {c : CoreId} {i : Nat} : CanonNext (execFmemTimeout c i s) := by
  unfold execFmemTimeout
  split
  · exact canonNext_next hs
  · exact canonNext_actIf hs fun _ ht => canon_answerReq (canon_answerLate ht)

theorem canon_lineTake {l : Line} {n : Nat} : CanonOptSnd (lineTake l n s) := by
  unfold lineTake
  split
  · exact canonOptSnd_map (canon_partTake hs) fun _ ht => ht
  · exact canonOptSnd_map (canon_looseTake hs) fun _ ht => ht
  · exact canonOptSnd_map (canon_slotShared hs) fun _ ht => ht

theorem canon_actRef {a : Option Nat} : CanonOptSnd (actRef a s) := by
  unfold actRef
  split
  · exact canonOptSnd_some hs
  · exact canonOptSnd_map (canon_addRef hs) fun _ ht => ht

theorem canon_formTry {x : Formed} : CanonOpt (formTry x s) := by
  unfold formTry
  split
  · exact canonOpt_none
  · rename_i s1 heq
    have hs1 : s1.Canon := canon_lineTake hs _ heq
    split
    · exact canonOpt_none
    · rename_i s2 heq1
      have hs2 : s2.Canon := canon_actRef hs1 _ heq1
      extract_lets f
      split
      · exact canonOpt_some (canon_offerFrecv (canon_setBuf (canon_beside hs2)))
      · exact canonOpt_some (canon_linkPlace hs2)
      · exact canonOpt_some (canon_sendOrigin hs2)

theorem canon_formSend {x : Formed} : (formSend x s).Canon := by
  unfold formSend
  refine canon_ite (canon_formWait hs) ?_
  split
  · rename_i s1 heq
    have hs1 : s1.Canon := canon_formTry hs _ heq
    exact hs1
  · exact canon_formWait hs

theorem canon_formDrain {l : List Formed} {stuck : List Line} : (formDrain l stuck s).2.Canon := by
  induction l generalizing stuck s with
  | nil => exact hs
  | cons x t ih =>
    unfold formDrain
    refine canon_ite_snd (ih hs) ?_
    split
    · next heq => exact ih (canon_formTry hs _ heq)
    · exact ih hs

theorem canon_breach {m : Meas} {excess port : Nat} : (breach m excess port s).Canon := by
  unfold breach
  extract_lets c leg w s1 s2 s3 _ s4
  have hs1 : s1.Canon := canon_bump hs
  have hs2 : s2.Canon := canon_ite hs1 (canon_setReg hs1)
  have hs3 : s3.Canon := canon_addRec hs2
  have hs4 : s4.Canon := by
    unfold s4
    split
    · exact canon_beside hs3
    · exact hs3
  exact canon_when hs4 fun _ ht => canon_raiseFault ht

theorem canon_measEnd {m : Meas} : (measEnd m s).Canon := by
  unfold measEnd
  split
  · exact hs
  · exact canon_ite (canon_breach hs) hs

theorem canon_measSettle : (measSettle s).Canon := canon_eachDo (canon_beside hs) fun _ _ ht => canon_measEnd ht

theorem canon_noteCombined {b : Buf} : (noteCombined b s).Canon := by
  unfold noteCombined
  split
  · exact canon_beside hs
  · exact hs

theorem canon_noteDeparture {p : Nat} {b : Buf} : (noteDeparture p b s).Canon := canon_beside hs

theorem canon_egressFrameEndEffect {p : PortId} {i : Nat} : (egressFrameEndEffect p i s).Canon := by
  unfold egressFrameEndEffect
  extract_lets s1
  have hs1 : s1.Canon := by
    unfold s1
    split
    · exact canon_noteCombined (canon_noteDeparture hs)
    · exact hs
  exact canon_measSettle (canon_endFrame hs1)

theorem canonNext_execEgressFrameEnd {p : PortId} : CanonNext (execEgressFrameEnd p s) := by
  unfold execEgressFrameEnd
  split
  · exact canonNext_next hs
  · exact canonNext_act hs fun _ ht => canon_egressFrameEndEffect ht

theorem canon_goHome {i : Nat} {f : Frame} : CanonOpt (goHome i f s) := by
  unfold goHome
  split
  · exact canonOpt_ite (canonOpt_some hs) (canonOpt_ite (canonOpt_some (canon_crossOver hs)) canonOpt_none)
  · exact canonOpt_some hs

theorem canon_reply {i word : Nat} {data : List Byte} : CanonOpt (reply i word data s) := by
  unfold reply
  split
  · exact canonOpt_some hs
  · extract_lets pay h
    split
    · exact canonOpt_some (canon_sendPlain (canon_discard hs))
    · split
      · exact canonOpt_none
      · rename_i s1 heq2
        have hs1 : s1.Canon := (canon_slotShared (canon_setBuf hs)) _ heq2
        exact canonOpt_some (canon_sendPlain (canon_discard hs1))

theorem canon_countErr {st : Nat} : (countErr st s).Canon := by
  unfold countErr
  split
  · exact canon_bump hs
  · exact canon_bump hs
  · exact canon_bump hs
  · exact canon_bump hs
  · exact canon_bump hs
  · exact canon_bump hs
  · exact canon_bump hs
  · exact hs

theorem canon_ackStore {i st : Nat} : (ackStore i st s).Canon := by
  unfold ackStore
  split
  · exact hs
  · exact canon_discard (canon_beside (canon_setBuf hs))

theorem canon_reqWait {i : Nat} {f : Frame} : (reqWait i f s).Canon := by
  unfold reqWait
  split
  · exact hs
  · refine canon_ite hs ?_
    extract_lets s1
    have hs1 : s1.Canon := canon_setBuf hs
    split
    · exact canon_bump hs1
    · exact hs1

theorem canon_sendDone {src : Fnid} : (sendDone src s).Canon := by
  unfold sendDone
  split
  · exact hs
  · exact canon_sendPlain (canon_eachDo (canon_beside hs) (fun _ _ ht => canon_uncharge ht))

theorem canon_logPut {e : LogEnt} : (logPut e s).Canon := canon_beside hs

theorem canon_scramble {op off : Nat} : (scramble op off s).Canon := by
  unfold scramble
  split
  · exact canon_beside (canon_memWr hs)
  · exact canon_beside hs
  · exact canon_freed (canon_setReg hs)
  · exact hs

theorem canon_loggedUse {i : Nat} {f : Frame} {deny : Option (State → Option State)} {apply : State → (Nat × List Byte) × State}
    (hdeny : ∀ g ∈ deny, CanonOpt (g s)) (happly : (apply s).2.Canon) : CanonOpt (loggedUse i f deny apply s) := by
  unfold loggedUse
  split
  · exact canon_reply (canon_bump hs)
  · exact canon_reply (canon_beside (canon_scramble (canon_scramble (canon_bump hs))))
  · exact canon_reply (canon_bump hs)
  · split
    · exact hdeny _ rfl
    · refine canonOpt_ite canonOpt_none ?_
      split
      next heq => exact canon_reply (canon_logPut (canon_snd heq happly))

theorem canon_loggedWait {i : Nat} {f : Frame} : (loggedWait i f s).Canon := by
  unfold loggedWait
  split
  · exact hs
  · exact canon_ite (canon_ite hs (canon_bump (canon_setBuf hs))) (canon_reqWait hs)

theorem canon_logExpire {e : LogEnt} : (logExpire e s).Canon := canon_beside hs

theorem canonNext_execReplayLogExpiry {src : Fnid} {tag : BitVec 12} : CanonNext (execReplayLogExpiry src tag s) := by
  unfold execReplayLogExpiry
  split
  · exact canonNext_next hs
  · exact canonNext_actIf hs fun _ ht => canon_logExpire ht

theorem canon_setObj {n : Nat} {o : Obj} : (s.setObj n o).Canon := canon_beside hs

theorem canon_answerWaits {n : Nat} : (answerWaits n s).Canon := by
  unfold answerWaits
  extract_lets ws _ s1
  have hs1 : s1.Canon := canon_beside hs
  refine canon_eachDo hs1 fun _ _ ht => ?_
  extract_lets h
  split
  · exact canon_sendPlain ht
  · exact canon_formSend ht

theorem canon_makePending {n : Nat} {dst : Option Fnid} : (makePending n dst s).Canon := canon_ite (canon_bump (canon_beside hs)) (canon_beside hs)

theorem canon_releaseTest {n : Nat} {src : Fnid} : (releaseTest n src s).Canon :=
  canon_ite (canon_makePending (canon_answerWaits (canon_bump (canon_setObj hs)))) hs

theorem canon_completionRelease {n count : Nat} {who : Option Fnid} : (completionRelease n count who s).Canon := by
  unfold completionRelease
  extract_lets o o1 s1
  have hs1 : s1.Canon := canon_answerWaits (canon_bump (canon_setObj hs))
  split
  · exact canon_makePending hs1
  · exact hs1

theorem canon_releaseFormEffect {n : BitVec 16} {dst : Option Fnid} : (releaseFormEffect n dst s).Canon := canon_sendPlain (canon_beside hs)

theorem canonNext_execReleaseForm {n : BitVec 16} : CanonNext (execReleaseForm n s) := by
  unfold execReleaseForm
  split
  · exact canonNext_next hs
  · exact canonNext_actIf hs fun _ ht => canon_releaseFormEffect ht

theorem canon_objArrive {n k : Nat} {src : Fnid} : (objArrive n k src s).Canon := canon_releaseTest (canon_setObj hs)

theorem canon_objAdd {n d : Nat} {src : Fnid} : (objAdd n d src s).Canon := canon_releaseTest (canon_setObj hs)

theorem canon_objReset {n t w : Nat} : (objReset n t w s).Canon := canon_setObj hs

theorem canon_waitUse {i n : Nat} {f : Frame} : CanonOpt (waitUse i n f s) :=
  canonOpt_ite (canon_reply hs) (canonOpt_ite (canon_reply (canon_bump hs)) (canonOpt_some (canon_discard (canon_beside hs))))

end

end Sys2Proof.Machine

/-! The form kept: collective and sampling instances (R102 to R142, R188 to R198, R315 to R320). -/
namespace Sys2Proof.Machine
open Sys2Proof

set_option Elab.async false

section
variable {s : State} (hs : s.Canon)
include hs

theorem canon_setBeads32 {x : Nat × Nat} {l : List Bead} {nonf : Bool} : (setBeads32 x l nonf s).Canon :=
  canon_modCore_mems hs fun _ hk => memsOk_beads hk

theorem canon_clearBlock {x : Nat × Nat} : (clearBlock x s).Canon := by
  unfold clearBlock clearBeads
  exact canon_modCore_mems hs fun _ hk => memsOk_beads hk

theorem canon_putInst {x : Inst} : (s.putInst x).Canon := canon_beside hs

theorem canon_collTal {t : Tal} {x : Inst} : (collTal t x s).2.Canon := canon_addBeadTally hs

theorem canon_lateReport {g run : Nat} {m : Fnid} {inst : Nat} : (lateReport g run m inst s).Canon := canon_addRec (canon_ite hs (canon_setReg hs))

theorem canon_senderDone {key : Nat} {who member : Fnid} {x : Inst} : (senderDone key who member x s).2.Canon :=
  canon_when (canon_beside hs) fun _ ht => canon_lateReport ht

theorem canon_collSend {x : Inst} {d : CDesc} {dst : Option Fnid} {down : Bool} {pre : CPre} {first : Nat} {data : List Byte} {susp : Bool} :
    (collSend x d dst down pre first data susp s).Canon :=
  canon_formSend hs

theorem canon_sendExpsum {x : Inst} {d : CDesc} {l : List (Nat × Nat)} : (sendExpsum x d l s).Canon := canon_eachDo hs fun _ _ ht => canon_collSend ht

theorem canon_sendGexp {x : Inst} {d : CDesc} {l : List (Nat × Nat)} : (sendGexp x d l s).Canon := canon_eachDo hs fun _ _ ht => canon_collSend ht

theorem canon_endWaiting {p : Frame → Bool} {fld : Fld} {i : Nat} : (endWaiting p fld i s).Canon :=
  canon_eachDo (canon_beside hs) fun _ _ ht => canon_discard (canon_bump ht)

theorem canon_endInst {x : Inst} {fld : Fld} : (endInst x fld s).Canon := by
  unfold endInst
  extract_lets d late s1 s2 s3 s4 s5 _ s6 s7
  have hs1 : s1.Canon := canon_bumpN hs
  have hs2 : s2.Canon := canon_eachDo hs1 fun _ _ ht => canon_discard ht
  have hs3 : s3.Canon := canon_eachDo hs2 fun _ _ ht => canon_partFree ht
  have hs4 : s4.Canon := canon_ite (canon_eachDo hs3 (fun _ _ ht => canon_clearBlock ht)) hs3
  have hs5 : s5.Canon := canon_endWaiting hs4
  have hs6 : s6.Canon := canon_beside hs5
  have hs7 : s7.Canon := canon_bump hs6
  split
  · exact canon_setReg hs7
  · exact canon_freed (canon_setReg hs7)

theorem canon_dropFrames {x : Inst} : (dropFrames x s).Canon := canon_beside hs

theorem canon_seedPin {k : Nat} {n : Word} : (seedPin k n s).Canon := canon_beside hs

theorem canon_statusEnd {x : Inst} {code : Nat} {marks : List Nat} : (statusEnd x code marks s).Canon := by
  unfold statusEnd
  extract_lets d s1 role ata up down meas late b llv word data n
  have hs1 : s1.Canon := canon_ite hs (canon_dropFrames hs)
  clear_value s1 late meas word data n
  split
  next t heq =>
    have ht : t.Canon := canon_snd2 heq (canon_ite_snd2 (canon_beside hs1) hs1)
    extract_lets t1 t2 coll t3
    have ht2 : t2.Canon := canon_endInst (canon_collSend ht)
    have ht3 : t3.Canon := canon_beside ht2
    exact canon_ite (canon_measSettle (canon_beside ht3)) ht3

theorem canon_failEnd {x : Inst} : (failEnd x s).Canon := canon_statusEnd (canon_dropFrames hs)

theorem canon_freeBlks {src : Option Nat} {bs : List Nat} {x : Inst} : (freeBlks src bs x s).2.Canon := canon_eachDo hs fun _ _ ht => canon_discard ht

theorem canon_pumpOne {d : CDesc} {i n : Nat} {k : Strm} {x : Inst} : (pumpOne d i k n x s).2.Canon := by
  induction n generalizing x s with
  | zero => exact hs
  | succ n ih =>
    unfold pumpOne
    extract_lets p u
    refine canon_ite_snd hs (canon_ite_snd (ih hs) ?_)
    split
    refine canon_ite_snd hs ?_
    exact ih (canon_ite_snd (canon_freeBlks (canon_bumpN (canon_collSend hs))) (canon_bumpN (canon_collSend hs)))

theorem canon_pump {d : CDesc} {ks : List Strm} {x : Inst} : (pump d ks x s).2.Canon := by
  unfold pump
  refine canon_foldl_snd hs fun _ _ ht => ?_
  split
  · exact ht
  · exact canon_ite_snd (canon_pumpOne ht) ht

theorem canon_finishBlk {b : Nat} {susp : Bool} {v : Option Block} {x : Inst} : (finishBlk b susp v x s).2.Canon := canon_ite (canon_clearBlock hs) hs

theorem canon_offerTiles {b8 : Nat} {x : Inst} : (offerTiles b8 x s).2.Canon := by
  unfold offerTiles
  refine canon_eachDo hs fun t u hu => ?_
  split
  next heq => exact canon_bumpN (canon_snd heq (canon_offerTile hu))

theorem canon_reduceBlk {b : Nat} {x : Inst} : (reduceBlk b x s).2.Canon := by
  unfold reduceBlk
  extract_lets d c role susp
  split
  rename_i x1 s1 heq1
  have hs1 : s1.Canon := canon_snd heq1 (canon_freeBlks hs)
  refine canon_ite_snd (canon_finishBlk hs1) ?_
  extract_lets code x2 ins ev
  clear_value ev ins x2 code
  split
  rename_i x3 s2 heq2
  have hs2 : s2.Canon := canon_snd heq2 (canon_collTal hs1)
  split
  rename_i x4 s3 heq3
  have hs3 : s3.Canon := canon_snd heq3 (canon_ite_snd hs2 (canon_offerTiles hs2))
  extract_lets start sums t
  have ht : t.Canon := canon_ite hs3 (canon_sendExpsum hs3)
  clear_value t sums
  refine canon_ite_snd (canon_ite_snd (canon_finishBlk ht) (canon_finishBlk (canon_freed hs3))) ?_
  split
  split
  rename_i x5 s4 heq4
  have hs4 : s4.Canon := canon_snd heq4 (canon_collTal hs3)
  exact canon_finishBlk (canon_ite (canon_freed hs4) (canon_shadowSample (canon_freed hs4)))

theorem canon_partialAdd {b : Nat} {bs : List Byte} {x : Inst} : (partialAdd b bs x s).2.Canon := canon_ite_snd hs (canon_setBeads32 hs)

theorem canon_partialBlk {f : Frame} {b : Nat} {x : Inst} : (partialBlk f b x s).2.Canon := by
  unfold partialBlk
  refine canon_ite_snd hs (canon_wakeIsland ?_)
  exact canon_partialAdd hs

theorem canon_absorb {d : CDesc} {x : Inst} : (absorb d x s).2.Canon := by
  unfold absorb
  refine canon_foldl_snd hs fun _ _ ht => ?_
  split
  · exact ht
  · extract_lets now rest
    split
    rename_i s1 heq1
    have hs1 : s1.Canon := canon_snd heq1 (canon_foldl_snd ht (fun _ _ hu => canon_partialBlk hu))
    exact canon_ite (canon_discard hs1) hs1

theorem canon_advance {x : Inst} : (advance x s).Canon := by
  unfold advance
  extract_lets d ks
  split
  rename_i s1 heq
  have hs1 : s1.Canon := canon_snd heq (canon_ite_snd (canon_absorb hs) hs)
  extract_lets x3
  split
  rename_i s2 heq1
  have hs2 : s2.Canon := canon_snd heq1 (canon_pump hs1)
  extract_lets past hw ok fold s3
  have hs3 : s3.Canon := canon_freed (canon_collSend hs2)
  split
  · exact canon_ite (canon_putInst hs2) (canon_ite (canon_statusEnd hs2) (canon_ite (canon_putInst hs2) (canon_ite (canon_statusEnd hs2)
    (canon_putInst hs3))))
  · exact canon_ite (canon_putInst hs2) (canon_ite (canon_statusEnd hs2) (canon_putInst hs2))
  · exact canon_ite (canon_statusEnd hs2) (canon_putInst hs2)

theorem canon_rootEnds {x : Inst} : CanonOpt (rootEnds x s) := canonOpt_ite (canonOpt_some (canon_failEnd hs)) canonOpt_none

theorem canon_collOpen {slot : Nat} {samp : Bool} {di : Nat} {step : Word} : (collOpen slot samp di step s).2.Canon := by
  unfold collOpen
  split
  · exact hs
  · exact canon_when hs fun _ ht => canon_bump ht

theorem canon_collTake {i : Nat} {f : Frame} {g : CGate} {body : Inst → CDesc → State → Option State}
    (hbody : ∀ (x : Inst) (x1 : CDesc) (t : State), t.Canon → CanonOpt (body x x1 t)) : CanonOpt (collTake i f g body s) := by
  unfold collTake
  split
  · exact canonOpt_some (canon_offerFrecv hs)
  · exact canonOpt_some (canon_discard (canon_bump hs))
  · exact hbody _ _ _ (canon_when (canon_collOpen hs) (fun _ ht => canon_bump ht))

theorem canon_collWait {i : Nat} {f : Frame} : (collWait i f s).Canon := by
  unfold collWait
  split
  · exact hs
  · exact canon_ite (canon_countWait hs) hs

omit hs in
theorem keeps_collUnit {ck : Nat → Bool} {use : Nat → Frame → State → Option State}
    (huse : ∀ (i : Nat) (f : Frame) (t : State), t.Canon → CanonOpt (use i f t)) : (collUnit ck use).Keeps :=
  ⟨fun _ _ hs => canon_collBad hs, huse, fun _ _ _ hs => canon_collWait hs⟩

theorem canon_candTake {ck key : Nat} {f : Frame} {x : Inst} : (candTake ck key f x s).2.Canon := canon_bumpN (canon_bumpN hs)

theorem canon_sampleEnd {x : Inst} : (sampleEnd x s).Canon :=
  canon_statusEnd (canon_collSend (canon_bumpN (canon_when hs (fun _ ht => canon_bump ht))))

theorem canon_leafMerge {x : Inst} : (leafMerge x s).Canon := canon_eachDo hs fun _ _ ht => canon_collSend (canon_beside ht)

theorem canon_localsDone {x : Inst} {d : CDesc} : (localsDone x d s).Canon := canon_ite (canon_beside hs) hs

theorem canon_enterBlk {d : CDesc} {m b ecode : Nat} {v : Block} {x : Inst} : (enterBlk d m b ecode v x s).2.Canon :=
  canon_ite_snd hs (canon_ite_snd (canon_addBeadTally hs) (canon_ite_snd (canon_addBeadTally hs) (canon_setBeads32 (canon_addBeadTally
    (canon_addBeadTally hs)))))

theorem canon_tilesTake {d : CDesc} {first : Nat} {ts : List Tile} {x : Inst} : (tilesTake d first ts x s).2.Canon :=
  canon_ite_snd hs (canon_foldl_snd hs (fun _ _ ht => canon_offerTiles ht))

theorem canon_tilesCount {d : CDesc} {ts : List Tile} {x : Inst} : (tilesCount d ts x s).2.Canon := canon_bumpN (canon_bumpN hs)

theorem canon_memberDone {m : Nat} {d : CDesc} {x : Inst} : (memberDone m d x s).2.Canon :=
  canon_ite_snd (canon_localsDone (canon_when (canon_beside hs) (fun _ ht => canon_lateReport ht))) hs

theorem canon_contribGo {full : List Nat} {x : Inst} {d : CDesc} : (contribGo full x d s).Canon :=
  canon_ite (canon_ite (canon_ite (canon_putInst (canon_collSend hs)) (canon_statusEnd hs)) (canon_putInst hs)) (canon_advance (canon_ite
    (canon_sendExpsum hs) hs))

theorem canon_contribTake {i m : Nat} {f : Frame} {bl : List (Nat × Block)} {ts : List Tile} {x : Inst} {d : CDesc} :
    CanonOpt (contribTake i m f bl ts x d s) := by
  unfold contribTake
  extract_lets bs ids hold x1 x2 x3 x4
  refine canonOpt_ite canonOpt_none ?_
  split
  · exact canonOpt_none
  · rename_i s1 heq
    have hs1 : s1.Canon := (canonOpt_ite (canon_partHold hs) (canon_partPass hs)) _ heq
    split
    rename_i s2 heq1
    have hs2 : s2.Canon := canon_snd heq1 (canon_tilesCount hs1)
    split
    rename_i s3 heq2
    have hs3 : s3.Canon := canon_snd heq2 (canon_foldl_snd hs2 (fun _ _ ht => canon_enterBlk ht))
    split
    rename_i s4 heq3
    have hs4 : s4.Canon := canon_snd heq3 (canon_tilesTake hs3)
    extract_lets x12 s5
    have hs5 : s5.Canon := canon_ite (canon_eachDo hs4 (fun _ _ ht => canon_wakeIsland ht)) hs4
    split
    rename_i s6 heq4
    have hs6 : s6.Canon := canon_snd heq4 (canon_ite_snd (canon_memberDone hs5) hs5)
    exact canonOpt_some (canon_contribGo hs6)

theorem canon_candRoom {key : Nat} {f : Frame} {d : CDesc} {x : Inst} : CanonOptSnd (candRoom key f d x s) :=
  canonOptSnd_ite (canonOptSnd_some hs) (canonOptSnd_map (canon_partTake hs) (fun _ ht => ht))

theorem canon_candFree {x : Inst} : (candFree x s).Canon := canon_eachDo hs fun _ _ ht => canon_partFree ht

theorem canon_candAccept {i key : Nat} {f : Frame} {x : Inst} {d : CDesc} : CanonOptSnd (candAccept i key f x d s) := by
  unfold candAccept
  split
  · exact canonOptSnd_none
  · rename_i s1 heq
    have hs1 : s1.Canon := canon_partPass hs _ heq
    exact canon_candRoom hs1

theorem canon_sampContrib {i m : Nat} {f : Frame} {x : Inst} {d : CDesc} : CanonOpt (sampContrib i m f x d s) := by
  unfold sampContrib
  split
  · exact canonOpt_none
  · rename_i s1 heq
    have hs1 : s1.Canon := canon_candAccept hs _ heq
    extract_lets x3
    split
    rename_i s2 heq1
    have hs2 : s2.Canon := canon_snd heq1 (canon_candTake hs1)
    extract_lets s3
    have hs3 : s3.Canon := canon_wakeIsland hs2
    split
    rename_i s4 heq2
    have hs4 : s4.Canon := canon_snd heq2 (canon_memberDone hs3)
    exact canonOpt_ite (canonOpt_ite (canonOpt_some (canon_statusEnd hs4)) (canonOpt_ite (canonOpt_some (canon_putInst (canon_candFree (canon_ite
      hs4 (canon_leafMerge hs4))))) (canonOpt_some (canon_sampleEnd hs4)))) (canonOpt_some (canon_putInst hs4))

theorem canon_contribUse {i : Nat} {f : Frame} : CanonOpt (contribUse i f s) := by
  unfold contribUse
  extract_lets pos form owed stray dup
  refine canon_collTake hs fun _ _ _ ht => canonOpt_ite (canon_sampContrib ht) ?_
  split
  · exact canonOpt_some ht
  · exact canon_contribTake ht

theorem canon_leafDone {f : Frame} {d : CDesc} {x : Inst} : (leafDone f d x s).2.Canon := canon_senderDone hs

theorem canon_wakeBlks {d : CDesc} {x : Inst} {bs : List Nat} : (wakeBlks d x bs s).Canon := canon_eachDo hs fun _ _ ht => canon_wakeIsland ht

theorem canon_expsumUse {i : Nat} {f : Frame} : CanonOpt (expsumUse i f s) := by
  unfold expsumUse
  extract_lets form dup l cs dead
  refine canon_collTake hs fun _ _ _ ht => ?_
  split
  · exact canonOpt_none
  · rename_i s1 heq
    have hs1 : s1.Canon := canon_partPass ht _ heq
    refine canonOpt_ite (canonOpt_ite (canonOpt_some (canon_statusEnd (canon_leafDone hs1))) (canonOpt_some (canon_getD (canon_rootEnds
      (canon_leafDone hs1)) (canon_putInst (canon_leafDone hs1))))) (canonOpt_ite (canonOpt_some (canon_getD (canon_rootEnds (canon_sendGexp
      (canon_ite_snd (canon_when (canon_beside hs1) (fun _ hu => canon_lateReport hu)) hs1))) (canon_putInst (canon_wakeBlks (canon_sendGexp
      (canon_ite_snd (canon_when (canon_beside hs1) (fun _ hu => canon_lateReport hu)) hs1)))))) (canonOpt_some (canon_getD (canon_rootEnds hs1)
      (canon_putInst (canon_wakeBlks hs1)))))

theorem canon_gexpUse {i : Nat} {f : Frame} : CanonOpt (gexpUse i f s) := by
  unfold gexpUse
  extract_lets form dup cs
  refine canon_collTake hs fun _ _ _ ht => ?_
  split
  · exact canonOpt_none
  · rename_i s1 heq
    have hs1 : s1.Canon := canon_partPass ht _ heq
    exact canonOpt_some (canon_advance (canon_wakeBlks (canon_foldl_snd hs1 (fun _ _ hu => canon_reduceBlk hu))))

theorem canon_sampPartial {i : Nat} {f : Frame} {x : Inst} {d : CDesc} : CanonOpt (sampPartial i f x d s) := by
  unfold sampPartial
  split
  · exact canonOpt_none
  · rename_i s1 heq
    have hs1 : s1.Canon := canon_candAccept hs _ heq
    extract_lets before
    split
    rename_i s2 heq1
    have hs2 : s2.Canon := canon_snd heq1 (canon_candTake hs1)
    exact canonOpt_ite (canonOpt_some (canon_sampleEnd (canon_wakeIsland hs2))) (canonOpt_some (canon_getD (canon_rootEnds (canon_wakeIsland hs2))
      (canon_putInst (canon_wakeIsland hs2))))

theorem canon_passPartial {i src : Nat} {f : Frame} {x : Inst} {d : CDesc} : CanonOpt (passPartial i src f x d s) := by
  unfold passPartial
  extract_lets y x1
  refine canonOpt_ite canonOpt_none ?_
  split
  · exact canonOpt_none
  · rename_i s1 heq
    have hs1 : s1.Canon := canon_partHold hs _ heq
    exact canonOpt_some (canon_getD (canon_rootEnds hs1) (canon_advance hs1))

theorem canon_sumPartial {i : Nat} {f : Frame} {x : Inst} {d : CDesc} : CanonOpt (sumPartial i f x d s) := by
  unfold sumPartial
  extract_lets now rest go
  refine canonOpt_ite canonOpt_none (canonOpt_ite (canonOpt_map (canon_partPass hs) (fun _ ht => canon_getD (canon_rootEnds (canon_foldl_snd ht (fun
    _ _ hu => canon_partialBlk hu))) (canon_putInst (canon_foldl_snd ht (fun _ _ hu => canon_partialBlk hu))))) (canonOpt_some (canon_getD
    (canon_rootEnds (canon_foldl_snd hs (fun _ _ ht => canon_partialBlk ht))) (canon_putInst (canon_foldl_snd hs (fun _ _ ht => canon_partialBlk
    ht))))))

theorem canon_partialUse {i : Nat} {f : Frame} : CanonOpt (partialUse i f s) := by
  unfold partialUse
  exact canon_collTake hs fun _ _ _ ht => canonOpt_ite (canon_sampPartial ht) (canonOpt_ite (canon_passPartial ht) (canon_sumPartial ht))

theorem canon_ltallyUse {i : Nat} {f : Frame} : CanonOpt (ltallyUse i f s) := by
  unfold ltallyUse
  extract_lets form dup t add
  refine canon_collTake hs fun _ _ _ ht => ?_
  split
  · exact canonOpt_none
  · rename_i s1 heq
    have hs1 : s1.Canon := canon_partPass ht _ heq
    extract_lets x3
    split
    rename_i s2 heq1
    have hs2 : s2.Canon := canon_snd heq1 (canon_ite_snd hs1 (canon_leafDone hs1))
    split
    · rename_i s3 heq2
      have hs3 : s3.Canon := canon_rootEnds hs2 _ heq2
      exact canonOpt_some hs3
    · exact canonOpt_some (canon_advance hs2)

theorem canon_resultUse {i : Nat} {f : Frame} : CanonOpt (resultUse i f s) := by
  unfold resultUse
  extract_lets bs dup
  refine canon_collTake hs fun _ _ _ ht => ?_
  split
  · exact canonOpt_none
  · rename_i s1 heq
    have hs1 : s1.Canon := canon_partPass ht _ heq
    exact canonOpt_some (canon_advance hs1)

theorem canon_leafMeas {x : Inst} {word : Nat} : (leafMeas x word s).Canon := canon_measSettle (canon_beside hs)

theorem canon_leafLost {d : CDesc} {l : Fnid} {x : Inst} : (leafLost d l x s).2.Canon :=
  canon_ite_snd hs (canon_foldl_snd hs (fun _ _ ht => canon_finishBlk ht))

theorem canon_statusUse {i : Nat} {f : Frame} : CanonOpt (statusUse i f s) := by
  unfold statusUse
  extract_lets dup code word bits
  refine canon_collTake hs fun _ _ _ ht => ?_
  split
  · exact canonOpt_none
  · rename_i s1 heq
    have hs1 : s1.Canon := canon_partPass ht _ heq
    refine canonOpt_ite (canonOpt_some (canon_getD (canon_rootEnds (canon_ite_snd (canon_leafLost hs1) hs1)) (canon_advance (canon_ite_snd
      (canon_leafLost hs1) hs1)))) (canonOpt_some (canon_leafMeas (canon_endInst (canon_ite hs1 (canon_dropFrames hs1)))))

theorem canon_collBlockReducedEffect {b : Nat} {x : Inst} : (collBlockReducedEffect b x s).Canon := by
  unfold collBlockReducedEffect
  split
  rename_i s1 heq
  have hs1 : s1.Canon := canon_snd heq (canon_reduceBlk hs)
  exact canon_advance hs1

theorem canonNext_execCollBlockReduced {inst : BitVec 32} {step : Word} {b : Nat} : CanonNext (execCollBlockReduced inst step b s) := by
  unfold execCollBlockReduced
  split
  · exact canonNext_next hs
  · exact canonNext_actIf hs fun _ ht => canon_collBlockReducedEffect ht

theorem canonNext_execCollTimeout {inst : BitVec 32} {step : Word} : CanonNext (execCollTimeout inst step s) := by
  unfold execCollTimeout
  split
  · exact canonNext_next hs
  · exact canonNext_actIf hs fun _ ht => canon_failEnd ht

theorem canon_collUnmatchedExpiryEffect {k : Nat} : (collUnmatchedExpiryEffect k s).Canon := by
  unfold collUnmatchedExpiryEffect
  extract_lets _ s1
  have hs1 : s1.Canon := canon_beside hs
  split
  · exact hs1
  · exact canon_discard (canon_ite (canon_bump hs1) (canon_bump hs1))

theorem canonNext_execCollUnmatchedExpiry {i : Nat} : CanonNext (execCollUnmatchedExpiry i s) := by
  unfold execCollUnmatchedExpiry
  split
  · exact canonNext_next hs
  · exact canonNext_actIf hs fun _ ht => canon_collUnmatchedExpiryEffect ht

theorem canon_collRewind {slot : Nat} {from_ : Word} : (collRewind slot from_ s).Canon :=
  canon_beside (canon_eachDo hs (fun _ _ ht => canon_endInst ht))

theorem canon_collReleased {slot : Nat} {step : Word} : (collReleased slot step s).Canon := canon_beside hs

theorem canon_collEpoch : (collEpoch s).Canon := canon_eachDo hs fun _ _ ht => canon_statusEnd ht

theorem canon_collQuar {c : Nat} : (collQuar c s).Canon := canon_beside hs

theorem canon_collEcc {inst : Nat} {step : Word} {m : Option Nat} {b : Nat} : (collEcc inst step m b s).Canon := by
  unfold collEcc
  split
  · exact hs
  · exact canon_ite (canon_putInst hs) (canon_ite hs (canon_putInst hs))

end

end Sys2Proof.Machine

/-! The form kept: layer steps (R143 to R176). -/
namespace Sys2Proof.Machine
open Sys2Proof

set_option Elab.async false

section
variable {s : State} (hs : s.Canon)
include hs

theorem canon_putLayer {l : Layer} : (s.putLayer l).Canon := canon_beside hs

theorem canon_layTal {t : Tal} {l : Layer} : (layTal t l s).2.Canon := canon_addBeadTally hs

theorem canon_legMeas {l : Layer} {d : XDesc} {owner : Fnid} {no k closing tick : Nat} : (legMeas l d owner no k closing tick s).Canon :=
  canon_ite hs (canon_beside hs)

theorem canon_makeVoid {l : Layer} : (makeVoid l s).2.Canon := canon_ite_snd hs (canon_bump (canon_beside hs))

theorem canon_squash {c : Staged} {l : Layer} : (squash c l s).2.Canon := canon_bump (canon_eachDo hs (fun _ _ ht => canon_unref (canon_setQueue ht)))

theorem canon_squashTok {p : Staged → Bool} {t : Tok} {l : Layer} : (squashTok p t l s).2.Canon := canon_foldl_snd hs fun _ _ ht => canon_squash ht

theorem canon_release {c : Staged} {l : Layer} : (release c l s).2.Canon := by
  unfold release
  extract_lets x shut s1 l1 x1 s2 s3
  have hs1 : s1.Canon := canon_bump hs
  have hs2 : s2.Canon := canon_setQueue hs1
  have hs3 : s3.Canon := by
    unfold s3
    refine canon_eachDo hs2 fun _ _ ht => ?_
    split
    · exact canon_setBuf ht
    · exact ht
  exact canon_ite_snd (canon_eachDo hs1 (fun _ _ ht => canon_unref (canon_fenceCount (canon_setQueue ht)))) (canon_kaLeave hs3)

/-- partTake is known by one property alone here: where the function's equation is made, its count of cells would be done in unary. -/
theorem canon_stageFrames {l : Layer} {d : XDesc} {t : Tok} {e p : Nat} {dst : Fnid} {xs : List (Nat × Nat × List Byte)} :
    CanonOptSnd (stageFrames l d t e p dst xs s) := by
  obtain ⟨P, hP, htake⟩ : ∃ P, partTake = P ∧ ∀ (i k n : Nat) (s : State), s.Canon → CanonOptSnd (P i k n s) :=
    ⟨_, rfl, fun _ _ _ _ hs => canon_partTake hs⟩
  generalize hF : stageFrames = F
  delta stageFrames stageFrames._f at hF
  rw [hP] at hF
  subst hF
  induction xs generalizing s with
  | nil => exact canonOptSnd_some hs
  | cons x rest ih =>
    unfold List.brecOn List.brecOn.go
    dsimp -zeta only
    extract_lets f
    split
    · exact canonOptSnd_none
    · next heq =>
      have h1 := htake _ _ _ _ hs _ heq
      split
      · exact canonOptSnd_none
      · next heq1 =>
        have h2 := canon_actRef h1 _ heq1
        split
        · exact canonOptSnd_none
        · next heq2 =>
          have h3 := ih (canon_enqueueAt (canon_store h2)) _ heq2
          exact canonOptSnd_some h3

theorem canon_stageTok {t : Tok} {l : Layer} : (stageTok t l s).2.Canon := by
  unfold stageTok
  extract_lets d
  split
  · refine canon_foldl_snd hs (fun _ _ ht => ?_)
    split
    extract_lets dst t1
    split
    · exact ht
    · split
      · exact canon_bump ht
      · rename_i s2 heq3
        have hs2 : s2.Canon := canon_stageFrames ht _ heq3
        exact canon_ite_snd (canon_squash hs2) hs2
  · exact hs

theorem canon_weighed {l : Layer} : (weighed l s).2.Canon := canon_ite_snd hs (canon_beside hs)

theorem canon_watchLayer {l : Layer} : (watchLayer l s).Canon := canon_eachDo hs fun _ _ ht => canon_modCore ht

theorem canon_unwatchLayer {l : Layer} : (unwatchLayer l s).Canon := canon_eachDo hs fun _ _ ht => canon_modCore ht

theorem canon_takeEntries {n : Nat} {l : Layer} : (takeEntries n l s).2.Canon := by
  induction n generalizing l s with
  | zero => exact hs
  | succ n ih =>
    unfold takeEntries
    dsimp only
    split
    · exact ih (canon_wakeIsland hs)
    · exact hs

theorem canon_shareEntries : (shareEntries s).Canon := canon_eachDo hs fun _ _ ht => canon_putLayer (canon_takeEntries ht)

theorem canon_sendLstatus {code : Nat} {o : Fnid} {l : Layer} : (sendLstatus code o l s).2.Canon := by
  unfold sendLstatus
  extract_lets d
  split
  rename_i s1 heq
  have hs1 : s1.Canon := canon_snd heq (canon_weighed hs)
  extract_lets data n
  split
  rename_i s2 heq1
  have hs2 : s2.Canon := canon_snd heq1 (canon_ite_snd (canon_beside hs1) hs1)
  exact canon_formSend (canon_ite (canon_legMeas hs2) hs2)

theorem canon_loadRecord {l : Layer} {d : XDesc} {code : Nat} : (loadRecord l d code s).Canon := canon_windowWr (canon_windowWr hs)

theorem canon_payOwes {l : Layer} : (payOwes l s).2.Canon := canon_eachDo hs fun _ _ ht => canon_eachDo ht (fun _ _ hu => canon_repay hu)

theorem canon_freeTok {d : XDesc} {t : Tok} : (freeTok d t s).Canon := by
  unfold freeTok
  extract_lets s1 s2
  have hs1 : s1.Canon := canon_eachDo hs fun _ _ ht => canon_repay ht
  have hs2 : s2.Canon := by
    unfold s2
    split
    · exact canon_unref hs1
    · exact hs1
  exact canon_eachDo hs2 fun _ _ ht => canon_partFree ht

theorem canon_closeLayer {failed : Bool} {l : Layer} : (closeLayer failed l s).2.Canon := by
  unfold closeLayer
  extract_lets d
  split
  rename_i s1 heq
  have hs1 : s1.Canon := canon_snd heq (canon_weighed hs)
  exact canon_shareEntries (canon_beside (canon_unwatchLayer (canon_eachDo (canon_beside (canon_endWaiting (canon_eachDo (canon_foldl_snd hs1 (fun _
    _ ht => canon_squashTok ht)) (fun _ _ ht => canon_clearBlock ht)))) (fun _ _ ht => canon_freeTok ht))))

theorem canon_dropOffers {l : Layer} : (dropOffers l s).Canon := canon_eachDo (canon_beside hs) fun _ _ ht => canon_discard ht

theorem canon_dropMeas {l : Layer} : (dropMeas l s).Canon := canon_measSettle (canon_beside hs)

theorem canon_layerOk {l : Layer} : (layerOk l s).Canon := by
  unfold layerOk
  extract_lets d
  split
  rename_i s1 heq
  have hs1 : s1.Canon := canon_snd heq (canon_closeLayer hs)
  exact canon_bump (canon_loadRecord hs1)

theorem canon_layerFail {code : Nat} {l : Layer} : (layerFail code l s).Canon := by
  unfold layerFail
  extract_lets d
  split
  rename_i s1 heq
  have hs1 : s1.Canon := canon_snd heq (canon_foldl_snd hs (fun _ _ ht => canon_sendLstatus ht))
  extract_lets w s2
  have hs2 : s2.Canon := canon_eachDo hs1 fun _ _ ht => canon_formSend ht
  split
  rename_i s3 heq1
  have hs3 : s3.Canon := canon_snd heq1 (canon_closeLayer hs2)
  exact canon_bump (canon_loadRecord (canon_dropMeas (canon_dropOffers hs3)))

theorem canon_layerCheck {l : Layer} : (layerCheck l s).Canon := by
  unfold layerCheck
  extract_lets d all sent due
  split
  rename_i s1 heq
  have hs1 : s1.Canon := canon_snd heq (canon_foldl_snd hs (fun _ _ ht => canon_sendLstatus ht))
  exact canon_ite (canon_layerOk hs1) (canon_ite (canon_layerFail hs1) (canon_putLayer hs1))

theorem canon_sendExpin {t : Tok} {e : Nat} {dst : Fnid} {l : Layer} : (sendExpin t e dst l s).Canon :=
  canon_eachDo hs fun _ _ ht => canon_formSend ht

theorem canon_offerCore {d : XDesc} {c : Nat} {h : Hdr} {act : Option Nat} : (offerCore d c h act s).Canon := canon_formSend hs

theorem canon_sendLocin {t : Tok} {e n core : Nat} {l : Layer} : (sendLocin t e n core l s).Canon := by
  unfold sendLocin
  extract_lets d xs word
  refine canon_eachDo hs fun _ _ ht => ?_
  split
  · exact ht
  · exact canon_offerCore ht

theorem canon_dispatch {no : Nat} {o : Fnid} {e : Nat} {r : Route} {l : Layer} : (dispatch no o e r l s).2.Canon := by
  unfold dispatch
  split
  · exact hs
  · extract_lets staged n s1
    have hs1 : s1.Canon := canon_bumpN hs
    split
    · extract_lets l1 l2
      split
      · exact canon_ite_snd (canon_release hs) (canon_sendExpin (canon_bump hs))
      · exact canon_sendExpin (canon_bump hs)
      · exact canon_sendExpin hs
    · exact canon_sendLocin (canon_bump (canon_foldl_snd hs1 (fun _ _ ht => canon_squash ht)))
    · split
      rename_i s2 heq1
      have hs2 : s2.Canon := canon_snd heq1 (canon_squashTok hs1)
      extract_lets l2
      split
      rename_i s3 heq2
      have hs3 : s3.Canon := canon_snd heq2 (canon_makeVoid hs2)
      exact canon_sendExpin (canon_bump hs3)

theorem canon_commitTok {b : Nat} {t : Tok} {l : Layer} : (commitTok b t l s).2.2.Canon := by
  unfold commitTok
  extract_lets d rs node t1 l1
  refine canon_ite_snd2 hs (canon_ite (canon_legMeas (canon_foldl_snd (canon_squashTok hs) (fun _ _ ht => canon_dispatch ht))) (canon_foldl_snd
    (canon_squashTok hs) (fun _ _ ht => canon_dispatch ht)))

theorem canon_commitOwner {b no n : Nat} {o : Fnid} {l : Layer} : (commitOwner b o no n l s).2.2.Canon := by
  induction n generalizing no l s with
  | zero => exact hs
  | succ n ih =>
    unfold commitOwner
    split
    · exact hs
    · refine canon_ite_snd2 (ih hs) (canon_ite_snd2 hs ?_)
      split
      next heq =>
        have ht := canon_snd2 heq (canon_commitTok hs)
        exact canon_ite_snd2 ht (ih ht)

theorem canon_sendDcounts {b : Nat} {l : Layer} : (sendDcounts b l s).2.Canon := by
  unfold sendDcounts
  extract_lets d one
  split
  rename_i s1 heq
  have hs1 : s1.Canon := canon_snd heq (canon_foldl_snd hs (fun _ _ ht => canon_ite_snd (canon_offerCore (canon_foldl_snd ht (fun _ _ hu =>
    canon_formSend hu))) (canon_foldl_snd ht (fun _ _ hu => canon_formSend hu))))
  exact canon_bumpN hs1

theorem canon_layerAdvance {l : Layer} : (layerAdvance l s).Canon := by
  unfold layerAdvance
  extract_lets d
  split
  · exact canon_layerCheck hs
  · split
    rename_i heq
    have ht := canon_snd2 heq (canon_ite_snd2 hs (canon_foldl_snd2 hs fun _ _ hu => canon_ite_snd2 hu (canon_commitOwner hu)))
    refine canon_ite (canon_layerFail ht) ?_
    split
    next heq => exact canon_layerCheck (canon_snd heq (canon_ite_snd (canon_sendDcounts ht) ht))

theorem canon_xTake {i : Nat} {f : Frame} {body : Layer → XDesc → State → Option State}
    (hbody : ∀ (x : Layer) (x1 : XDesc) (t : State), t.Canon → CanonOpt (body x x1 t)) : CanonOpt (xTake i f body s) := by
  unfold xTake
  split
  · exact canonOpt_some (canon_offerFrecv hs)
  · exact canonOpt_some (canon_discard (canon_bump hs))
  · extract_lets l
    refine canonOpt_ite ?_ (hbody _ _ _ (canon_ite hs (canon_watchLayer hs)))
    split
    · exact canonOpt_none
    · rename_i s1 heq1
      have hs1 : s1.Canon := canon_partPass hs _ heq1
      exact canonOpt_some (canon_layerFail hs1)

theorem canon_expWait {i : Nat} {f : Frame} : (expWait i f s).Canon := by
  unfold expWait
  split
  · exact hs
  · exact canon_countWait hs

omit hs in
theorem keeps_expUnit {dk : Nat → Bool} {use : Nat → Frame → State → Option State}
    (huse : ∀ (i : Nat) (f : Frame) (t : State), t.Canon → CanonOpt (use i f t)) : (expUnit dk use).Keeps :=
  ⟨fun _ _ hs => canon_bump hs, huse, fun _ _ _ hs => canon_expWait hs⟩

theorem canon_keepOwe {i : Nat} : (keepOwe i s).2.Canon := by
  unfold keepOwe
  split
  · exact hs
  · exact canon_setBuf hs

theorem canon_actUse {i : Nat} {f : Frame} : CanonOpt (actUse i f s) := by
  refine canon_xTake hs fun l d s hs => ?_
  extract_lets p t took
  have htook : CanonOptSnd took := by
    unfold took
    split
    · exact canonOptSnd_some hs
    · split
      · exact canonOptSnd_none
      · next heq =>
        have h1 := canon_partTake hs _ heq
        exact canonOptSnd_some (canon_store h1)
  clear_value took
  split
  next bit tick _ =>
  split
  · exact canonOpt_none
  · next t1 s1 =>
    have h1 : s1.Canon := htook _ rfl
    split
    next owes s2 heq2 =>
    have h2 : s2.Canon := canon_snd heq2 (canon_ite_snd h1 (canon_keepOwe h1))
    split
    · exact canonOpt_none
    · next s3 heq3 =>
      have h3 : s3.Canon := canon_partPass h2 _ heq3
      extract_lets t2
      split
      next l1 s4 heq4 =>
      have h4 : s4.Canon := canon_snd heq4 (canon_payOwes h3)
      refine canonOpt_ite (canonOpt_some (canon_putLayer (canon_stageTok ?_))) (canonOpt_some (canon_putLayer h4))
      exact canon_eachDo h4 fun _ _ ht => canon_wakeIsland ht

theorem canon_tendUse {i : Nat} {f : Frame} : CanonOpt (tendUse i f s) := by
  unfold tendUse
  refine canon_xTake hs fun _ _ _ ht => ?_
  split
  · exact canonOpt_none
  · rename_i s1 heq
    have hs1 : s1.Canon := canon_partPass ht _ heq
    exact canonOpt_some (canon_layerAdvance hs1)

theorem canon_routeBatch {ts : List Tok} {l : Layer} : (routeBatch ts l s).2.Canon := by
  unfold routeBatch
  extract_lets d
  split
  rename_i s1 heq
  have hs1 : s1.Canon := canon_snd heq (canon_weighed hs)
  refine canon_foldl_snd (canon_addBeadTally hs1) fun a x ht => ?_
  obtain ⟨l1, t1⟩ := a
  dsimp only [layTal]
  exact canon_when (canon_when (canon_when (canon_bump (canon_addBeadTally ht)) fun _ hu => canon_bump hu) fun _ hu => canon_bump hu) fun _ hu =>
    canon_beside hu

theorem canon_tokenRoutedEffect {ts : List (Option Tok)} {l : Layer} : (tokenRoutedEffect ts l s).Canon := by
  unfold tokenRoutedEffect
  split
  rename_i s1 heq
  have hs1 : s1.Canon := canon_snd heq (canon_routeBatch hs)
  exact canon_layerAdvance hs1

theorem canonNext_execTokenRouted {layer : BitVec 32} {step : Word} {toks : List (Fnid × BitVec 32)} :
    CanonNext (execTokenRouted layer step toks s) := by
  unfold execTokenRouted
  split
  · exact canonNext_next hs
  · exact canonNext_actIf hs fun _ ht => canon_tokenRoutedEffect ht

theorem canon_expoutUse {i : Nat} {f : Frame} : CanonOpt (expoutUse i f s) := by
  refine canon_xTake hs fun l d s hs => ?_
  extract_lets p
  split
  · exact canonOpt_some (canon_discard hs)
  · split
    next bit tick _ =>
    extract_lets took
    have htook : CanonOptSnd took := by
      unfold took
      refine canonOptSnd_ite (canonOptSnd_some hs) ?_
      split
      · exact canonOptSnd_none
      · next heq =>
        have h1 := canon_partTake hs _ heq
        exact canonOptSnd_some h1
    clear_value took
    split
    · exact canonOpt_none
    · next t1 s1 =>
      have h1 : s1.Canon := htook _ rfl
      split
      · exact canonOpt_none
      · next s2 heq2 =>
        have h2 : s2.Canon := canon_partPass h1 _ heq2
        exact canonOpt_some (canon_layerCheck (canon_takeEntries h2))

theorem canon_sendCombined {t : Tok} {l : Layer} : (sendCombined t l s).2.Canon :=
  canon_freeTok (canon_eachDo (canon_legMeas hs) (fun _ _ ht => canon_formSend ht))

theorem canon_combineBlockDoneEffect {l : Layer} {x : Busy} {t : Tok} {b : Nat} : (combineBlockDoneEffect l x t b s).Canon := by
  unfold combineBlockDoneEffect
  extract_lets d c ins
  split
  rename_i l1 s1 heq1
  have hs1 : s1.Canon := canon_snd heq1 (canon_weighed hs)
  extract_lets l2 s2 s3
  have hs2 : s2.Canon := canon_clearBlock hs1
  have hs3 : s3.Canon := canon_freed hs2
  refine canon_ite (canon_shareEntries (canon_putLayer hs2)) ?_
  split
  extract_lets o out
  split
  rename_i l3 s4 heq4
  have hs4 : s4.Canon := canon_snd heq4 (canon_layTal hs3)
  extract_lets s5 t1 s6 l4
  have hs5 : s5.Canon := canon_shadowSample hs4
  have hs6 : s6.Canon := canon_shareEntries (canon_putLayer hs5)
  split
  rename_i l5 s7 heq7
  exact canon_layerCheck (canon_snd heq7 (canon_ite_snd (canon_sendCombined hs6) hs6))

theorem canonNext_execCombineBlockDone {layer : BitVec 32} {step : Word} {owner : Fnid} {token : BitVec 32} {b : Nat} :
    CanonNext (execCombineBlockDone layer step owner token b s) := by
  unfold execCombineBlockDone
  split
  · exact canonNext_next hs
  · split
    · exact canonNext_actIf hs fun _ ht => canon_combineBlockDoneEffect ht
    · exact canonNext_next hs

omit hs in
theorem keeps_cancelUnit : cancelUnit.Keeps :=
  ⟨fun _ _ hs => canon_bump hs, fun _ _ _ hs => canonOpt_some (canon_discard (canon_bump hs)), fun _ _ _ hs => hs⟩

theorem canonNext_execLayerTimeout {layer : BitVec 32} {step : Word} : CanonNext (execLayerTimeout layer step s) := by
  unfold execLayerTimeout
  split
  · exact canonNext_next hs
  · exact canonNext_actIf hs fun _ ht => canon_layerFail ht

theorem canon_expRewind {slot : Nat} {from_ : Word} : (expRewind slot from_ s).Canon :=
  canon_beside (canon_eachDo hs (fun _ _ ht => canon_bump (canon_dropMeas (canon_dropOffers (canon_closeLayer ht)))))

theorem canon_expEpoch : (expEpoch s).Canon := canon_eachDo hs fun _ _ ht => canon_layerFail ht

theorem canon_expPort {p : Nat} : (expPort p s).Canon := by
  unfold expPort
  refine canon_eachDo hs (fun _ _ ht => canon_ite (canon_layerFail (canon_foldl_snd ht (fun _ _ hu => canon_squashTok hu))) (canon_putLayer
    (canon_foldl_snd ht (fun _ _ hu => canon_squashTok hu))))

theorem canon_expReleased {slot : Nat} {step : Word} : (expReleased slot step s).Canon :=
  canon_eachDo (canon_beside hs) fun _ _ ht => canon_ite (canon_layerFail ht) (canon_layerAdvance ht)

theorem canon_expKick : (expKick s).Canon := canon_eachDo hs fun _ _ ht => canon_layerAdvance ht

theorem canon_expCoreQuar {c : Nat} : (expCoreQuar c s).Canon := canon_eachDo hs fun _ _ ht => canon_putLayer ht

theorem canon_expEcc {layer : Nat} {step : Word} {o : Fnid} {no : Nat} : (expEcc layer step o no s).Canon := by
  unfold expEcc
  split
  · exact hs
  · split
    · exact hs
    · exact canon_ite hs (canon_layerAdvance (canon_foldl_snd hs (fun _ _ ht => canon_squash ht)))

theorem canon_expUndef {p : Layer → Bool} : (expUndef p s).Canon := canon_beside hs

end

end Sys2Proof.Machine

/-! The form kept: admission, who may reach what, membership, rewinds and commits (R271 to R306, R330 to R337, R381 to R383). -/
namespace Sys2Proof.Machine
open Sys2Proof

set_option Elab.async false

section
variable {s : State} (hs : s.Canon)
include hs

theorem canon_setRho : (setRho s).Canon := canon_eachDo hs fun _ _ ht => canon_eachDo ht (fun _ _ hu => canon_setFld hu)

theorem canon_reserveParts {l : List Nat} : (reserveParts l s).2.Canon := by
  induction l generalizing s with
  | nil => exact hs
  | cons i t ih =>
    unfold reserveParts
    exact canon_ite_snd (ih (canon_setFld (canon_setPart hs))) hs

theorem canon_takeSlot {k : Nat} {b : Brew} {seeds : List Word} {pwd : Word × Word} : (takeSlot k b seeds pwd s).Canon :=
  canon_eachDo (canon_eachDo (canon_setReg (canon_setReg (canon_setReg (canon_setFld (canon_eachDo (canon_setRho (canon_beside hs)) (fun _ _ ht =>
    canon_setReg ht)))))) (fun _ _ ht => canon_setFld ht)) fun _ _ ht => canon_enterCoreSt (canon_modCore ht)

theorem canon_countRefusal {f : Frame} {r : Refuse} : (countRefusal f r s).Canon :=
  canon_ite (canon_bump hs) (canon_when (canon_countErr hs) (fun _ ht => canon_bump ht))

theorem canon_refuse {i : Nat} {f : Frame} {r : Refuse} : CanonOpt (refuse i f r s) :=
  canonOpt_ite (canonOpt_some (canon_ackStore (canon_countRefusal hs))) (canon_reply (canon_countRefusal hs))

omit hs in
theorem keeps_syncUnit {op p : Nat → Bool} {body : Nat → Frame → State → Option State} {wait : Nat → Frame → State → State}
    (hbody : ∀ (i : Nat) (f : Frame) (t : State), t.Canon → CanonOpt (body i f t))
    (hwait : ∀ (i : Nat) (f : Frame) (t : State), t.Canon → (wait i f t).Canon) : (syncUnit op p body wait).Keeps := by
  refine ⟨fun _ _ hs => hs, fun i f s hs => canonOpt_ite (canonOpt_some (canon_discard hs)) ?_, hwait⟩
  split
  · exact canon_refuse hs
  · exact canonOpt_bind (canon_goHome hs) (hbody i f)

theorem canon_prewakeArm {b : Brew} : (prewakeArm b s).Canon := canon_eachDo hs fun _ _ ht => canon_beside ht

theorem canon_stepRelease {k : Nat} : (stepRelease k s).Canon := by
  unfold stepRelease
  split
  · exact hs
  · exact canon_ite (canon_bump hs) (canon_ite hs (canon_expReleased (canon_collReleased (canon_eachDo (canon_beside (canon_setReg (canon_prewakeArm
    (canon_seedPin hs)))) (fun _ _ ht => canon_wakeIsland (canon_releaseCore ht))))))

theorem canon_releaseUse {i : Nat} {f : Frame} : CanonOpt (releaseUse i f s) := by
  unfold releaseUse
  refine canonOpt_ite (canonOpt_some (canon_discard (canon_bump hs))) (canonOpt_some (canon_discard ?_))
  split
  · exact canon_eachDo hs fun _ _ ht => canon_stepRelease ht
  · exact hs

omit hs in
theorem keeps_releaseUnit : releaseUnit.Keeps := ⟨fun _ _ hs => hs, fun _ _ _ hs => canon_releaseUse hs, fun _ _ _ hs => hs⟩

theorem canon_lateAnswer {dst : Fnid} {seq : Nat} : (lateAnswer dst seq s).Canon := canon_ite (canon_bump hs) hs

theorem canon_mrspUse {i : Nat} {f : Frame} : CanonOpt (mrspUse i f s) := by
  unfold mrspUse
  split
  · exact canonOpt_some (canon_discard (canon_answerReq hs))
  · exact canonOpt_some (canon_discard (canon_lateAnswer hs))

omit hs in
theorem keeps_mrspUnit : mrspUnit.Keeps := ⟨fun _ _ hs => hs, fun _ _ _ hs => canon_mrspUse hs, fun _ _ _ hs => hs⟩

theorem canon_ackTake {status : Frame → Nat} {i : Nat} {f : Frame} : CanonOpt (ackTake status i f s) := by
  unfold ackTake
  extract_lets w0 map dst s1
  have hs1 : s1.Canon := by
    unfold s1
    refine canon_eachDo hs fun _ _ ht => ?_
    split
    · exact canon_answerReq ht
    · exact canon_lateAnswer ht
  exact canonOpt_some (canon_discard hs1)

omit hs in
theorem keeps_doneUnit : doneUnit.Keeps := by
  refine ⟨fun _ _ hs => hs, fun i f s hs => ?_, fun _ _ _ hs => hs⟩
  unfold doneUnit
  dsimp only
  exact canon_ackTake hs

omit hs in
theorem keeps_nackUnit : nackUnit.Keeps := by
  refine ⟨fun _ _ hs => hs, fun i f s hs => ?_, fun _ _ _ hs => hs⟩
  unfold nackUnit
  dsimp only
  exact canon_ackTake hs

theorem canon_fenceQueues {i : Nat} {n : Fnid} {p : Nat} : (fenceQueues i n p s).Canon :=
  canon_eachDo hs fun _ _ ht => canon_eachDo ht fun _ _ hu => canon_ite (canon_discard (canon_bump (canon_dequeue hu))) hu

theorem canon_fenceCross {i : Nat} {n : Fnid} : (fenceCross i n s).Canon :=
  canon_eachDo hs fun _ _ ht => canon_ite (canon_discard (canon_bump (canon_beside ht))) (canon_ite (canon_bump (canon_beside ht)) ht)

theorem canon_fenceUnmatched {i : Nat} {n : Fnid} : (fenceUnmatched i n s).Canon :=
  canon_eachDo hs fun _ _ ht => canon_discard (canon_bump (canon_beside ht))

theorem canon_fencePurge {i : Nat} {n : Fnid} : (fencePurge i n s).Canon :=
  canon_crossDrain (canon_fenceUnmatched (canon_fenceCross (canon_eachDo hs (fun _ _ ht => canon_fenceQueues ht))))

theorem canon_fenceAdd {n : Nat} : (fenceAdd n s).Canon := by
  unfold fenceAdd
  split
  · exact hs
  · split
    · exact canon_fencePurge (canon_setFld (canon_setFld hs))
    · exact hs

theorem canon_fenceDel {n : Nat} : (fenceDel n s).Canon := by
  unfold fenceDel
  split
  · exact canon_setFld hs
  · exact hs

theorem canon_epochTo {e : Nat} : (epochTo e s).Canon := canon_ite (canon_expEpoch (canon_collEpoch (canon_beside (canon_bump (canon_setFld hs))))) hs

theorem canon_epochApply {k : Nat} : (epochApply k s).Canon := by
  unfold epochApply
  refine canon_epochTo ?_
  split
  · exact canon_fenceAdd hs
  · exact canon_fenceDel hs
  · exact hs

theorem canon_epochUse {i : Nat} {f : Frame} : CanonOpt (epochUse i f s) := by
  refine canonOpt_ite (canon_refuse hs) (canon_loggedUse hs ?_ (canon_epochApply hs))
  intro g hg
  split at hg
  · exact Option.some.inj hg ▸ canon_refuse hs
  · exact absurd hg.symm (Option.some_ne_none _)

theorem canon_authApply {j k : Nat} : (authApply j k s).Canon := canon_beside (canon_setReg hs)

theorem canon_authUse {i : Nat} {f : Frame} : CanonOpt (authUse i f s) := by
  refine canonOpt_ite (canon_refuse hs) (canon_loggedUse hs ?_ (canon_authApply hs))
  intro g hg
  split at hg
  · exact Option.some.inj hg ▸ canon_refuse hs
  · exact absurd hg.symm (Option.some_ne_none _)

theorem canon_stopCore {c : Nat} : (stopCore c s).Canon := canon_modCore (canon_eachDo hs (fun _ _ ht => canon_answerLate (canon_slotFree ht)))

theorem canon_rewindCore {c : Nat} : (rewindCore c s).Canon :=
  canon_ite (canon_modCore (canon_modCore (canon_stopCore hs))) (canon_enterCoreSt (canon_modCore (canon_stopCore hs)))

theorem canon_idleCore {c : Nat} : (idleCore c s).Canon := canon_modCore (canon_stopCore hs)

theorem canon_dropFormed {b : Brew} {p : Frame → Bool} : (dropFormed b p s).Canon := canon_beside hs

theorem canon_stopWork {k : Nat} {b : Brew} {from_ : Word} : (stopWork k b from_ s).Canon := canon_expRewind (canon_collRewind (canon_dropFormed hs))

theorem canon_stopAll {k : Nat} {b : Brew} : (stopAll k b s).Canon := canon_expRewind (canon_collRewind (canon_dropFormed hs))

theorem canon_rewind {k : Nat} {step : Word} : (rewind k step s).Canon := by
  unfold rewind
  split
  · exact canon_bump hs
  · exact canon_ite (canon_bump hs) (canon_eachDo (canon_stopWork (canon_beside (canon_setFld hs))) (fun _ _ ht => canon_rewindCore ht))

theorem canon_rewindUse {i : Nat} {f : Frame} : CanonOpt (rewindUse i f s) :=
  canonOpt_ite canonOpt_none (canon_loggedUse hs (fun _ hg => absurd hg.symm (Option.some_ne_none _)) (canon_rewind hs))

theorem canon_rewindHold {i : Nat} {f : Frame} : (rewindHold i f s).Canon := canon_ite hs (canon_loggedWait hs)

theorem canon_rewindWrite {k : Nat} {step : Word} : (rewindWrite k step s).Canon := canon_ite (canon_beside hs) (canon_rewind hs)

theorem canon_clearMaps {b : Brew} : (clearMaps b s).Canon := canon_eachDo hs fun _ _ ht => canon_clearBlock ht

theorem canon_unloadBegin : (unloadBegin s).Canon := by
  unfold unloadBegin
  split
  · exact hs
  · split
    · exact hs
    · exact canon_eachDo (canon_stopAll (canon_beside hs)) fun _ _ ht => canon_idleCore ht

theorem canon_rewindDoneEffect {k : SlotId} {b : Brew} : (rewindDoneEffect k b s).Canon := by
  unfold rewindDoneEffect
  extract_lets s1
  have hs1 : s1.Canon := canon_bump (canon_setFld (canon_setFld (canon_clearMaps hs)))
  split
  · exact canon_when hs1 fun _ ht => canon_unloadBegin ht
  · exact hs1

theorem canonNext_execRewindDone {k : SlotId} : CanonNext (execRewindDone k s) := by
  unfold execRewindDone
  split
  · exact canonNext_next hs
  · exact canonNext_actIf hs fun _ ht => canon_rewindDoneEffect ht

theorem canon_countArrive {n : Nat} : (countArrive n s).Canon := canon_setObj hs

theorem canon_commitUse {i : Nat} {f : Frame} : CanonOpt (commitUse i f s) :=
  canon_loggedUse hs (fun _ hg => absurd hg.symm (Option.some_ne_none _)) (canon_when (canon_countArrive hs) fun _ ht => canon_beside ht)

theorem canon_commitEnd {r : CommitRun} {cstat : Nat} : (commitEnd r cstat s).Canon := canon_completionRelease (canon_beside (canon_setReg hs))

theorem canon_admission {b : Brew} {kaFail : Option Nat} : CanonOptSnd (s.admission b kaFail).2 := by
  unfold State.admission
  split
  · exact canonOptSnd_none
  · split
    · exact canonOptSnd_none
    · split
      · exact canonOptSnd_none
      · split
        · exact canonOptSnd_none
        · split
          · exact canonOptSnd_none
          · next hparts =>
            have ht := canon_snd hparts (canon_reserveParts hs)
            split
            · exact canonOptSnd_none
            · exact canonOptSnd_some ht

theorem canon_commitAdmit {r : CommitRun} {b : Brew} {kaFail : Option Nat} : (commitAdmit r b kaFail s).Canon := by
  unfold commitAdmit
  have hadmit := canon_admission (b := b) (kaFail := kaFail) hs
  generalize s.admission b kaFail = x at *
  extract_lets seeds pwd
  refine canon_commitEnd ?_
  split
  · next heq => exact canon_takeSlot (canon_setReg (canon_beside (hadmit _ heq)))
  · exact canon_setReg (canon_beside hs)

theorem canonNext_execCommitComplete : CanonNext (execCommitComplete s) := by
  unfold execCommitComplete
  split
  · exact canonNext_next hs
  · refine canonNext_ite (canonNext_actIf hs fun _ ht => canon_commitAdmit ht) (canonNext_act hs fun t ht => ?_)
    refine canon_ite (canon_commitEnd ht) (canon_ite (canon_commitEnd ht) (canon_ite (canon_commitEnd ht) ?_))
    extract_lets p r
    split
    · exact canon_commitAdmit ht
    · exact canon_beside (canon_eachDo ht fun _ _ hu => canon_kaLeave hu)

theorem canon_startUnload {k : Nat} {who : Option Fnid} : (startUnload k who s).Canon :=
  canon_ite (canon_beside hs) (canon_unloadBegin (canon_beside hs))

theorem canon_unloadUse {i : Nat} {f : Frame} : CanonOpt (unloadUse i f s) :=
  canon_loggedUse hs (fun _ hg => absurd hg.symm (Option.some_ne_none _)) (canon_when (canon_countArrive hs) fun _ ht => canon_startUnload ht)

theorem canon_recheckEnd {k : Nat} {ok : Bool} {pwd : Word × Word} : (recheckEnd k ok pwd s).Canon :=
  canon_addRec (canon_setFld (canon_setFld (canon_setFld hs)))

theorem canon_leaveParts {b : Brew} : (leaveParts b s).Canon := by
  unfold leaveParts
  refine canon_eachDo hs fun _ _ ht => ?_
  split
  · exact canon_setPart ht
  · exact ht

theorem canon_freeBrew {k : Nat} {b : Brew} : (freeBrew k b s).Canon := by
  unfold freeBrew
  extract_lets s1 s2 _ _ s3 s4 s5 s6
  have hs1 : s1.Canon := canon_leaveParts (canon_clearMaps hs)
  have hs2 : s2.Canon := canon_setRho (canon_beside hs1)
  have hs3 : s3.Canon := canon_beside hs2
  have hs4 : s4.Canon := canon_eachDo hs3 fun _ _ ht => canon_setFld ht
  have hs5 : s5.Canon := canon_setFld (canon_setReg hs4)
  have hs6 : s6.Canon := canon_setReg (canon_setReg hs5)
  exact canon_ite (canon_recheckEnd (canon_beside hs6)) hs6

theorem canon_rewindWaiting : (rewindWaiting s).Canon := canon_eachDo (canon_beside hs) fun _ _ ht => canon_rewind ht

theorem canon_unloadDoneEffect {u : UnloadRun} {b : Brew} : (unloadDoneEffect u b s).Canon :=
  canon_rewindWaiting (canon_completionRelease (canon_beside (canon_freeBrew (canon_eachDo (canon_stopAll hs) (fun _ _ ht => canon_idleCore ht)))))

theorem canonNext_execUnloadDone : CanonNext (execUnloadDone s) := by
  unfold execUnloadDone
  split
  · exact canonNext_next hs
  · split
    · exact canonNext_next hs
    · exact canonNext_actIf hs fun _ ht => canon_unloadDoneEffect ht

theorem canon_auditRecheckDoneEffect {k : Nat} {b : Brew} : (auditRecheckDoneEffect k b s).Canon := canon_recheckEnd hs

theorem canonNext_execAuditRecheckDone : CanonNext (execAuditRecheckDone s) := by
  unfold execAuditRecheckDone
  extract_lets k
  split
  · exact canonNext_next hs
  · exact canonNext_actIf hs fun _ ht => canon_auditRecheckDoneEffect ht

end

end Sys2Proof.Machine

/-! The form kept: links, the brown-out HOLD, monitors, checks, quizzes and ECC (R323 to R328, R339 to R342, R350 to R358, R388 to R390). -/
namespace Sys2Proof.Machine
open Sys2Proof

set_option Elab.async false

section
variable {s : State} (hs : s.Canon)
include hs

theorem canon_unfencePort {p : Nat} : (unfencePort p s).Canon := canon_eachDo hs fun _ _ ht => canon_setFld ht

theorem canon_setLink {p n : Nat} : (setLink p n s).Canon :=
  canon_setLstate (canon_ite (canon_modPort (canon_ite (canon_unfencePort hs) hs)) (canon_ite (canon_unfencePort hs) hs))

theorem canon_portOut {p n : Nat} : (portOut p n s).Canon := canon_expPort (canon_portDrop (canon_setLink hs))

theorem canon_linkDown {p : Nat} : (linkDown p s).Canon := canon_modPort (canon_portOut (canon_bump hs))

theorem canon_noteFabric : (noteFabric s).Canon := canon_ite (canon_beside hs) hs

theorem canon_portUp {p : Nat} : (portUp p s).Canon := canon_noteFabric (canon_modPort (canon_setLink hs))

theorem canon_unitEnd {pass : Option Bool} : (unitEnd pass s).Canon := by
  unfold unitEnd
  extract_lets s1
  have hs1 : s1.Canon := canon_setFld (canon_setFld hs)
  split
  · exact canon_setFld hs1
  · exact hs1

theorem canon_passProbation {p : Nat} : (passProbation p s).Canon := by
  unfold passProbation
  extract_lets s1 s2
  have hs1 : s1.Canon := canon_modPort hs
  have hs2 : s2.Canon := canon_ite (canon_portUp hs1) (canon_setLink hs1)
  exact canon_ite (canon_unitEnd (canon_modPort hs2)) hs2

theorem canon_probFail {p : Nat} : (probFail p s).Canon :=
  canon_ite (canon_modPort (canon_bump hs)) (canon_ite (canon_when (canon_modPort (canon_bump (canon_setLstate hs))) (fun _ ht => canon_setFld
    (canon_setFld (canon_setFld ht)))) hs)

theorem canon_beatRxEffect {p : PortId} {rx : RxFrame} : (beatRxEffect p rx s).Canon := by
  unfold beatRxEffect
  split
  · rename_i s1 heq
    have hs1 : s1.Canon := canon_snd heq (canon_rxHead hs)
    exact hs1
  · rename_i s1 heq
    have hs1 : s1.Canon := canon_snd heq (canon_rxHead hs)
    exact canon_ite hs (canon_ite (canon_discard (canon_tailFail hs1)) (canon_discard (canon_when hs1 (fun _ ht => canon_bump ht))))

theorem canonNext_execBeatRx {f : Src} : CanonNext (execBeatRx f s) := by
  unfold execBeatRx
  split
  · exact canonNext_next hs
  · exact canonNext_actIf hs fun _ ht => canon_beatRxEffect ht

theorem canon_beatSendEffect {p : PortId} : (beatSendEffect p s).Canon := canon_modPort (canon_linkFrame hs)

theorem canon_heartbeatIntervalEffect {p : PortId} : (heartbeatIntervalEffect p s).Canon := by
  unfold heartbeatIntervalEffect
  extract_lets x hold s1 reaches s2
  have hs1 : s1.Canon := canon_modPort hs
  have hs2 : s2.Canon := canon_ite hs1 (canon_ite (canon_setFld hs1) (canon_probFail (canon_bump hs1)))
  exact canon_ite (canon_linkDown hs2) hs2

theorem canon_trainingSuccessEffect {p : PortId} : (trainingSuccessEffect p s).Canon := by
  unfold trainingSuccessEffect
  exact canon_modPort (canon_linkUp (canon_setLink (canon_beside hs)))

theorem canon_trainingTimeoutEffect {p : PortId} : (trainingTimeoutEffect p s).Canon := canon_modPort (canon_bump hs)

theorem canon_trainingRestartEffect {p : PortId} : (trainingRestartEffect p s).Canon := canon_modPort (canon_setLink hs)

theorem canon_correctedCodewordEffect {p : PortId} {syms : List (LaneId × Nat)} : (correctedCodewordEffect p syms s).Canon :=
  canon_eachDo (canon_bump hs) fun _ _ ht => canon_bumpN ht

theorem canon_brokenFrame {p : Nat} {rx : RxFrame} : (brokenFrame p rx s).Canon := by
  unfold brokenFrame
  split
  · rename_i s1 heq
    have hs1 : s1.Canon := canon_snd heq (canon_rxHead hs)
    exact hs1
  · rename_i s1 heq
    have hs1 : s1.Canon := canon_snd heq (canon_rxHead hs)
    exact canon_ite (canon_discard (canon_tailFail hs1)) (canon_forwardArrive hs1)

theorem canon_uncorrectableCodewordEffect {p : PortId} {during : Option RxFrame} : (uncorrectableCodewordEffect p during s).Canon := by
  unfold uncorrectableCodewordEffect
  extract_lets s1
  have hs1 : s1.Canon := canon_probFail (canon_modPort (canon_bump hs))
  split
  · exact canon_ite (canon_brokenFrame hs1) hs1
  · exact hs1

theorem canon_failStop : (failStop s).Canon := canon_beside (canon_eachDo (canon_raiseFault hs) (fun _ _ ht => canon_portOut ht))

theorem canon_pmapHold {p : Nat} {old : Word} : (pmapHold p old s).Canon := canon_ite hs (canon_modPort hs)

theorem canon_laneCfgHold {p l : Nat} {old : Word} : (laneCfgHold p l old s).Canon := canon_ite hs (canon_modPort hs)

theorem canon_kaIdleTimeoutEffect {p : PortId} : (kaIdleTimeoutEffect p s).Canon := canon_mgmtFrame (canon_modPort hs)

omit hs in
theorem keeps_mgmtUnit {types : Nat → Bool} {use : Nat → Frame → State → State}
    (huse : ∀ (i : Nat) (f : Frame) (t : State), t.Canon → (use i f t).Canon) : (mgmtUnit types use).Keeps := by
  refine ⟨fun _ _ hs => hs, fun i f s hs => ?_, fun _ _ _ hs => hs⟩
  unfold mgmtUnit
  dsimp only
  split
  · exact canonOpt_some hs
  · split
    · exact canonOpt_some (canon_discard (huse _ f s hs))
    · exact canonOpt_some (canon_discard hs)

theorem canon_kaEnter {p : Nat} : (kaEnter p s).Canon := canon_modPort hs

theorem canon_kaAsked {p : Nat} {x : Frame} : (kaAsked p x s).Canon :=
  canon_ite (canon_kaEnter hs) (canon_ite (canon_kaEnter (canon_mgmtFrame hs)) (canon_mgmtFrame (canon_when hs (fun _ ht => canon_modPort ht))))

theorem canon_kaAcked {p : Nat} {x : Frame} : (kaAcked p x s).Canon :=
  canon_ite (canon_modPort hs) (canon_ite (canon_ite (canon_kaLeave (canon_kaEnter hs)) (canon_kaEnter hs)) hs)

theorem canon_keepaliveEnteredEffect {p : PortId} : (keepaliveEnteredEffect p s).Canon := canon_bump (canon_setLink (canon_modPort hs))

theorem canon_floorQueues {p : Nat} : (floorQueues p s).Canon := canon_eachDo hs fun _ _ ht => canon_ite (canon_setQueue ht) ht

theorem canon_keepaliveExitDoneEffect {p : PortId} : (keepaliveExitDoneEffect p s).Canon :=
  canon_portUp (canon_floorQueues (canon_bump (canon_modPort hs)))

theorem canon_portRemove {p : Nat} : (portRemove p s).Canon := canon_unitEnd (canon_ite hs (canon_portOut hs))

theorem canon_portReturn {p : Nat} : (portReturn p s).Canon :=
  canon_ite (canon_unitEnd hs) (canon_setFld (canon_modPort (canon_ite (canon_modPort (canon_setLink hs)) hs)))

theorem canon_unitReturnTimeoutEffect {p : Nat} : (unitReturnTimeoutEffect p s).Canon := canon_unitEnd (canon_modPort hs)

theorem canonNext_execUnitReturnTimeout : CanonNext (execUnitReturnTimeout s) := by
  unfold execUnitReturnTimeout
  split
  · exact canonNext_next hs
  · exact canonNext_act hs fun _ ht => canon_unitReturnTimeoutEffect ht

theorem canon_holdEnterEffect {mv : Nat} : (holdEnterEffect mv s).Canon := canon_raiseFault (canon_setFld (canon_beside hs))

theorem canon_holdEnd {minMv : Nat} {reset : Bool} : (holdEnd minMv reset s).Canon :=
  canon_addRec (canon_eachDo (canon_beside (canon_setFld (canon_setFld (canon_bump (canon_setFld hs))))) (fun _ _ ht => canon_beside ht))

theorem canon_modLife {d : Nat} {f : Life → Life} : (modLife d f s).Canon := canon_beside hs

theorem canon_quarantine {c cause bin : Nat} : (quarantine c cause bin s).Canon :=
  canon_ite hs (canon_collQuar (canon_expCoreQuar (canon_addRec (canon_raiseFault (canon_modCore hs)))))

theorem canon_quarantineFree {c cause : Nat} : (quarantineFree c cause s).Canon := canon_quarantine (canon_freed hs)

theorem canon_countCheck {c bin : Nat} : (countCheck c bin s).Canon := canon_bump hs

theorem canon_charge {c bin : Nat} : (charge c bin s).Canon := canon_ite (canon_quarantine (canon_bump hs)) (canon_bump hs)

theorem canon_dropCheck {i : Nat} : (dropCheck i s).Canon := canon_beside hs

theorem canon_shadowRec {x : ShadowChk} {outcome : Nat} : (shadowRec x outcome s).Canon := canon_addRec hs

theorem canon_shadowEnd {i : Nat} {x : ShadowChk} {outcome : Nat} : (shadowEnd i x outcome s).Canon := by
  unfold shadowEnd
  extract_lets s1 s2 s3
  have hs1 : s1.Canon := canon_dropCheck (canon_shadowRec hs)
  have hs2 : s2.Canon := canon_ite (canon_bump hs1) hs1
  have hs3 : s3.Canon := canon_ite (canon_charge hs2) hs2
  exact canon_ite (canon_charge hs3) hs3

theorem canon_shadowCheckDoneEffect {i : Nat} {out : List Byte} {x : ShadowChk} : (shadowCheckDoneEffect i out x s).Canon := by
  unfold shadowCheckDoneEffect
  extract_lets bin s1 s2 rest
  have hs1 : s1.Canon := canon_countCheck hs
  have hs2 : s2.Canon := canon_bump hs1
  refine canon_ite (canon_dropCheck hs1) ?_
  split
  · exact canon_shadowEnd hs2
  · exact canon_beside hs2

theorem canonNext_execShadowCheckDone {i : Nat} {upset : Option (List Byte)} : CanonNext (execShadowCheckDone i upset s) := by
  unfold execShadowCheckDone
  split
  · exact canonNext_next hs
  · exact canonNext_actIf hs fun _ ht => canon_shadowCheckDoneEffect ht

theorem canon_shadowArbiterDoneEffect {i : Nat} {out : List Byte} {x : ShadowChk} {o : List Byte} {a : Nat} :
    (shadowArbiterDoneEffect i out x o a s).Canon :=
  canon_shadowEnd (canon_countCheck hs)

theorem canonNext_execShadowArbiterDone {i : Nat} {upset : Option (List Byte)} : CanonNext (execShadowArbiterDone i upset s) := by
  unfold execShadowArbiterDone
  split
  · exact canonNext_next hs
  · split
    · exact canonNext_act hs fun _ ht => canon_shadowArbiterDoneEffect ht
    · exact canonNext_next hs

theorem canon_shadowCheckAbandonEffect {i : Nat} : (shadowCheckAbandonEffect i s).Canon := by
  unfold shadowCheckAbandonEffect
  extract_lets s1
  have hs1 : s1.Canon := by
    unfold s1
    split
    · exact canon_when hs fun _ ht => canon_shadowRec ht
    · exact hs
  exact canon_bump (canon_dropCheck hs1)

theorem canon_quizStart {c : Nat} {ret : Bool} : (quizStart c ret s).Canon := canon_modCore hs

theorem canon_coreQuizDueEffect {c : CoreId} : (coreQuizDueEffect c s).Canon := canon_ite (canon_wakeIsland hs) (canon_quizStart hs)

theorem canon_quizRestore {c : Nat} : (quizRestore c s).Canon := by
  unfold quizRestore
  extract_lets k wait s1 s2
  have hs1 : s1.Canon := canon_modCore hs
  have hs2 : s2.Canon := canon_ite (canon_modCore hs1) (canon_enterCoreSt hs1)
  split
  · exact hs2
  · exact canon_ite (canon_idleCore hs2) (canon_ite (canon_rewindCore hs2) (canon_ite (canon_acceptRelease hs2) hs2))

theorem canon_coreQuizEndEffect {c : CoreId} {expected obtained : BitVec 32} : (coreQuizEndEffect c expected obtained s).Canon := by
  unfold coreQuizEndEffect
  extract_lets pass ret s1 s2 s3 s4
  have hs1 : s1.Canon := canon_quizRec hs
  have hs2 : s2.Canon := canon_ite hs1 (canon_bump hs1)
  have hs3 : s3.Canon := canon_modCore hs2
  have hs4 : s4.Canon := canon_quizRestore hs2
  exact canon_ite (canon_unitEnd (canon_ite hs3 (canon_quarantineFree hs3))) (canon_ite hs4 (canon_quarantineFree hs4))

theorem canon_laneQuizDueEffect {p : PortId} : (laneQuizDueEffect p s).Canon := canon_mgmtFrame (canon_beside (canon_modPort hs))

theorem canon_laneQuizFail {p : Nat} : (laneQuizFail p s).Canon := canon_modPort (canon_probFail (canon_bump (canon_quizRecFree hs)))

theorem canon_laneEcho {p : Nat} {f : Frame} : (laneEcho p f s).Canon := by
  unfold laneEcho
  split
  · exact hs
  · exact canon_ite (canon_quizRecFree (canon_modPort hs)) (canon_laneQuizFail hs)

theorem canon_quizUse {p : Nat} {f : Frame} : (quizUse p f s).Canon := canon_ite (canon_laneEcho hs) (canon_mgmtFrame hs)

omit hs in
theorem keeps_quizUnit {p : Option Nat} : (quizUnit p).Keeps := by
  obtain ⟨-, huse, hwait⟩ := keeps_mgmtUnit (types := (· = 0x10)) fun i f t ht => canon_quizUse (p := i) (f := f) ht
  refine ⟨fun f s hs => ?_, huse, hwait⟩
  unfold quizUnit
  dsimp only
  split
  · exact canon_ite (canon_laneQuizFail hs) hs
  · exact hs

theorem canon_laneQuizNoechoEffect {p : PortId} : (laneQuizNoechoEffect p s).Canon := canon_modPort (canon_bump (canon_quizRecFree hs))

theorem canon_hbmUeFault {k addr : Nat} : (hbmUeFault k addr s).Canon := canon_raiseFault (canon_modLife hs)

theorem canon_hbmUeFree {k : Nat} : (hbmUeFree k s).Canon := canon_hbmUeFault (canon_freed hs)

theorem canon_stackQuizDueEffect {k : StackId} : (stackQuizDueEffect k s).Canon := canon_beside hs

theorem canon_countCe {k : Nat} {banks : List (BitVec 16 × Nat)} : (countCe k banks s).Canon :=
  canon_eachDo hs fun _ _ ht => canon_beside (canon_bumpN ht)

theorem canon_stackQuizEndEffect {k : StackId} {r : StackQuizResult} : (stackQuizEndEffect k r s).Canon := by
  unfold stackQuizEndEffect
  extract_lets _ s1 fail s2 _ s3 s4
  have hs1 : s1.Canon := canon_beside hs
  have hs2 : s2.Canon := canon_setFld hs1
  have hs3 : s3.Canon := canon_beside hs2
  have hs4 : s4.Canon := canon_eachDo (canon_countCe hs3) fun _ _ ht => canon_hbmUeFree ht
  exact canon_ite (canon_quizRecFree hs1) (canon_quizRecFree (canon_ite (canon_bump hs4) hs4))

theorem canon_stackQuizAbort {k : Nat} : (stackQuizAbort k s).Canon := canon_ite (canon_quizRecFree (canon_beside hs)) hs

theorem canon_stackOut {k : Nat} : (stackOut k s).Canon := canon_setReg (canon_beside hs)

theorem canon_stackRemove {k : Nat} : (stackRemove k s).Canon :=
  canon_unitEnd (canon_raiseFault (canon_freed (canon_stackOut (canon_stackQuizAbort hs))))

theorem canon_stackReturn {k : Nat} : (stackReturn k s).Canon := canon_setFld (canon_stackOut (canon_stackQuizAbort hs))

theorem canon_stackTrained {t : StackTrain} : (stackTrained t s).Canon := canon_setFld (canon_beside (canon_setFld (canon_setFld hs)))

theorem canon_stackZero {k : Nat} : (stackZero k s).Canon := canon_beside (canon_hbm hs (wf_filter (wf_hbm hs)))

theorem canon_stackIn {t : StackTrain} : (stackIn t s).Canon := canon_setReg (canon_beside (canon_stackZero (canon_stackTrained hs)))

theorem canon_stackScrubDoneEffect {t : StackTrain} {uncorrectable : Bool} : (stackScrubDoneEffect t uncorrectable s).Canon := by
  unfold stackScrubDoneEffect
  extract_lets s1 fail s2 s3
  have hs1 : s1.Canon := canon_ite (canon_hbmUeFree hs) hs
  have hs2 : s2.Canon := canon_countCe hs1
  have hs3 : s3.Canon := canon_quizRecFree (canon_ite (canon_bump hs2) hs2)
  exact canon_ite (canon_unitEnd hs1) (canon_ite (canon_unitEnd (canon_stackTrained hs3)) (canon_unitEnd (canon_stackIn hs3)))

theorem canon_coreRemove {c : Nat} : (coreRemove c s).Canon :=
  canon_unitEnd (canon_quarantineFree (canon_ite (canon_quizRestore (canon_quizRecFree hs)) hs))

theorem canon_coreReturn {c : Nat} : (coreReturn c s).Canon := by
  unfold coreReturn
  extract_lets asleep s1 s2
  have hs1 : s1.Canon := canon_ite (canon_wakeIsland hs) hs
  have hs2 : s2.Canon := canon_ite (canon_modCore hs1) (canon_quizStart hs1)
  exact canon_setFld hs2

theorem canon_sramUe {die block : Nat} : (sramUe die block s).Canon := canon_raiseFault (canon_modLife hs)

theorem canon_eccFault {c : Nat} : (eccFault c s).Canon := canon_coreFault (canon_beside hs)

theorem canon_rodMemEcc {c : CoreId} {a : BitVec 19} : (rodMemEcc c a s).Canon :=
  canon_sramUe (canon_eccFault (canon_modCore_mems (canon_beside hs) (fun _ ht => memsOk_wrMem ht)))

theorem canon_instrMemEcc {c : CoreId} {a : BitVec 16} : (instrMemEcc c a s).Canon :=
  canon_sramUe (canon_eccFault (canon_modCore_mems (canon_beside hs) fun k hk => memsOk_imem hk (Mem.wf_wr _ _ _ _ hk.2)))

theorem canon_beadFileEcc {c : CoreId} {b : BitVec 13} : (beadFileEcc c b s).Canon :=
  canon_eachDo (canon_eachDo (canon_sramUe (canon_eccFault (canon_modCore (canon_beside hs)))) (fun _ _ ht => canon_collEcc ht)) fun _ _ ht =>
    canon_expEcc ht

theorem canon_hbmEcc {off : Nat} : (hbmEcc off s).Canon := canon_hbmUeFault (canon_beside hs)

theorem canon_caddyEcc {p : Nat} : (caddyEcc p s).Canon := canon_sramUe (canon_freed hs)

theorem canon_sramCorrected {die block : Nat} : (sramCorrected die block s).Canon := canon_beside hs

theorem canonNext_execUncorrectableEcc {e : EccSite} : CanonNext (execUncorrectableEcc e s) := by
  unfold execUncorrectableEcc
  split
  · exact canonNext_act hs fun _ ht => canon_rodMemEcc ht
  · exact canonNext_act hs fun _ ht => canon_instrMemEcc ht
  · exact canonNext_act hs fun _ ht => canon_beadFileEcc ht
  · split
    · exact canonNext_next hs
    · exact canonNext_actIf hs fun _ ht => canon_collEcc (canon_caddyEcc ht)
  · split
    · exact canonNext_next hs
    · exact canonNext_act hs fun _ ht => canon_expEcc (canon_caddyEcc ht)
  · split
    · exact canonNext_next hs
    · exact canonNext_act hs fun _ ht => canon_expEcc (canon_caddyEcc ht)
  · exact canonNext_actIf hs fun _ ht => canon_hbmEcc ht
  · exact canonNext_act hs fun _ ht => canon_sramCorrected ht
  · exact canonNext_act hs fun _ ht => canon_countCe ht

theorem canon_tempSampleEffect {die : Fin 24} {t : BitVec 16} : (tempSampleEffect die t s).Canon :=
  canon_setFld (canon_modLife (canon_setFld (canon_setFld hs)))

theorem canon_slackSampleEffect {n : IslandId} {ps : BitVec 16} : (slackSampleEffect n ps s).Canon := canon_beside (canon_setFld (canon_setFld hs))

theorem canon_driftSampleEffect {n : IslandId} {d : BitVec 16} : (driftSampleEffect n d s).Canon := canon_setFld hs

theorem canon_eyeSampleEffect {l : LaneId} {height : BitVec 11} {width : BitVec 10} : (eyeSampleEffect l height width s).Canon :=
  canon_beside (canon_setFld (canon_setFld (canon_setFld (canon_setFld hs))))

theorem canon_clearRegs {r : Reg} : (clearRegs r s).Canon := canon_regs hs (rising_filter (rising_regs hs))

theorem canon_healthClear {v : Word} : (healthClear v s).Canon := by
  unfold healthClear
  extract_lets s1 s2 s3
  have hs1 : s1.Canon := canon_ite (canon_clearRegs (canon_clearRegs hs)) hs
  have hs2 : s2.Canon := canon_ite (canon_eachDo hs1 (fun _ _ ht => canon_setFld (canon_setFld ht))) hs1
  have hs3 : s3.Canon := canon_ite (canon_eachDo hs2 (fun _ _ ht => canon_setFld ht)) hs2
  exact canon_ite (canon_eachDo hs3 (fun _ _ ht => canon_setFld ht)) hs3

theorem canon_islandSleepEffect {n : IslandId} : (islandSleepEffect n s).Canon := canon_ite (canon_setFld (canon_setFld hs)) (canon_setFld hs)

theorem canon_keepAwake {n d : Nat} : (keepAwake n d s).Canon := canon_beside hs

theorem canon_islandWakeEffect {n : IslandId} {cold : Bool} : (islandWakeEffect n cold s).Canon := by
  unfold islandWakeEffect
  extract_lets d _ s1 s2 s3 s4 s5
  have hs1 : s1.Canon := canon_ite hs (canon_keepAwake (canon_beside hs))
  have hs2 : s2.Canon := canon_beside hs1
  have hs3 : s3.Canon := canon_bump (canon_setFld hs2)
  have hs4 : s4.Canon := canon_ite (canon_bump hs3) hs3
  have hs5 : s5.Canon := canon_ite (canon_setFld hs4) hs4
  exact canon_eachDo hs5 fun _ _ ht => canon_ite (canon_quizStart ht) ht

theorem canonNext_execIslandWake {n : IslandId} : CanonNext (execIslandWake n s) := by
  unfold execIslandWake
  split
  · exact canonNext_next hs
  · exact canonNext_act hs fun _ ht => canon_islandWakeEffect ht

theorem canon_prewakeDueEffect {i : Fin 4096} : (prewakeDueEffect i s).Canon := by
  unfold prewakeDueEffect
  extract_lets _ s1 n d _ s2
  have hs1 : s1.Canon := canon_beside hs
  have hs2 : s2.Canon := canon_beside hs1
  exact canon_ite (canon_ite hs2 (canon_beside hs2)) (canon_keepAwake hs1)

end

end Sys2Proof.Machine

/-! The form kept: the Tally book, PLDM, power and control space (R359 to R365, R391 to R400, R420 to R427). -/
namespace Sys2Proof.Machine
open Sys2Proof

set_option Elab.async false

section
variable {s : State} (hs : s.Canon)
include hs

theorem canon_bookStat : (bookStat s).Canon := canon_setFld (canon_setFld hs)

theorem canon_progRec {r : Rec} : (progRec r s).Canon := by
  unfold progRec
  refine canon_flash hs ?_
  dsimp only
  exact wf_flashProg _ _ _ (wf_flash hs)

theorem canon_eraseSect {n : Nat} : (eraseSect n s).Canon := by
  unfold eraseSect
  exact canon_flash hs (wf_flashErase _ _ (wf_flash hs))

theorem canon_sectorRec {retired : Bool} : (sectorRec retired s).Canon := canon_progRec (canon_beside hs)

theorem canon_nextSect : (nextSect s).Canon := by
  unfold nextSect
  split
  · exact hs
  · exact canon_beside hs

theorem canon_openSector : (openSector s).Canon := by
  unfold openSector
  extract_lets s1 used s2 _ s3 s4
  have hs1 : s1.Canon := canon_ite (canon_nextSect hs) hs
  have hs2 : s2.Canon := canon_ite (canon_eraseSect hs1) hs1
  have hs3 : s3.Canon := canon_beside hs2
  have hs4 : s4.Canon := canon_sectorRec hs3
  exact canon_ite hs1 (canon_eachDo hs4 (fun _ _ ht => canon_eraseSect ht))

theorem canon_dropOld : (dropOld s).Canon := canon_bumpN (canon_beside hs)

theorem canon_bookWriteEffect {flashOk : Bool} {r : Rec} {rest : List (Nat × Rec)} : (bookWriteEffect flashOk r rest s).Canon := by
  unfold bookWriteEffect
  extract_lets s1 s2
  have hs1 : s1.Canon := canon_dropOld (canon_flushCoal hs)
  have hs2 : s2.Canon := canon_ite (canon_openSector hs1) (canon_openSector (canon_nextSect (canon_sectorRec (canon_ite (canon_nextSect hs1) hs1))))
  exact canon_bookStat (canon_progRec (canon_beside hs2))

theorem canonNext_execTallyBookWrite {flashOk : Bool} : CanonNext (execTallyBookWrite flashOk s) := by
  unfold execTallyBookWrite
  extract_lets s0 on
  have hs0 : s0.Canon := canon_ite (canon_dropOld (canon_flushCoal hs)) hs
  split
  · exact canonNext_actIf hs fun _ ht => canon_dropOld (canon_flushCoal ht)
  · exact canonNext_actIf hs fun _ ht => canon_bookWriteEffect ht

theorem canon_bookBudgetRefillEffect : (bookBudgetRefillEffect s).Canon := canon_flushCoal (canon_beside hs)

theorem canon_bookRestore : (bookRestore s).Canon := by
  unfold bookRestore
  extract_lets used _ s1 _ _ s2 s3
  have hs1 : s1.Canon := by
    unfold s1
    split
    · exact hs
    · exact canon_beside hs
  have hs2 : s2.Canon := by
    unfold s2
    split
    · exact hs1
    · exact canon_beside hs1
  have hs3 : s3.Canon := canon_eachDo hs2 fun _ _ ht => canon_modLife ht
  exact canon_beside hs3

theorem canon_bookScan : (bookScan s).Canon :=
  canon_eachDo (canon_bookStat (canon_setFld (canon_ite hs (canon_bookRestore hs)))) fun _ _ ht => canon_setFld ht

theorem canon_addLife : (addLife s).Canon := canon_beside (canon_ite (canon_eachDo hs (fun _ _ ht => canon_modLife ht)) hs)

theorem canon_countsTold {dst from_ n : Nat} : (countsTold dst from_ n s).Canon := canon_eachDo hs fun _ _ ht => canon_beside ht

theorem canon_countRec {dst from_ n typ : Nat} : (countRec dst from_ n typ s).2.Canon := canon_ite_snd hs (canon_countsTold (canon_beside hs))

theorem canon_hourlyRecordsEffect : (hourlyRecordsEffect s).Canon := by
  unfold hourlyRecordsEffect
  extract_lets s1 s2 s3 s4 s5 s6 book s7
  have hs1 : s1.Canon := canon_addLife hs
  have hs2 : s2.Canon := canon_eachDo hs1 fun _ _ ht => canon_addPeriodic ht
  have hs3 : s3.Canon := canon_eachDo hs2 fun _ _ ht => canon_addPeriodic ht
  have hs4 : s4.Canon := canon_eachDo hs3 fun _ _ ht => canon_addPeriodic ht
  have hs5 : s5.Canon := canon_eachDo hs4 fun _ _ ht => canon_addPeriodic ht
  have hs6 : s6.Canon := canon_eachDo hs5 fun _ _ ht => canon_addPeriodic ht
  clear_value s6
  have hbook {x : Option Rec × State} (hx : x.2.Canon) : (book x).Canon := by
    unfold book
    split
    · exact canon_bookPut hx
    · exact hx
  have hs7 : s7.Canon := hbook (canon_countRec (hbook (canon_countRec hs6)))
  clear_value s7
  refine canon_flash hs7 ?_
  dsimp only
  exact wf_flash hs7

theorem canon_sendDatagram {recs : List Rec} : (sendDatagram recs s).Canon := by
  unfold sendDatagram
  split
  · exact hs
  · exact canon_emit (canon_beside hs)

theorem canon_sampleRecs : (sampleRecs s).2.Canon := canon_foldl_snd (canon_beside hs) fun _ _ ht => canon_beside ht

theorem canon_telemetryPeriodEffect {room : Nat} : (telemetryPeriodEffect room s).Canon := by
  unfold telemetryPeriodEffect
  refine canon_ite (canon_ite (canon_beside hs) hs) ?_
  extract_lets ev steps per late
  split
  rename_i heq1
  have hs1 := canon_snd heq1 (canon_newRec hs)
  split
  rename_i heq2
  have hs2 := canon_snd heq2 (canon_countRec hs1)
  split
  rename_i heq3
  have hs3 := canon_snd heq3 (canon_countRec hs2)
  split
  rename_i heq4
  have hs4 := canon_snd heq4 (canon_sampleRecs hs3)
  extract_lets rest out lost t kettle
  have ht : t.Canon := canon_eachDo (canon_beside hs4) fun _ _ ht => canon_sendDatagram ht
  exact canon_bumpN (canon_beside ht)

theorem canon_replayStart : (replayStart s).Canon := canon_setFld (canon_eachDo hs (fun _ _ ht => canon_sendDatagram ht))

theorem canon_journalReplayEndEffect : (journalReplayEndEffect s).Canon := canon_setFld hs

theorem canon_lifeVolts {mv : Nat} : (lifeVolts mv s).Canon := canon_ite (canon_eachDo hs (fun _ _ ht => canon_modLife ht)) hs

theorem canon_pldmSensorRefreshEffect {x : SensorSample} : (pldmSensorRefreshEffect x s).Canon := by
  unfold pldmSensorRefreshEffect
  extract_lets _ s1 _ s2 k
  have hs1 : s1.Canon := canon_lifeVolts (canon_beside hs)
  have hs2 : s2.Canon := canon_beside hs1
  exact canon_ite (canon_beside hs2) (canon_beside hs2)

theorem canon_readDone : (readDone s).Canon := canon_beside hs

theorem canon_pldmAnswer {r : PldmReq} {cc : Nat} {data : List Byte} : (pldmAnswer r cc data s).Canon := canon_eachDo hs fun _ _ ht => canon_emit ht

theorem canonNext_pldm {ptype code len : Nat} {r : PldmReq} {f : State → State} (hf : ∀ t : State, t.Canon → (f t).Canon) :
    CanonNext (pldm ptype code len r f s) :=
  canonNext_actIf hs fun _ ht => canon_ite (hf _ ht) (canon_pldmAnswer ht)

theorem canon_diesReset : (diesReset s).Canon := by
  have hflash := wf_flash hs
  obtain ⟨⟨hregs, -⟩, -⟩ := hs
  exact canon_fresh hregs rfl rfl hflash

theorem canon_holdCut {minMv : Nat} : (holdCut minMv s).Canon := canon_ite (canon_holdEnd hs) hs

theorem canon_deviceReset {cause : Nat} {p : Phase} : (deviceReset cause p s).Canon := by
  have hflash : Memory.wf 0xFF s.atReset.kettle.flash = true := wf_flash (canon_holdCut (canon_addLife hs))
  rw [deviceReset_eq]
  exact canon_setFld (canon_setReg (canon_fresh (s.atReset.rising_wiped p) rfl rfl hflash))

theorem canon_kettleOnly : (kettleOnly s).Canon := by
  have hreset := canon_holdCut (minMv := s.hold.minMv) (canon_addLife hs)
  exact canon_setFld (canon_diesReset (canon_beside (canon_regs hreset (rising_filter (rising_regs hreset)))))

theorem canon_cold {p : Phase} {nonce : Word} : (s.cold p nonce).Canon := by
  have hflash := wf_flash hs
  exact canon_fresh .nil rfl rfl hflash

theorem canon_powerOnEffect : (powerOnEffect s).Canon := canon_freed (canon_cold hs)

theorem canon_kettlePowerLossEffect : (kettlePowerLossEffect s).Canon := canon_cold hs

theorem canon_sysPwrokFallEffect : (sysPwrokFallEffect s).Canon := canon_beside (canon_setFld (canon_deviceReset hs))

theorem canon_sysRstNAssertEffect : (sysRstNAssertEffect s).Canon :=
  canon_beside (canon_ite (canon_deviceReset hs) (canon_setFld (canon_deviceReset hs)))

theorem canon_railReset : (railReset s).Canon := canon_beside (canon_deviceReset hs)

theorem canon_brownoutResetEffect {minMv : Nat} : (brownoutResetEffect minMv s).Canon :=
  canon_railReset (canon_holdEnd (canon_ite hs (canon_beside hs)))

theorem canon_brownoutResetEndEffect : (brownoutResetEndEffect s).Canon := canon_beside hs

theorem canon_bootStartEffect {x : Straps} : (bootStartEffect x s).Canon :=
  canon_beside (canon_ite (canon_setFld (canon_bookScan (canon_beside hs))) (canon_bookScan (canon_beside hs)))

theorem canon_thermalTripEffect : (thermalTripEffect s).Canon := canon_beside (canon_kettleOnly hs)

theorem canon_thermtripReleaseEffect : (thermtripReleaseEffect s).Canon := canon_beside hs

theorem canon_leaveIdle : (leaveIdle s).Canon := canon_beside hs

theorem canon_pwrRun : (pwrRun s).Canon :=
  canon_ite (canon_ite hs (canon_deviceReset hs)) (canon_ite (canon_leaveIdle (canon_eachDo hs (fun _ _ ht => canon_kaLeave ht))) hs)

theorem canon_pwrIdle : (pwrIdle s).Canon := canon_ite (canon_beside (canon_eachDo hs (fun _ _ ht => canon_mgmtFrame (canon_modPort ht)))) hs

theorem canon_pwrKettleOnly : (pwrKettleOnly s).Canon := canon_ite (canon_kettleOnly hs) hs

theorem canon_idleEntryDoneEffect : (idleEntryDoneEffect s).Canon := canon_setFld (canon_beside (canon_addLife hs))

theorem canon_idleExitDoneEffect : (idleExitDoneEffect s).Canon :=
  canon_noteFabric (canon_setFld (canon_eachDo (canon_beside (canon_addLife hs)) (fun _ _ ht => canon_modCore_mems ht (fun _ _ => memsOk_zeroed))))

theorem canon_paceStepEffect {watts : Nat} : (paceStepEffect watts s).Canon :=
  canon_setFld (canon_ite (canon_bump (canon_setFld (canon_setFld (canon_beside hs)))) (canon_setFld (canon_beside hs)))

theorem canon_rebase {i : Nat} : (rebase i s).Canon := canon_beside hs

theorem canon_beadClear {v : Word} : (beadClear v s).Canon := canon_eachDo hs fun _ _ ht => canon_setReg (canon_rebase ht)

theorem canon_expClear : (expClear s).Canon :=
  canon_clearRegs (canon_clearRegs (canon_clearRegs (canon_clearRegs (canon_clearRegs (canon_eachDo hs (fun _ _ ht => canon_rebase ht))))))

theorem canon_collClear {v : Word} : (collClear v s).Canon := canon_eachDo hs fun _ _ ht => canon_setReg (canon_setReg (canon_setReg ht))

theorem canon_sampClear {v : Word} : (sampClear v s).Canon := canon_eachDo hs fun _ _ ht => canon_setReg ht

theorem canon_frClear {p : Nat} : (frClear p s).Canon := canon_setReg (canon_setReg (canon_setReg hs))

theorem canon_qClear {p : Nat} : (qClear p s).Canon := canon_eachDo hs fun _ _ ht => canon_setFld ht

theorem canon_routeClear : (routeClear s).Canon := canon_clearRegs (canon_clearRegs (canon_clearRegs (canon_clearRegs hs)))

theorem canon_caddyClear : (caddyClear s).Canon :=
  canon_eachDo (canon_eachDo (canon_clearRegs (canon_clearRegs (canon_clearRegs hs))) (fun _ _ ht => canon_setFld ht)) fun _ _ ht => canon_setFld ht

theorem canon_memregClear : (memregClear s).Canon := canon_eachDo (canon_clearRegs (canon_clearRegs hs)) fun _ _ ht => canon_setFld ht

theorem canon_unitCmd {w : Word} : (unitCmd w s).Canon := by
  unfold unitCmd
  extract_lets n remove
  split
  · exact canon_ite (canon_portRemove hs) (canon_portReturn hs)
  · exact canon_ite (canon_coreRemove hs) (canon_coreReturn hs)
  · exact canon_ite (canon_stackRemove hs) (canon_stackReturn hs)

theorem canon_pwrCmd {w : Word} : (pwrCmd w s).Canon := by
  unfold pwrCmd
  split
  · exact canon_pwrRun hs
  · exact canon_pwrIdle hs
  · exact canon_pwrKettleOnly hs

theorem canon_bankArm : (bankArm s).Canon := canon_eachDo hs fun _ _ ht => canon_kaLeave ht

theorem canon_bankCurrent {b : Nat} : (bankCurrent b s).Canon :=
  canon_eachDo (canon_beside (canon_setFld (canon_setFld hs))) fun _ _ ht => canon_portUp ht

theorem canon_rodCtrl {c : Nat} {old v : Word} : (rodCtrl c old v s).Canon := by
  unfold rodCtrl
  extract_lets s1 s2
  have hs1 : s1.Canon := canon_ite (canon_setReg hs) hs
  have hs2 : s2.Canon := canon_ite (canon_setReg hs1) hs1
  exact canon_ite (canon_haltSet hs2) (canon_ite (canon_haltClear hs2) hs2)

theorem canon_taintColl {p : Bool → Nat → CDesc → Bool} {running : Bool} {ds : List (Bool × Nat)} : (taintColl p running ds s).Canon :=
  canon_beside hs

theorem canon_taintExp {p : Nat → XDesc → Bool} : (taintExp p s).Canon := canon_beside (canon_expUndef hs)

theorem canon_taint {r : Reg} {i : Nat} {old new : Word} : (taint r i old new s).Canon := by
  unfold taint
  extract_lets changed es es1 j
  split
  · exact canon_when hs fun _ ht => canon_taintColl ht
  · exact canon_when hs fun _ ht => canon_taintColl ht
  · exact canon_when hs fun _ ht => canon_taintExp ht
  · exact canon_taintExp (canon_taintColl hs)
  · exact canon_taintExp (canon_taintColl hs)
  · split
    · exact hs
    · exact canon_ite hs (canon_ite (canon_ite (canon_taintColl hs) (canon_beside (canon_taintColl hs))) (canon_taintColl hs))
  · exact hs

theorem canon_ctlEffect {r : Reg} {i : Nat} {old new v : Word} : (ctlEffect r i old new v s).Canon := by
  unfold ctlEffect
  split
  · exact canon_when hs fun _ ht => canon_addRec ht
  · exact canon_when hs fun _ ht => canon_clearRegs ht
  · exact canon_when hs fun _ ht => canon_clearRegs ht
  · exact canon_when hs fun _ ht => canon_unitCmd ht
  · exact canon_when hs fun _ ht => canon_pwrCmd ht
  · exact canon_healthClear hs
  · exact canon_when hs fun _ ht => canon_frClear ht
  · exact canon_when hs fun _ ht => canon_qClear ht
  · exact canon_when hs fun _ ht => canon_routeClear ht
  · exact canon_ite (canon_bankArm hs) (canon_ite (canon_bankCurrent hs) hs)
  · exact canon_when hs fun _ ht => canon_startUnload ht
  · exact canon_rewindWrite hs
  · exact canon_when hs fun _ ht => canon_clearRegs ht
  · exact canon_collClear hs
  · exact canon_when hs fun _ ht => canon_expClear ht
  · exact canon_sampClear hs
  · exact canon_setReg hs
  · exact canon_when hs fun _ ht => canon_caddyClear ht
  · exact canon_rodCtrl hs
  · exact canon_beadClear hs
  · exact canon_when hs fun _ ht => canon_memregClear ht
  · exact canon_when hs fun _ ht => canon_clearRegs ht
  · exact canon_when (canon_setFld hs) fun _ ht => canon_replayStart ht
  · exact canon_pmapHold hs
  · split
    · exact canon_laneCfgHold hs
    · exact hs
  · exact canon_when hs fun _ ht => canon_beside (canon_setFld ht)
  · exact canon_taint hs

theorem canon_storeReg {r : Reg} {i : Nat} {v : Word} : (storeReg r i v s).Canon := canon_setReg hs

theorem canon_ctlApply {r : Reg} {i : Nat} {v : Word} : (ctlApply r i v s).Canon := canon_ctlEffect (canon_storeReg hs)

theorem canon_ctlWrite {w : Option Who} {r : Reg} {i : Nat} {v : Word} : (ctlWrite w r i v s).2.Canon := by
  unfold ctlWrite
  split
  · exact canon_bump hs
  · exact canon_ctlApply hs

theorem canon_oobWriteAt {off : Nat} {v : Word} : (oobWriteAt off v s).2.Canon := by
  unfold oobWriteAt
  split
  · exact canon_bump hs
  · exact canon_ctlWrite hs

theorem canon_formReject {status : Nat} : (formReject status s).Canon := canon_bump (canon_countErr hs)

theorem canon_partyWrite {by_ : Party} {off : Nat} {v : Word} : (partyWrite by_ off v s).Canon := by
  unfold partyWrite
  split
  · exact canon_oobWriteAt hs
  · refine canon_ite (canon_formReject hs) (canon_ite (canon_formReject hs) ?_)
    split
    · exact canon_formReject hs
    · split
      rename_i s1 heq1
      have hs1 : s1.Canon := canon_snd heq1 (canon_ctlWrite hs)
      exact canon_ite hs1 (canon_countErr hs1)

theorem canonNext_regRow {ask : State → Bool} {by_ : Party} {r : Reg} {i : Nat} {v : Word} : CanonNext (regRow ask by_ r i v s) :=
  canonNext_actIf hs fun _ ht => canon_partyWrite ht

theorem canon_routeBankDrainEndEffect {b : Fin 2} : (routeBankDrainEndEffect b s).Canon := canon_setFld (canon_setFld hs)

theorem canonNext_unitRow {kind : Nat} {remove : Bool} {by_ : Party} {v : Word} : CanonNext (unitRow kind remove by_ v s) := canonNext_regRow hs

theorem canonNext_pwrRow {target : Nat} {by_ : Party} {v : Word} : CanonNext (pwrRow target by_ v s) := canonNext_regRow hs

end

end Sys2Proof.Machine

/-! The form kept: the boot, the requests that the switch executes, the management port and the test access port (R278 to R300, R367 to R379, R412). -/
namespace Sys2Proof.Machine
open Sys2Proof

set_option Elab.async false

section
variable {s : State} (hs : s.Canon)
include hs

theorem canon_loadReg {x : BitVec 32 × Word} : (loadReg x s).Canon := by
  unfold loadReg
  split
  · exact hs
  · exact canon_ite hs (canon_setReg hs)

theorem canon_loadImage {c : ImageContent} : (loadImage c s).Canon := canon_setFld (canon_eachDo (canon_beside hs) (fun _ _ ht => canon_loadReg ht))

theorem canon_chooseSlot {k : Nat} {fallback : Bool} {c : ImageContent} : (chooseSlot k fallback c s).Canon :=
  canon_beside (canon_setFld (canon_setFld (canon_setFld hs)))

theorem canon_noteFail {k n : Nat} : (noteFail k n s).Canon := canon_setFld hs

theorem canon_imageVerifyDoneEffect {a b : ImageContent} : (imageVerifyDoneEffect a b s).Canon :=
  canon_ite (canon_chooseSlot hs) (canon_ite (canon_chooseSlot (canon_noteFail hs)) (canon_beside (canon_setFld (canon_kettleOnly (canon_noteFail
    (canon_noteFail hs))))))

theorem canon_oobWriteFull {a : Nat} {v : Word} : (oobWriteFull a v s).2.Canon := canon_ite_snd (canon_bump hs) (canon_oobWriteAt hs)

theorem canon_bootRec {pos : Nat} : (bootRec pos s).Canon := canon_addRec hs

theorem canon_lifeCheck {d : Nat} : (lifeCheck d s).Canon :=
  canon_ite hs (canon_ite (canon_modLife hs) (canon_setFld (canon_bootRec (canon_modLife hs))))

theorem canon_bootStack {trained : List StackTrain} {k : Nat} : (bootStack trained k s).Canon := by
  unfold bootStack
  split
  · exact canon_ite (canon_stackIn hs) (canon_freed (canon_raiseFault (canon_stackOut (canon_stackTrained hs))))
  · exact canon_freed (canon_raiseFault (canon_stackOut hs))

theorem canon_fuseAdvance : (fuseAdvance s).Canon := canon_ite (canon_beside hs) hs

theorem canon_bootReadyEffect {trained : List StackTrain} {pllOk : Bool} {c : ImageContent} : (bootReadyEffect trained pllOk c s).Canon := by
  unfold bootReadyEffect
  refine canon_ite (canon_failStop hs) ?_
  extract_lets s1 kettle1 s2 s3 s4 s5 s6 s7 kettle7 s8 s9
  have hs2 : s2.Canon := canon_loadImage (canon_beside (canon_addLife hs))
  have hs3 : s3.Canon := canon_eachDo hs2 fun _ _ ht => canon_setReg ht
  have hs4 : s4.Canon := canon_eachDo hs3 fun _ _ ht => canon_oobWriteFull ht
  have hs5 : s5.Canon := canon_eachDo hs4 fun _ _ ht => canon_bootStack ht
  have hs6 : s6.Canon := canon_bootRec (canon_eachDo hs5 fun _ _ ht => canon_lifeCheck ht)
  clear_value s6
  have hs8 : s8.Canon := canon_beside (canon_setFld hs6)
  exact canon_fuseAdvance (canon_eachDo hs8 fun _ _ ht => canon_setLstate ht)

theorem canonNext_execBootReady {trained : List StackTrain} {pllOk : Bool} : CanonNext (execBootReady trained pllOk s) := by
  unfold execBootReady
  split
  · exact canonNext_next hs
  · exact canonNext_actAllIf hs fun _ ht => canon_bootReadyEffect ht

theorem canon_memWait {w : Nat → Frame → State → State} {i : Nat} {f : Frame}
    (hw : ∀ (x : Nat) (x1 : Frame) (t : State), t.Canon → (w x x1 t).Canon) : (memWait w i f s).Canon :=
  canon_ite hs (hw _ _ _ hs)

omit hs in
theorem keeps_memUnit {p : Nat → Bool} {body : Nat → Frame → State → Option State} {wait : Nat → Frame → State → State}
    (hbody : ∀ (i : Nat) (f : Frame) (t : State), t.Canon → CanonOpt (body i f t))
    (hwait : ∀ (i : Nat) (f : Frame) (t : State), t.Canon → (wait i f t).Canon) : (memUnit p body wait).Keeps := by
  refine ⟨fun _ _ hs => hs, fun i f s hs => canonOpt_ite canonOpt_none ?_, fun i f s hs => canon_memWait hs hwait⟩
  split
  · exact canon_refuse hs
  · exact canonOpt_bind (canon_goHome hs) (hbody i f)

theorem canon_loadUse {i : Nat} {f : Frame} : CanonOpt (loadUse i f s) := by
  unfold loadUse
  split
  · refine canonOpt_ite (canon_refuse hs) (canonOpt_ite (canon_refuse hs) (canon_reply ?_))
    split
    · exact hs
    · exact canon_ite_snd (canon_countForeign hs) hs
  · exact canon_reply (canon_windowDo (canon_wakeIsland hs) (fun _ ht => ht))
  · exact canon_reply (canon_wakeIsland hs)
  · exact canon_reply hs

theorem canon_storeUse {i : Nat} {f : Frame} : CanonOpt (storeUse i f s) := by
  unfold storeUse
  split
  · exact canonOpt_ite (canon_refuse hs) (canonOpt_ite (canon_refuse hs) (canonOpt_some (canon_ackStore (canon_memWr (canon_hbmAccess hs)))))
  · exact canonOpt_some (canon_ackStore (canon_windowWr (canon_wakeIsland hs)))
  · exact canonOpt_ite (canon_refuse hs) (canonOpt_some (canon_ackStore (canon_memWr (canon_wakeIsland hs))))
  · split
    · split
      rename_i s1 heq2
      have hs1 : s1.Canon := canon_snd heq2 (canon_ctlWrite hs)
      exact canonOpt_ite (canonOpt_some (canon_ackStore hs1)) (canonOpt_some (canon_ackStore (canon_countErr hs1)))
    · exact canon_refuse hs
  · exact canon_refuse hs

theorem canon_atomicApply {f : Frame} {new : Nat → Nat → Nat} : (atomicApply f new s).2.Canon := by
  unfold atomicApply
  extract_lets w x old
  split
  · refine canon_ite_snd (canon_countErr hs) (canon_memWr ?_)
    exact canon_hbmAccess hs
  · exact canon_setReg hs
  · exact hs

theorem canon_atomicUse {new : Nat → Nat → Nat} {i : Nat} {f : Frame} : CanonOpt (atomicUse new i f s) := by
  refine canonOpt_ite (canon_refuse (canon_bump hs)) (canonOpt_ite (canon_refuse hs) (canon_loggedUse hs ?_ (canon_atomicApply hs)))
  exact fun _ hg => absurd hg.symm (Option.some_ne_none _)

theorem canonNext_atomicRow {op : Nat} {new : Nat → Nat → Nat} {f : Src} : CanonNext (atomicRow op new f s) :=
  canonNext_consume hs (keeps_memUnit (fun _ _ _ ht => canon_atomicUse ht) (fun _ _ _ ht => canon_loggedWait ht))

theorem canon_objUse {change : Frame → State → State} {i : Nat} {f : Frame} (hchange : ∀ (f : Frame) (t : State), t.Canon → (change f t).Canon) :
    CanonOpt (objUse change i f s) :=
  canon_loggedUse hs (fun _ hg => absurd hg.symm (Option.some_ne_none _)) (hchange f s hs)

omit hs in
theorem loggedRows_keep : ∀ r ∈ loggedRows, ∀ (f : Src) (t : State), t.Canon → CanonNext (r f t) := by
  simp only [loggedRows, List.forall_mem_cons]
  exact ⟨fun _ _ ht => canonNext_atomicRow ht, fun _ _ ht => canonNext_atomicRow ht, fun _ _ ht => canonNext_atomicRow ht,
    fun _ _ ht => canonNext_atomicRow ht, fun _ _ ht => canonNext_atomicRow ht, fun _ _ ht => canonNext_atomicRow ht,
    fun _ _ ht => canonNext_atomicRow ht, fun _ _ ht => canonNext_atomicRow ht, fun _ _ ht => canonNext_atomicRow ht,
    fun _ _ ht => canonNext_atomicRow ht, fun _ _ ht => canonNext_atomicRow ht, fun _ _ ht => canonNext_atomicRow ht,
    fun _ _ ht => canonNext_atomicRow ht, fun _ _ ht => canonNext_atomicRow ht,
    fun _ _ ht => canonNext_consume ht (keeps_syncUnit (fun _ _ _ ht => canon_objUse ht (fun _ _ hu => canon_objArrive hu)) (fun _ _ _ ht =>
      canon_loggedWait ht)),
    fun _ _ ht => canonNext_consume ht (keeps_syncUnit (fun _ _ _ ht => canon_objUse ht (fun _ _ hu => canon_objAdd hu)) (fun _ _ _ ht =>
      canon_loggedWait ht)),
    fun _ _ ht => canonNext_consume ht (keeps_syncUnit (fun _ _ _ ht => canon_objUse ht (fun _ _ hu => canon_objReset hu)) (fun _ _ _ ht =>
      canon_loggedWait ht)),
    fun _ _ ht => canonNext_consume ht (keeps_syncUnit (fun _ _ _ ht => canon_epochUse ht) (fun _ _ _ ht => canon_loggedWait ht)),
    fun _ _ ht => canonNext_consume ht (keeps_syncUnit (fun _ _ _ ht => canon_authUse ht) (fun _ _ _ ht => canon_loggedWait ht)),
    fun _ _ ht => canonNext_consume ht (keeps_syncUnit (fun _ _ _ ht => canon_rewindUse ht) (fun _ _ _ ht => canon_rewindHold ht)),
    fun _ _ ht => canonNext_consume ht (keeps_syncUnit (fun _ _ _ ht => canon_commitUse ht) (fun _ _ _ ht => canon_loggedWait ht)),
    fun _ _ ht => canonNext_consume ht (keeps_syncUnit (fun _ _ _ ht => canon_unloadUse ht) (fun _ _ _ ht => canon_loggedWait ht)),
    fun _ hr => absurd hr List.not_mem_nil⟩

omit hs in
theorem plainRows_keep : ∀ r ∈ plainRows, ∀ (f : Src) (t : State), t.Canon → CanonNext (r f t) := by
  simp only [plainRows, List.forall_mem_cons]
  exact ⟨fun _ _ ht => canonNext_consume ht (keeps_memUnit (fun _ _ _ ht => canon_loadUse ht) (fun _ _ _ ht => canon_reqWait ht)),
    fun _ _ ht => canonNext_consume ht (keeps_memUnit (fun _ _ _ ht => canon_storeUse ht) (fun _ _ _ ht => canon_reqWait ht)),
    fun _ _ ht => canonNext_consume ht (keeps_syncUnit (fun _ _ _ ht => canon_waitUse ht) (fun _ _ _ ht => canon_reqWait ht)),
    fun _ _ ht => canonNext_consume ht (keeps_syncUnit (fun _ _ _ ht => canon_reply ht) (fun _ _ _ ht => canon_reqWait ht)),
    fun _ hr => absurd hr List.not_mem_nil⟩

omit hs in
theorem unitRows_keep : ∀ r ∈ unitRows, ∀ (f : Src) (t : State), t.Canon → CanonNext (r f t) := by
  simp only [unitRows, List.forall_mem_cons]
  exact ⟨fun _ _ ht => canonNext_consume ht (keeps_collUnit (fun _ _ _ ht => canon_contribUse ht)),
    fun _ _ ht => canonNext_consume ht (keeps_collUnit (fun _ _ _ ht => canon_expsumUse ht)),
    fun _ _ ht => canonNext_consume ht (keeps_collUnit (fun _ _ _ ht => canon_gexpUse ht)),
    fun _ _ ht => canonNext_consume ht (keeps_collUnit (fun _ _ _ ht => canon_partialUse ht)),
    fun _ _ ht => canonNext_consume ht (keeps_collUnit (fun _ _ _ ht => canon_ltallyUse ht)),
    fun _ _ ht => canonNext_consume ht (keeps_collUnit (fun _ _ _ ht => canon_resultUse ht)),
    fun _ _ ht => canonNext_consume ht (keeps_collUnit (fun _ _ _ ht => canon_statusUse ht)),
    fun _ _ ht => canonNext_consume ht (keeps_expUnit (fun _ _ _ ht => canon_actUse ht)),
    fun _ _ ht => canonNext_consume ht (keeps_expUnit (fun _ _ _ ht => canon_tendUse ht)),
    fun _ _ ht => canonNext_consume ht (keeps_expUnit (fun _ _ _ ht => canon_expoutUse ht)), fun _ hr => absurd hr List.not_mem_nil⟩

theorem canon_rowThen {r : RxRow} {k : Nat} (hr : ∀ (f : Src) (t : State), t.Canon → CanonNext (r f t)) : (rowThen r k s).Canon := by
  unfold rowThen
  split
  · next heq => exact canon_beside (hr _ _ (canon_beside hs) _ heq)
  · exact hs

theorem canon_retry {rows : List RxRow} {i : Nat} (hrows : ∀ r ∈ rows, ∀ (f : Src) (t : State), t.Canon → CanonNext (r f t)) :
    (retry rows i s).Canon := by
  unfold retry
  induction rows generalizing s with
  | nil => exact hs
  | cons r l ih =>
    refine ih ?_ fun r' hr' => hrows r' (List.mem_cons_of_mem _ hr')
    dsimp only
    split
    · exact canon_rowThen hs (hrows r List.mem_cons_self)
    · exact hs

theorem canonNext_execLogRoomGrant : CanonNext (execLogRoomGrant s) := by
  unfold execLogRoomGrant
  split
  · exact canonNext_next hs
  · exact canonNext_actIf hs fun _ ht => canon_retry ht loggedRows_keep

theorem canon_grantFormed {l : Line} : (grantFormed l s).Canon := canon_beside (canon_formDrain (canon_beside hs))

omit hs in
theorem requestRows_keep : ∀ r ∈ plainRows ++ loggedRows, ∀ (f : Src) (t : State), t.Canon → CanonNext (r f t) := by
  intro r hr
  rcases List.mem_append.1 hr with h | h
  · exact plainRows_keep r h
  · exact loggedRows_keep r h

theorem canon_grantPort {r : Nat} : (grantPort r s).Canon := canon_eachDo (canon_grantFormed hs) fun _ _ ht => canon_retry ht requestRows_keep

theorem canon_grantCore {c : Nat} : (grantCore c s).Canon := by
  unfold grantCore
  split
  · exact hs
  · refine canon_getD ?_ hs
    split
    · exact canon_fsendNext hs
    · exact canon_requestNext hs keeps_fmemUnit
    · exact canon_requestNext hs keeps_fsyncUnit
    · exact canonOpt_none

theorem canon_grantPart {p : Nat} : (grantPart p s).Canon := canon_eachDo (canon_grantFormed hs) fun _ _ ht => canon_retry ht unitRows_keep

theorem canon_caddyGrantEffect : (caddyGrantEffect s).Canon := by
  unfold caddyGrantEffect
  extract_lets s1 s2 s3
  have hs1 : s1.Canon := canon_eachDo hs fun _ _ ht => canon_grantPort ht
  have hs2 : s2.Canon := canon_eachDo hs1 fun _ _ ht => canon_grantCore ht
  have hs3 : s3.Canon := canon_eachDo hs2 fun _ _ ht => canon_retry ht requestRows_keep
  refine canon_frecvAgain (canon_crossDrain (canon_eachDo (canon_eachDo hs3 ?_) ?_))
  · exact fun _ _ ht => canon_grantPart ht
  · exact fun _ _ ht => canon_grantFormed ht

theorem canon_sends {o : Out} : (sends o s).Canon := canon_emit hs

theorem canon_oobReply {m : CtlMsg} {status : Nat} {data : List Byte} : (oobReply m status data s).Canon := canon_sends (canon_beside hs)

theorem canon_oobAnswer {m : CtlMsg} {status : Nat} {data : List Byte} : (oobAnswer m status data s).Canon := by
  unfold oobAnswer
  refine canon_oobReply ?_
  split
  · exact canon_bump hs
  · exact canon_bump hs
  · exact hs
  · exact canon_bump hs

theorem canon_oobDo {m : CtlMsg} {op : List Byte → State → Nat × List Byte × State}
    (hop : ∀ (x : List Byte) (t : State), t.Canon → (op x t).2.2.Canon) : (oobDo m op s).Canon := by
  unfold oobDo
  exact canon_ite (canon_oobAnswer (hop _ _ (canon_beside hs))) (canon_oobAnswer hs)

theorem canonNext_oobRow {mop : Nat} {m : CtlMsg} {op : List Byte → State → Nat × List Byte × State}
    (hop : ∀ (x : List Byte) (t : State), t.Canon → (op x t).2.2.Canon) : CanonNext (oobRow mop m op s) :=
  canonNext_actIf hs fun _ ht => canon_oobDo ht fun _ _ hu => hop _ _ hu

theorem canonNext_execOobWrite {m : CtlMsg} : CanonNext (execOobWrite m s) := by
  unfold execOobWrite
  refine canonNext_oobRow hs fun _ _ ht => canon_ite_snd2 ht ?_
  split
  rename_i s1 heq
  have hs1 : s1.Canon := canon_snd heq (canon_oobWriteFull ht)
  exact hs1

theorem canonNext_execOobReset {m : CtlMsg} : CanonNext (execOobReset m s) := by
  unfold execOobReset
  refine canonNext_actIf hs (fun _ ht => canon_ite (canon_ite (canon_deviceReset (canon_oobDo ht (fun _ _ hu => hu))) (canon_setFld
    (canon_deviceReset (canon_oobDo ht (fun _ _ hu => hu))))) (canon_oobDo ht (fun _ _ hu => hu)))

theorem canonNext_imageRow {mop : Nat} {m : CtlMsg} {op : List Byte → State → Nat × List Byte × State}
    (hop : ∀ (x : List Byte) (t : State), t.Canon → (op x t).2.2.Canon) : CanonNext (imageRow mop m op s) :=
  canonNext_ite (canonNext_actIf hs (fun _ ht => canon_oobAnswer ht)) (canonNext_oobRow hs (fun _ _ ht => hop _ _ ht))

theorem canonNext_execImgerase {m : CtlMsg} : CanonNext (execImgerase m s) := by
  refine canonNext_imageRow hs fun _ t ht => canon_ite_snd2 (canon_flash ht ?_) ht
  dsimp only
  exact wf_flashErase _ _ (wf_flash ht)

theorem canonNext_execImgwrite {m : CtlMsg} : CanonNext (execImgwrite m s) := by
  refine canonNext_imageRow hs fun _ t ht => canon_ite_snd2 ht (canon_ite_snd2 ht (canon_flash ht ?_))
  dsimp only
  exact wf_flashProg _ _ _ (wf_flash ht)

theorem canon_setTap {j : JtagIr} : (setTap j s).Canon := canon_beside hs

theorem canonNext_extest {j : JtagIr} : CanonNext (extest j s) := canonNext_actIf hs fun _ ht => canon_setTap ht

theorem canon_sqWrite {c a : Nat} {bs : List Byte} : (sqWrite c a bs s).Canon := canon_modCore_mems hs fun _ ht => memsOk_wrMem ht

theorem canon_countNan {c : Nat} {h : Cmd} {l : List SRec} : (countNan c h l s).Canon := canon_bumpN hs

theorem canonNext_execSrandComplete {c : CoreId} : CanonNext (execSrandComplete c s) := by
  unfold execSrandComplete
  refine canonNext_finishCmd hs fun _ _ _ ht => ?_
  split
  · exact canon_sqWrite ht
  · exact ht

end

end Sys2Proof.Machine

/-! Every command, and a step without one. -/
namespace Sys2Proof.Machine
open Sys2Proof

set_option Elab.async false

theorem rising_trainPort {p : Nat} {m : SMap Word} (h : m.Rising) : (trainPort p m).Rising := by
  unfold trainPort
  extract_lets f w
  split
  · exact SMap.rising_put _ _ _ _ h
  · exact h

theorem rising_trainPorts {l : SMap Port} {m : SMap Word} (h : m.Rising) : (trainPorts l m).Rising := by
  unfold trainPorts
  induction l generalizing m with
  | nil => exact h
  | cons x l ih => exact ih (rising_trainPort h)

section
variable {s : State} (hs : s.Canon)
include hs

theorem canonNext_exec (i : Instr) : CanonNext (exec i s) := by
  cases i
  all_goals dsimp only [exec]
  case controlRegisterWrite => exact canonNext_actIf hs fun _ ht => canon_partyWrite ht
  case add | sub | and | or | xor | sll | srl | sra | slt | sltu | mul | mulhu => exact canonNext_alu hs
  case addi | andi | ori | xori | slli | srli | srai | lui | shori | slti | arget | araddr | qcnt | tread | rdstep | rdid => exact canonNext_ctlRd hs
  case ld | lw => exact canonNext_ctlLoad hs
  case st | sw => exact canonNext_ctlStore hs
  case beq | bne | blt | bge | bltu | bgeu => exact canonNext_branch hs
  case jal | jalr => exact canonNext_ctl hs fun _ hk => memsOk_of_mems (memsOk_setGr hk)
  case arset | arstep => exact canonNext_ctl hs fun _ ht => memsOk_advance (memsOk_setAr ht)
  case push => exact canonNext_actIf hs fun _ ht => canon_pushEffect ht
  case pushStallEnd => exact canonNext_execPushStallEnd hs
  case tsig => exact canonNext_actIf hs fun _ ht => canon_tsigEffect ht
  case twait => exact canonNext_actIf hs fun _ ht => canon_twaitEffect ht
  case tokenWaitGrant => exact canonNext_actIf hs fun _ ht => canon_grantTok ht
  case rdcyc => exact canonNext_actIf hs fun _ ht => canon_rdcycEffect ht
  case rdent => exact canonNext_actIf hs fun _ ht => canon_rdentEffect ht
  case stepend => exact canonNext_ctl hs fun k hk => memsOk_of_mems (k := k) hk
  case stepwaitEnter => exact canonNext_execStepwaitEnter hs
  case halt => exact canonNext_actIf hs fun _ ht => canon_haltEffect ht
  case illegalInstruction => exact canonNext_actIf hs fun _ ht => canon_illegalInstructionEffect ht
  case vnop => exact canonNext_vqRun hs fun _ _ _ ht => ht
  case vld | vbcast | vcvt | vunpk | vperm | vexp2 => exact canonNext_vqRun hs fun _ _ _ ht => canon_vecOp ht
  case vst | vpack => exact canonNext_vqRun hs fun _ _ _ ht => canon_vecStore ht
  case viadd | visub | vimul | vand | vor | vxor | vshl | vshr | vcmp | vfadd | vfmul => exact canonNext_vqRun hs fun _ _ _ ht => canon_vec2 ht
  case vmin | vmax => exact canonNext_vqRun hs fun _ _ _ ht => canon_vecSel ht
  case vsel | vffma => exact canonNext_vqRun hs fun _ _ _ ht => canon_vec3 ht
  case vrmax => exact canonNext_vqRun hs fun _ _ _ ht => canon_vecMax ht
  case bexp => exact canonNext_vqRun hs fun _ _ _ ht => canon_bexpRep ht
  case bacc => exact canonNext_vqRun hs fun _ _ _ ht => canon_enterRep ht
  case bmac => exact canonNext_vqRun hs fun _ _ _ ht => canon_bmacRep ht
  case baddp => exact canonNext_execBaddp hs
  case bout => exact canonNext_vqRun hs fun _ _ _ ht => canon_boutRep ht
  case bst => exact canonNext_execBst hs
  case bclr => exact canonNext_execBclr hs
  case btal => exact canonNext_execBtal hs
  case bscat => exact canonNext_vqRun hs fun _ _ _ ht => canon_bscatRep ht
  case tnop | snop | mnop => exact canonNext_nopCmd hs
  case tmm | ssort | smerge | sfilt | scomp | sscan | spick | srand | mcopy | mfill | mgather => exact canonNext_startCmd hs
  case tmmComplete => exact canonNext_finishCmd hs fun _ _ _ ht => canon_tmmRep ht
  case ssortComplete | sfiltComplete => exact canonNext_finishCmd hs fun _ _ _ ht => canon_countNan (canon_sqWrite ht)
  case smergeComplete => exact canonNext_finishCmd hs fun _ _ _ ht => canon_bumpN (canon_countNan (canon_sqWrite ht))
  case scompComplete | sscanComplete | spickComplete => exact canonNext_finishCmd hs fun _ _ _ ht => canon_sqWrite ht
  case srandComplete => exact canonNext_execSrandComplete hs
  case fnop => exact canonNext_execFnop hs
  case fsend => exact canonNext_execFsend hs
  case fsendAccepted => exact canonNext_execFsendAccepted hs
  case frecv => exact canonNext_execFrecv hs
  case fmem => exact canonNext_requestRow hs keeps_fmemUnit
  case fmemTimeout => exact canonNext_execFmemTimeout hs
  case fsync => exact canonNext_requestRow hs keeps_fsyncUnit
  case ffence => exact canonNext_execFfence hs
  case mcopyComplete => exact canonNext_finishCmd hs fun _ _ _ ht => canon_mqCopy ht
  case mfillComplete => exact canonNext_finishCmd hs fun _ _ _ ht => canon_mqWr ht
  case mgatherComplete => exact canonNext_finishCmd hs fun _ _ _ ht => canon_eachDo ht (fun _ _ hu => canon_mgatherRow hu)
  case stallLimitExpiry => exact canonNext_actIf hs fun _ ht => canon_bump (canon_setCore_mems ht (memsOk_of_mems (memsOk_core hs)))
  case rodHaltSet | rodHaltClear | hazclr | talclr | placementWrite | placementEffstepWrite | routeBankArm | routeBankDisarm | routeBankMakeCurrent
      | qclr | caddyClr | beadTallyClr | schedCollClr | schedExpClr | schedSampClr | portFrclr | routeTallyClr | schedBreachClr | globalStrictClr
      | memregClr | cboardClr | globalRejClr | rewindCmdWrite | unloadWrite | strictWrite | auditRecheckGo | shadowClear | eyeClear | slackClear
      | tempClear | journalReplay => exact canonNext_regRow hs
  case uncorrectableEcc => exact canonNext_execUncorrectableEcc hs
  case collContribRx => exact canonNext_consume hs (keeps_collUnit (fun _ _ _ ht => canon_contribUse ht))
  case collExpsumRx => exact canonNext_consume hs (keeps_collUnit (fun _ _ _ ht => canon_expsumUse ht))
  case collGexpRx => exact canonNext_consume hs (keeps_collUnit (fun _ _ _ ht => canon_gexpUse ht))
  case collPartialRx => exact canonNext_consume hs (keeps_collUnit (fun _ _ _ ht => canon_partialUse ht))
  case collLtallyRx => exact canonNext_consume hs (keeps_collUnit (fun _ _ _ ht => canon_ltallyUse ht))
  case collResultRx => exact canonNext_consume hs (keeps_collUnit (fun _ _ _ ht => canon_resultUse ht))
  case collStatusRx => exact canonNext_consume hs (keeps_collUnit (fun _ _ _ ht => canon_statusUse ht))
  case collBlockReduced => exact canonNext_execCollBlockReduced hs
  case collTimeout => exact canonNext_execCollTimeout hs
  case collUnmatchedExpiry => exact canonNext_execCollUnmatchedExpiry hs
  case actRx => exact canonNext_consume hs (keeps_expUnit (fun _ _ _ ht => canon_actUse ht))
  case tendRx => exact canonNext_consume hs (keeps_expUnit (fun _ _ _ ht => canon_tendUse ht))
  case tokenRouted => exact canonNext_execTokenRouted hs
  case expoutRx => exact canonNext_consume hs (keeps_expUnit (fun _ _ _ ht => canon_expoutUse ht))
  case cancelRx => exact canonNext_consume hs keeps_cancelUnit
  case layerTimeout => exact canonNext_execLayerTimeout hs
  case frameForward => exact canonNext_actIf hs fun _ ht => canon_forwardHandle ht
  case reseqHoldExpiry => exact canonNext_actIf hs fun _ ht => canon_holdExpired ht
  case reseqLearnEnd => exact canonNext_execReseqLearnEnd hs
  case reseqEntryIdle => exact canonNext_execReseqEntryIdle hs
  case mcastFrameRx => exact canonNext_actIf hs fun _ ht => canon_mcastHandle ht
  case egressFrameStart => exact canonNext_execEgressFrameStart hs
  case egressFrameEnd => exact canonNext_execEgressFrameEnd hs
  case coarseWheelSlot => exact canonNext_act hs fun _ ht => canon_coarseWheelSlotEffect ht
  case egressAgeing => exact canonNext_execEgressAgeing hs
  case creditRx => exact canonNext_actIf hs fun _ ht => canon_creditRxEffect ht
  case csyncRx => exact canonNext_actIf hs fun _ ht => canon_csyncRxEffect ht
  case linkWordBad => exact canonNext_actIf hs fun _ ht => canon_linkWordBadEffect ht
  case creditRefresh => exact canonNext_actIf hs fun _ ht => canon_creditRefreshEffect ht
  case csyncSend => exact canonNext_actIf hs fun _ ht => canon_sendWord ht
  case routeBankDrainEnd => exact canonNext_actIf hs fun _ ht => canon_routeBankDrainEndEffect ht
  case caddyWaitGrant => exact canonNext_act hs fun _ ht => canon_caddyGrantEffect ht
  case queueSample => exact canonNext_act hs fun _ ht => canon_queueSampleEffect ht
  case mreqLoad => exact canonNext_consume hs (keeps_memUnit (fun _ _ _ ht => canon_loadUse ht) (fun _ _ _ ht => canon_reqWait ht))
  case mreqStore => exact canonNext_consume hs (keeps_memUnit (fun _ _ _ ht => canon_storeUse ht) (fun _ _ _ ht => canon_reqWait ht))
  case doneAckSend => exact canonNext_actIf hs fun _ ht => canon_sendDone ht
  case add32 | add64 | beadadd | mins64 | maxs64 | minu64 | maxu64 | and64 | or64 | xor64 | swap64 | cas64 | cas128 | fadd32 =>
    exact canonNext_atomicRow hs
  case replayLogExpiry => exact canonNext_execReplayLogExpiry hs
  case logRoomGrant => exact canonNext_execLogRoomGrant hs
  case syncArrive =>
    exact canonNext_consume hs (keeps_syncUnit (fun _ _ _ ht => canon_objUse ht (fun _ _ hu => canon_objArrive hu)) (fun _ _ _ ht =>
      canon_loggedWait ht))
  case syncWait => exact canonNext_consume hs (keeps_syncUnit (fun _ _ _ ht => canon_waitUse ht) (fun _ _ _ ht => canon_reqWait ht))
  case syncAdd =>
    exact canonNext_consume hs (keeps_syncUnit (fun _ _ _ ht => canon_objUse ht (fun _ _ hu => canon_objAdd hu)) (fun _ _ _ ht => canon_loggedWait
      ht))
  case syncReset =>
    exact canonNext_consume hs (keeps_syncUnit (fun _ _ _ ht => canon_objUse ht (fun _ _ hu => canon_objReset hu)) (fun _ _ _ ht => canon_loggedWait
      ht))
  case syncRead => exact canonNext_consume hs (keeps_syncUnit (fun _ _ _ ht => canon_reply ht) (fun _ _ _ ht => canon_reqWait ht))
  case releaseForm => exact canonNext_execReleaseForm hs
  case releaseRx => exact canonNext_consume hs keeps_releaseUnit
  case mrspRx => exact canonNext_consume hs keeps_mrspUnit
  case ackDoneRx => exact canonNext_consume hs keeps_doneUnit
  case nackLostRx => exact canonNext_consume hs keeps_nackUnit
  case epochArrive => exact canonNext_consume hs (keeps_syncUnit (fun _ _ _ ht => canon_epochUse ht) (fun _ _ _ ht => canon_loggedWait ht))
  case authArrive => exact canonNext_consume hs (keeps_syncUnit (fun _ _ _ ht => canon_authUse ht) (fun _ _ _ ht => canon_loggedWait ht))
  case rewindArrive => exact canonNext_consume hs (keeps_syncUnit (fun _ _ _ ht => canon_rewindUse ht) (fun _ _ _ ht => canon_rewindHold ht))
  case rewindDone => exact canonNext_execRewindDone hs
  case commitArrive => exact canonNext_consume hs (keeps_syncUnit (fun _ _ _ ht => canon_commitUse ht) (fun _ _ _ ht => canon_loggedWait ht))
  case commitComplete => exact canonNext_execCommitComplete hs
  case unloadArrive => exact canonNext_consume hs (keeps_syncUnit (fun _ _ _ ht => canon_unloadUse ht) (fun _ _ _ ht => canon_loggedWait ht))
  case unloadDone => exact canonNext_execUnloadDone hs
  case auditRecheckDone => exact canonNext_execAuditRecheckDone hs
  case beatRx => exact canonNext_execBeatRx hs
  case beatSend => exact canonNext_actIf hs fun _ ht => canon_beatSendEffect ht
  case heartbeatInterval => exact canonNext_actIf hs fun _ ht => canon_heartbeatIntervalEffect ht
  case trainingSuccess => exact canonNext_actIf hs fun _ ht => canon_trainingSuccessEffect ht
  case trainingTimeout => exact canonNext_actIf hs fun _ ht => canon_trainingTimeoutEffect ht
  case trainingRestart => exact canonNext_actIf hs fun _ ht => canon_trainingRestartEffect ht
  case probationPass => exact canonNext_actIf hs fun _ ht => canon_passProbation ht
  case d2dLinkFail => exact canonNext_actIf hs fun _ ht => canon_failStop ht
  case portRemove | portReturn | coreRemove | coreReturn | stackRemove | stackReturn => exact canonNext_unitRow hs
  case stackScrubDone => exact canonNext_actIf hs fun _ ht => canon_stackScrubDoneEffect ht
  case unitReturnTimeout => exact canonNext_execUnitReturnTimeout hs
  case holdEnter => exact canonNext_actIf hs fun _ ht => canon_holdEnterEffect ht
  case holdExit => exact canonNext_actIf hs fun _ ht => canon_expKick (canon_holdEnd ht)
  case brownoutReset => exact canonNext_actAllIf hs fun _ ht => canon_brownoutResetEffect ht
  case brownoutResetEnd => exact canonNext_actIf hs fun _ ht => canon_brownoutResetEndEffect ht
  case railUndervoltage => exact canonNext_actAllIf hs fun _ ht => canon_railReset ht
  case shadowCheckDone => exact canonNext_execShadowCheckDone hs
  case shadowArbiterDone => exact canonNext_execShadowArbiterDone hs
  case shadowCheckAbandon => exact canonNext_actIf hs fun _ ht => canon_shadowCheckAbandonEffect ht
  case coreQuizDue => exact canonNext_actIf hs fun _ ht => canon_coreQuizDueEffect ht
  case coreQuizEnd => exact canonNext_actIf hs fun _ ht => canon_coreQuizEndEffect ht
  case laneQuizDue => exact canonNext_actIf hs fun _ ht => canon_laneQuizDueEffect ht
  case mgmtQuizFrame => exact canonNext_consume hs keeps_quizUnit
  case laneQuizNoecho => exact canonNext_actIf hs fun _ ht => canon_laneQuizNoechoEffect ht
  case stackQuizDue => exact canonNext_actIf hs fun _ ht => canon_stackQuizDueEffect ht
  case stackQuizEnd => exact canonNext_actIf hs fun _ ht => canon_stackQuizEndEffect ht
  case tempSample => exact canonNext_actIf hs fun _ ht => canon_tempSampleEffect ht
  case slackSample => exact canonNext_actIf hs fun _ ht => canon_slackSampleEffect ht
  case driftSample => exact canonNext_actIf hs fun _ ht => canon_driftSampleEffect ht
  case eyeSample => exact canonNext_actIf hs fun _ ht => canon_eyeSampleEffect ht
  case hourlyRecords => exact canonNext_actIf hs fun _ ht => canon_hourlyRecordsEffect ht
  case tallyBookWrite => exact canonNext_execTallyBookWrite hs
  case bookBudgetRefill => exact canonNext_actIf hs fun _ ht => canon_bookBudgetRefillEffect ht
  case telemetryPeriod => exact canonNext_actIf hs fun _ ht => canon_telemetryPeriodEffect ht
  case pldmSensorRefresh => exact canonNext_actIf hs fun _ ht => canon_pldmSensorRefreshEffect ht
  case getTid | getPldmTypes => exact canonNext_pldm hs fun _ ht => canon_pldmAnswer ht
  case getPldmCommands | getPldmVersion => exact canonNext_pldm hs fun _ ht => canon_ite (canon_pldmAnswer ht) (canon_pldmAnswer ht)
  case getSensorReading => exact canonNext_pldm hs (fun _ ht => canon_ite (canon_readDone (canon_freed (canon_pldmAnswer ht))) (canon_pldmAnswer ht))
  case getStateSensorReadings => exact canonNext_pldm hs fun _ ht => canon_ite (canon_freed (canon_pldmAnswer ht)) (canon_pldmAnswer ht)
  case getPdrRepositoryInfo => exact canonNext_pldm hs fun _ ht => canon_beside (canon_pldmAnswer ht)
  case getPdr =>
    exact canonNext_pldm hs (fun _ ht => canon_ite (canon_pldmAnswer ht) (canon_ite (canon_pldmAnswer ht) (canon_ite (canon_pldmAnswer ht)
      (canon_pldmAnswer ht))))
  case pldmUnsupportedCommand => exact canonNext_actIf hs fun _ ht => canon_pldmAnswer ht
  case powerOn => exact canonNext_actAllIf hs fun _ ht => canon_powerOnEffect ht
  case kettlePowerLoss => exact canonNext_actAllIf hs fun _ ht => canon_kettlePowerLossEffect ht
  case sysPwrokFall => exact canonNext_actAllIf hs fun _ ht => canon_sysPwrokFallEffect ht
  case sysRstNAssert => exact canonNext_actAllIf hs fun _ ht => canon_sysRstNAssertEffect ht
  case bootStart => exact canonNext_actAllIf hs fun _ ht => canon_bootStartEffect ht
  case imageVerifyDone => exact canonNext_actAllIf hs fun _ ht => canon_imageVerifyDoneEffect ht
  case bootReady => exact canonNext_execBootReady hs
  case hello => exact canonNext_actIf hs fun _ ht => canon_oobAnswer ht
  case oobRead => exact canonNext_oobRow hs fun _ _ ht => canon_ite_snd2 ht ht
  case oobWrite => exact canonNext_execOobWrite hs
  case oobReset => exact canonNext_execOobReset hs
  case imgerase => exact canonNext_execImgerase hs
  case imgwrite => exact canonNext_execImgwrite hs
  case bookread => exact canonNext_oobRow hs fun _ _ ht => ht
  case islandSleep => exact canonNext_actIf hs fun _ ht => canon_islandSleepEffect ht
  case islandWake => exact canonNext_execIslandWake hs
  case prewakeDue => exact canonNext_actIf hs fun _ ht => canon_prewakeDueEffect ht
  case kaIdleTimeout => exact canonNext_actIf hs fun _ ht => canon_kaIdleTimeoutEffect ht
  case kaReq => exact canonNext_consume hs (keeps_mgmtUnit (fun _ _ _ ht => canon_kaAsked ht))
  case kaAck => exact canonNext_consume hs (keeps_mgmtUnit (fun _ _ _ ht => canon_kaAcked ht))
  case kaNak => exact canonNext_consume hs (keeps_mgmtUnit (fun _ _ _ ht => canon_ite (canon_modPort ht) ht))
  case kaExit => exact canonNext_consume hs (keeps_mgmtUnit (fun _ _ _ ht => canon_kaLeave ht))
  case keepaliveEntered => exact canonNext_actIf hs fun _ ht => canon_keepaliveEnteredEffect ht
  case keepaliveEntryTimeout | keepaliveExitTimeout => exact canonNext_actIf hs fun _ ht => canon_linkDown ht
  case keepaliveExitDone => exact canonNext_actIf hs fun _ ht => canon_keepaliveExitDoneEffect ht
  case mgmtWake => exact canonNext_consume hs (keeps_mgmtUnit (fun _ _ _ ht => canon_ite (canon_leaveIdle ht) ht))
  case mgmtUnknown => exact canonNext_consume hs (keeps_mgmtUnit (fun _ _ _ ht => canon_bump ht))
  case pwrCmdRun | pwrCmdIdle | pwrCmdKettleOnly => exact canonNext_pwrRow hs
  case paceStep => exact canonNext_actIf hs fun _ ht => canon_paceStepEffect ht
  case thermalTrip => exact canonNext_actIf hs fun _ ht => canon_thermalTripEffect ht
  case thermtripRelease => exact canonNext_actIf hs fun _ ht => canon_thermtripReleaseEffect ht
  case jtagBypass | jtagIdcode => exact canonNext_actIf hs fun _ ht => canon_sends (canon_setTap ht)
  case jtagSamplePreload => exact canonNext_actIf hs (fun _ ht => canon_sends (canon_beside (canon_setTap (canon_beside ht))))
  case jtagExtest | jtagExtestPulse | jtagExtestTrain => exact canonNext_extest hs
  case linkWordResync => exact canonNext_actIf hs fun _ ht => canon_linkWordResyncEffect ht
  case uncorrectableCodeword => exact canonNext_actIf hs fun _ ht => canon_uncorrectableCodewordEffect ht
  case correctedCodeword => exact canonNext_actIf hs fun _ ht => canon_correctedCodewordEffect ht
  case reservedMop => exact canonNext_actIf hs fun _ ht => canon_oobDo ht (fun _ _ hu => hu)
  case icmpv6EchoRequest | neighbourSolicitation => exact canonNext_actIf hs fun _ ht => canon_sends ht
  case journalReplayEnd => exact canonNext_actIf hs fun _ ht => canon_journalReplayEndEffect ht
  case idleEntryDone => exact canonNext_actIf hs fun _ ht => canon_idleEntryDoneEffect ht
  case idleExitDone => exact canonNext_actIf hs fun _ ht => canon_idleExitDoneEffect ht
  case combineBlockDone => exact canonNext_execCombineBlockDone hs

theorem canon_tick : s.tick.Canon := canon_beside (canon_regs hs (rising_trainPorts (rising_regs hs)))

theorem canonNext_step : CanonNext (step s) := by
  unfold step
  split
  · exact canonNext_next (canon_tick hs)
  · exact canonNext_exec (canon_beside hs) _

end

end Sys2Proof.Machine

/-! The statement on the form of the memories and the tables settled. -/
namespace Sys2Proof.WholeMachine
open Sys2Proof Sys2Proof.Machine

set_option Elab.async false

/-- Settles O41: every function that changes a state keeps the form of its tables and memories, so that every command and a step without one do. -/
theorem memoryFormInvariant : Obligations.MemoryFormInvariant := by
  unfold Obligations.MemoryFormInvariant
  intro s t htables hmem hstep
  exact canonNext_step ⟨htables, hmem⟩ t hstep

end Sys2Proof.WholeMachine

/-! What the vector and tensor engines and the Strainer leave unchanged (chapters 3 and 6). -/
namespace Sys2Proof.Machine
open Sys2Proof

-- A default proof (:= by rfl) waits until all before it is checked: with the bodies checked side by side, each that waits would hold a thread.
set_option Elab.async false

/-- What an engine never changes of its core: the program counter, the general and address registers and the instruction memory. -/
def Core.program (k : Core) : BitVec 16 × SMap Word × SMap AReg × SMap Byte := (k.pc, k.g, k.a, k.imem)

/-- Core l is k after a change of neither its state nor its program. -/
def Core.Steady (k l : Core) : Prop := l.st = k.st ∧ l.program = k.program

theorem Core.Steady.trans {k l m : Core} (h1 : k.Steady l) (h2 : l.Steady m) : k.Steady m := ⟨h2.1.trans h1.1, h2.2.trans h1.2⟩

theorem steady_setQueue (k : Core) (q : Nat) (x : Queue) : k.Steady (k.setQueue q x) := ⟨rfl, rfl⟩
theorem steady_worked (a b now : Nat) (k : Core) : k.Steady (k.worked a b now) := by unfold Core.worked; split <;> exact ⟨rfl, rfl⟩
theorem steady_popped (q : Nat) (k : Core) : k.Steady (k.popped q) := by rw [queuedOnly_popped]; exact ⟨rfl, rfl⟩
theorem steady_wrMem (k : Core) (a : Nat) (bs : List Byte) : k.Steady (k.wrMem a bs) := ⟨rfl, rfl⟩
theorem steady_addBeads (k : Core) (slot : Nat) (ns : List Int) : k.Steady (addBeads k slot ns) := ⟨rfl, rfl⟩
theorem steady_clearBeads (k : Core) (slot n : Nat) : k.Steady (clearBeads k slot n) := ⟨rfl, rfl⟩
theorem steady_clearTally (k : Core) (set : Nat) : k.Steady (k.clearTally set) := ⟨rfl, rfl⟩

/-- An engine's work on core c: two states agree on everything but the core, the registers, the records, the free values used up, what is sent and, unless
they are kept, the shadow checks; a core that is not IDLE stays so and keeps its program. -/
structure State.EngineWork (s t : State) (c : Nat) (kept : Prop) : Prop where
  others : ∀ d, d ≠ c → t.core d = s.core d
  beside : t = { s with regs := t.regs, book := t.book, tele := t.tele, cores := t.cores, free := t.free, out := t.out, shadow := t.shadow }
  shadow : kept → t.shadow = s.shadow
  busy : (s.core c).st ≠ .idle → (t.core c).st ≠ .idle
  program : (s.core c).st ≠ .idle → (t.core c).program = (s.core c).program

-- The relation ------------------------------------------------------------------------------------------------------

section
variable {s t u : State} {c : Nat} {kept : Prop}

theorem engineWork_of_oneCore (h : s.OneCore t c)
    (hcore : (s.core c).st ≠ .idle → (t.core c).st ≠ .idle ∧ (t.core c).program = (s.core c).program) : s.EngineWork t c kept where
  others := h.1
  beside := by
    obtain ⟨-, hst⟩ := h
    rw [hst]
  shadow _ := by rw [h.2]
  busy hs := (hcore hs).1
  program hs := (hcore hs).2

theorem engineWork_refl : s.EngineWork s c kept := engineWork_of_oneCore (oneCore_refl s c) fun h => ⟨h, rfl⟩

theorem State.EngineWork.trans (h1 : s.EngineWork t c kept) (h2 : t.EngineWork u c kept) : s.EngineWork u c kept where
  others d hd := (h2.others d hd).trans (h1.others d hd)
  beside := by
    have hst2 := h2.beside
    rw [h1.beside] at hst2
    exact hst2
  shadow hk := (h2.shadow hk).trans (h1.shadow hk)
  busy hs := h2.busy (h1.busy hs)
  program hs := (h2.program (h1.busy hs)).trans (h1.program hs)

theorem engineWork_ite {p : Prop} [Decidable p] (ht : s.EngineWork t c kept) (hu : s.EngineWork u c kept) : s.EngineWork (if p then t else u) c kept := by
  split
  · exact ht
  · exact hu

theorem engineWork_of_recOnly (h : s.RecOnly t) : s.EngineWork t c kept :=
  engineWork_of_oneCore (oneCore_of_recOnly h c) fun hs => by
    rw [recOnly_core h]
    exact ⟨hs, rfl⟩

theorem engineWork_setCore {k : Core} (hk : (s.core c).Steady k := by exact ⟨rfl, rfl⟩) : s.EngineWork (s.setCore c k) c kept :=
  engineWork_of_oneCore (oneCore_setCore s c k) fun hs => by
    have hst : k.st ≠ .idle := by rwa [hk.1]
    rw [State.core_setCore_st s c k hst]
    exact ⟨hst, hk.2⟩

theorem engineWork_modCore {f : Core → Core} (hf : ∀ k : Core, k.Steady (f k) := by exact fun _ => ⟨rfl, rfl⟩) : s.EngineWork (s.modCore c f) c kept :=
  engineWork_setCore (hf _)

theorem engineWork_free (n : Nat) : s.EngineWork { s with free := n } c kept := engineWork_of_oneCore (oneCore_free s n c) fun h => ⟨h, rfl⟩

theorem engineWork_eachDo {α : Type} {f : α → State → State} (h : ∀ (x : α) (s : State), s.EngineWork (f x s) c kept) (l : List α) :
    s.EngineWork (eachDo l f s) c kept :=
  eachDo_rel (R := fun s t => s.EngineWork t c kept) (fun _ => engineWork_refl) (fun _ _ _ => State.EngineWork.trans) h l s

theorem engineWork_foldl {α : Type} {f : State → α → State} (h : ∀ (s : State) (x : α), s.EngineWork (f s x) c kept) (l : List α) :
    s.EngineWork (l.foldl f s) c kept :=
  List.foldlRecOn (motive := fun t => s.EngineWork t c kept) l f engineWork_refl fun t ht x _ => ht.trans (h t x)

theorem engineWork_when {b : Bool} {f : State → State} (h : s.EngineWork (f s) c kept) : s.EngineWork (s.when b f) c kept :=
  engineWork_ite h engineWork_refl

/-- A command's effect, run with nothing sent before it (State.after), is the same work. -/
theorem engineWork_after {f : State → State} (h : ∀ s : State, s.EngineWork (f s) c kept) : s.EngineWork (s.after f) c kept where
  others := (h s.hushed).others
  beside := by
    rw [State.after, (h s.hushed).beside]
    rfl
  shadow := (h s.hushed).shadow
  busy := (h s.hushed).busy
  program := (h s.hushed).program

theorem engineWork_of_actIf {b : Bool} {f : State → State} (h : actIf b f s = .next t) (hf : ∀ s : State, s.EngineWork (f s) c kept) :
    s.EngineWork t c kept := by
  rcases actIf_cases h with rfl | ⟨-, rfl⟩
  · exact engineWork_refl
  · exact engineWork_after hf

end

-- Shared operations -------------------------------------------------------------------------------------------------

section
variable {s : State} {c : Nat} {kept : Prop}

theorem engineWork_bump (f : Fld) (i : Nat) : s.EngineWork (s.bump f i) c kept := engineWork_of_recOnly (recOnly_bump ..)

theorem engineWork_coreFault (e : RodErr) (q : Nat) (pc : BitVec 16) : s.EngineWork (coreFault c e q pc s) c kept :=
  engineWork_of_oneCore (oneCore_coreFault c e q pc s) fun _ => by
    refine ⟨by simp [coreFault_st], ?_⟩
    by_cases h : (s.core c).st = .fault
    · rw [coreFault_again c e q pc s h]
      rfl
    · rw [coreFault_core c e q pc s h]
      rfl

theorem engineWork_signalDone (q : Nat) (h : Cmd) : s.EngineWork (signalDone c q h s) c kept := by
  unfold signalDone signalBy signalAs
  exact engineWork_ite (engineWork_ite (engineWork_coreFault ..) engineWork_setCore) engineWork_refl

theorem engineWork_popHead (q : Nat) : s.EngineWork (popHead c q s) c kept :=
  engineWork_modCore (steady_popped q)

theorem engineWork_hazard (h : Hazard) (reg rep : Nat) (pc : BitVec 16) : s.EngineWork (hazard c h reg rep pc s) c kept :=
  engineWork_of_recOnly (recOnly_hazard ..)

theorem engineWork_readHazard (r rep : Nat) (pc : BitVec 16) : s.EngineWork (readHazard c r rep pc s) c kept := by
  unfold readHazard
  exact engineWork_ite (engineWork_hazard ..) (engineWork_ite engineWork_refl (engineWork_hazard ..))

theorem engineWork_codeHazard (h : Cmd) (r : Nat) : s.EngineWork (codeHazard c h r s) c kept := engineWork_when (engineWork_readHazard ..)

theorem engineWork_makeVisible (p : VPend) : s.EngineWork (makeVisible c p s) c kept := by
  have hset := engineWork_setCore (s := s) (c := c) (kept := kept) (k := { s.core c with
    v := (s.core c).v.put [] p.reg p.lanes, vvis := (s.core c).vvis.put 0 p.reg (max ((s.core c).vvis.lk 0 p.reg) (p.iss + 1)) })
  exact engineWork_ite (hset.trans (engineWork_hazard ..)) hset

theorem engineWork_drainVec : s.EngineWork (drainVec c s) c kept :=
  (engineWork_setCore).trans (engineWork_eachDo (fun p _ => engineWork_makeVisible p) _)

theorem engineWork_commitVec (slot : Nat) : s.EngineWork (commitVec c slot s) c kept :=
  (engineWork_setCore).trans (engineWork_eachDo (fun p _ => engineWork_makeVisible p) _)

theorem engineWork_freeRod (as : List Nat) : s.EngineWork (freeRod c as s) c kept := by
  unfold freeRod
  split
  · exact engineWork_refl
  · exact (engineWork_modCore).trans (engineWork_free _)

/-- Work between the free values of R83 for what it reads and what it writes in conflict. -/
theorem engineWork_sharedDo (p : Nat) (sps : List Span) {f : State → State} (hf : ∀ s : State, s.EngineWork (f s) c kept) :
    s.EngineWork (sharedDo c p sps f s) c kept := by
  have hnote : s.EngineWork (s.modCore c (fun k => { k with share := k.share.note p sps })) c kept := engineWork_modCore
  exact ((hnote.trans (engineWork_freeRod _)).trans (hf _)).trans (engineWork_freeRod _)

theorem engineWork_addBeadTally (t : Tal) : s.EngineWork (addBeadTally t s) c kept :=
  engineWork_foldl (fun _ _ => engineWork_ite engineWork_refl (engineWork_of_recOnly (recOnly_bumpN ..))) _

theorem engineWork_addCoreTal (set : Nat) (t : Tal) : s.EngineWork (addCoreTal c set t s) c kept :=
  (engineWork_modCore).trans (engineWork_addBeadTally t)

end

-- The queues --------------------------------------------------------------------------------------------------------

section
variable {s t : State} {c : CoreId} {q opc : Nat} {kept : Prop} {rep : Cmd → Nat → State → State} {chk : State → Cmd → Nat → Bool}

theorem engineWork_vqIssue (h : Cmd) : s.EngineWork (vqIssue c h s) c kept := (engineWork_popHead 0).trans (engineWork_when engineWork_drainVec)

theorem engineWork_vqFin (h : Cmd) : s.EngineWork (vqFin c h s) c kept := (engineWork_when engineWork_drainVec).trans (engineWork_signalDone 0 h)

theorem engineWork_vqSlot (h : Cmd) (r : Nat) (hrep : ∀ h r (s : State), s.EngineWork (rep h r s) c kept) : s.EngineWork (vqSlot c rep h s r) c kept :=
  ((engineWork_commitVec _).trans (hrep h r _)).trans engineWork_modCore

theorem engineWork_vqWork (h : Cmd) (hrep : ∀ h r (s : State), s.EngineWork (rep h r s) c kept) : s.EngineWork (vqWork c h rep s) c kept := by
  have hbusy : ∀ s : State, s.EngineWork (vqBusy c h s) c kept := fun _ => engineWork_modCore (steady_worked _ _ _)
  have hslots : ∀ s : State, s.EngineWork ((List.range (cwCount h.w)).foldl (vqSlot c rep h) s) c kept :=
    fun _ => engineWork_foldl (fun _ r => engineWork_vqSlot h r hrep) _
  exact (((engineWork_vqIssue h).trans (hbusy _)).trans (engineWork_sharedDo _ _ hslots)).trans (engineWork_vqFin h)

/-- A command of VQ, whatever its repeats do, is its engine's work when they are. -/
theorem engineWork_of_vqRun (ht : vqRun c opc chk rep s = .next t) (hrep : ∀ h r (s : State), s.EngineWork (rep h r s) c kept) :
    s.EngineWork t c kept := by
  unfold vqRun at ht
  split at ht
  · rename_i h _
    exact engineWork_of_actIf ht fun _ => engineWork_ite (((engineWork_vqIssue h).trans (engineWork_bump ..)).trans (engineWork_vqFin h))
      (engineWork_ite (engineWork_vqWork h hrep) ((engineWork_vqIssue h).trans (engineWork_coreFault ..)))
  · cases ht
    exact engineWork_refl

theorem engineWork_of_startCmd (ht : startCmd c q opc chk s = .next t) : s.EngineWork t c kept := by
  unfold startCmd at ht
  split at ht
  · exact engineWork_of_actIf ht fun _ => (engineWork_popHead q).trans (engineWork_ite ((engineWork_bump ..).trans (engineWork_signalDone ..))
      (engineWork_ite engineWork_modCore (engineWork_coreFault ..)))
  · cases ht
    exact engineWork_refl

theorem engineWork_cmdLeave (f : Fly) (hrep : ∀ h r (s : State), s.EngineWork (rep h r s) c kept) : s.EngineWork (cmdLeave c q rep f s) c kept := by
  have hreps : s.EngineWork (cmdReps c q rep f s) c kept := engineWork_sharedDo _ _ fun _ => engineWork_eachDo (hrep f.cmd) _
  exact (hreps.trans (engineWork_modCore fun k => (steady_setQueue k ..).trans (steady_worked ..))).trans (engineWork_signalDone ..)

theorem engineWork_of_finishCmd (ht : finishCmd c q opc rep s = .next t) (hrep : ∀ h r (s : State), s.EngineWork (rep h r s) c kept) :
    s.EngineWork t c kept := by
  unfold finishCmd at ht
  split at ht
  · exact engineWork_of_actIf ht fun _ => engineWork_cmdLeave _ hrep
  · cases ht
    exact engineWork_refl

theorem engineWork_of_nopCmd (ht : nopCmd c q s = .next t) : s.EngineWork t c kept := by
  unfold nopCmd at ht
  split at ht
  · exact engineWork_of_actIf ht fun _ =>
      ((engineWork_popHead q).trans (engineWork_ite (engineWork_bump ..) engineWork_refl)).trans (engineWork_signalDone ..)
  · cases ht
    exact engineWork_refl

end

-- What the repeats do -----------------------------------------------------------------------------------------------

section
variable {s : State} {c : Nat} {kept : Prop}

theorem engineWork_writeVec (r lat rep : Nat) (pc : BitVec 16) (lanes : List Lane) : s.EngineWork (writeVec c r lat rep pc lanes s) c kept := engineWork_modCore

theorem engineWork_vecOp (h : Cmd) (r : Nat) (reads : List Nat) (lat : Nat) (f : List (List Lane) → List Lane) :
    s.EngineWork (vecOp c h r reads lat f s) c kept :=
  (engineWork_eachDo (fun v _ => engineWork_readHazard v r h.pc) reads).trans (engineWork_writeVec ..)

theorem engineWork_vecStore (h : Cmd) (r : Nat) (f : List Lane → List Byte) : s.EngineWork (vecStore c h r f s) c kept := by
  unfold vecStore
  exact (engineWork_readHazard ..).trans engineWork_modCore

theorem engineWork_enterBeads (isInt : Bool) (codeOf : Nat → Nat) (slot : Nat) (xs : List Cls) :
    s.EngineWork (enterBeads c isInt codeOf slot xs s).1 c kept := by
  unfold enterBeads
  dsimp only
  exact engineWork_modCore

theorem engineWork_enterRep (h : Cmd) (r : Nat) (gate : Option Dec) : s.EngineWork (enterRep c h r gate s) c kept :=
  ((engineWork_codeHazard h r).trans (engineWork_enterBeads ..)).trans (engineWork_addCoreTal ..)

theorem engineWork_bmacRep (h : Cmd) (r : Nat) : s.EngineWork (bmacRep c h r s) c kept := by
  unfold bmacRep
  exact (engineWork_readHazard ..).trans (engineWork_enterRep ..)

theorem engineWork_boutRep (h : Cmd) (r : Nat) : s.EngineWork (boutRep c h r s) c kept :=
  ((engineWork_codeHazard h r).trans engineWork_setCore).trans (engineWork_addCoreTal ..)

theorem engineWork_bexpRep (h : Cmd) (r : Nat) : s.EngineWork (bexpRep c h r s) c kept := by
  unfold bexpRep
  exact engineWork_vecOp ..

theorem engineWork_offerTile (ps : List Nat) : s.EngineWork (offerTile c ps s).2 c kept := by
  unfold offerTile
  extract_lets q
  split
  rename_i q' s1 hcap
  have h1 : s.EngineWork s1 c kept := by
    split at hcap
    · cases hcap
      exact engineWork_refl
    · cases hcap
      exact engineWork_free _
  split
  dsimp only
  exact h1.trans engineWork_modCore

theorem engineWork_bscatRep (h : Cmd) (r : Nat) : s.EngineWork (bscatRep c h r s) c kept :=
  (((engineWork_codeHazard h r).trans (engineWork_offerTile _)).trans (engineWork_enterBeads ..)).trans (engineWork_addCoreTal ..)

theorem engineWork_sqWrite (a : Nat) (bs : List Byte) : s.EngineWork (sqWrite c a bs s) c kept := engineWork_modCore

theorem engineWork_countNan (h : Cmd) (l : List SRec) : s.EngineWork (countNan c h l s) c kept := engineWork_of_recOnly (recOnly_bumpN ..)

/-- Work that touches the shadow checks alone, where they need not be kept. -/
theorem engineWork_shadow (hkept : ¬ kept) (x : Shadow) : s.EngineWork { s with shadow := x } c kept where
  others _ _ := rfl
  beside := rfl
  shadow h := absurd h hkept
  busy := id
  program _ := rfl

theorem engineWork_shadowSample (hkept : ¬ kept) (kind : Nat) (ref blk step : Word) (ins : ShadowIn) (out : List Byte) :
    s.EngineWork (shadowSample kind c ref blk step ins out s) c kept := by
  unfold shadowSample
  refine (engineWork_shadow hkept _ : s.EngineWork (shadowCount c s) c kept).trans (engineWork_ite engineWork_refl ?_)
  split
  · exact engineWork_bump ..
  · exact engineWork_shadow hkept _

theorem engineWork_tmmRep (hkept : ¬ kept) (h : Cmd) (r : Nat) : s.EngineWork (tmmRep c h r s) c kept :=
  ((engineWork_setCore).trans (engineWork_addCoreTal ..)).trans (engineWork_shadowSample hkept ..)

end

-- The rows ----------------------------------------------------------------------------------------------------------

/-- What a row answers is its engine's work on core c. -/
def WorksOn (c : CoreId) (kept : Prop) (i : Instr) : Prop := ∀ s t, exec i s = .next t → s.EngineWork t c kept

section
variable {c : CoreId} {kept : Prop} {i : Instr}

theorem worksOn_of_vqRun {opc : Nat} {chk : State → Cmd → Nat → Bool} {rep : Cmd → Nat → State → State} (hx : ∀ s, exec i s = vqRun c opc chk rep s)
    (hrep : ∀ h r (s : State), s.EngineWork (rep h r s) c kept) : WorksOn c kept i := fun s _ ht => engineWork_of_vqRun ((hx s).symm.trans ht) hrep

theorem worksOn_of_startCmd {q opc : Nat} {chk : State → Cmd → Nat → Bool} (hx : ∀ s, exec i s = startCmd c q opc chk s) : WorksOn c kept i :=
  fun s _ ht => engineWork_of_startCmd ((hx s).symm.trans ht)

theorem worksOn_of_finishCmd {q opc : Nat} {rep : Cmd → Nat → State → State} (hx : ∀ s, exec i s = finishCmd c q opc rep s)
    (hrep : ∀ h r (s : State), s.EngineWork (rep h r s) c kept) : WorksOn c kept i := fun s _ ht => engineWork_of_finishCmd ((hx s).symm.trans ht) hrep

theorem worksOn_of_nopCmd {q : Nat} (hx : ∀ s, exec i s = nopCmd c q s) : WorksOn c kept i := fun s _ ht => engineWork_of_nopCmd ((hx s).symm.trans ht)

end

/-- The commands of VQ for the lanes. -/
def vectorRows (c : CoreId) : List Instr :=
  [.vnop c, .vld c, .vst c, .vbcast c, .viadd c, .visub c, .vimul c, .vand c, .vor c, .vxor c, .vshl c, .vshr c, .vmin c, .vmax c, .vcmp c, .vsel c,
    .vfadd c, .vfmul c, .vffma c, .vcvt c, .vunpk c, .vpack c, .vperm c, .vexp2 c, .vrmax c]

/-- The commands of VQ for the Beads. -/
def beadRows (c : CoreId) : List Instr := [.bexp c, .bacc c, .bmac c, .baddp c, .bout c, .bst c, .bclr c, .btal c, .bscat c]

/-- The commands of TQ and SQ, as they start and as they complete. -/
def queueRows (c : CoreId) : List Instr :=
  [.tnop c, .tmm c, .tmmComplete c, .snop c, .ssort c, .ssortComplete c, .smerge c, .smergeComplete c, .sfilt c, .sfiltComplete c, .scomp c,
    .scompComplete c, .sscan c, .sscanComplete c, .spick c, .spickComplete c, .srand c, .srandComplete c]

-- Where a row's checks or repeats are functions written out in it, the row is named (execVpack and so on) for them to be found.

/-- But for VNOP and the stores, each repeat of a lane command writes a vector register from what it reads. -/
theorem worksOn_vectorRows (c : CoreId) (kept : Prop) : ∀ i ∈ vectorRows c, WorksOn c kept i := by
  simp only [vectorRows, List.forall_mem_cons]
  refine ⟨worksOn_of_vqRun (fun _ => rfl) ?vnop, ?_, worksOn_of_vqRun (fun _ => rfl) ?vst, ?_, ?_, ?_, ?_, ?_, ?_, ?_, ?_, ?_, ?_, ?_, ?_, ?_, ?_, ?_, ?_, ?_,
    worksOn_of_vqRun (fun s => (rfl : execVunpk c s = _)) ?vunpk, worksOn_of_vqRun (fun s => (rfl : execVpack c s = _)) ?vpack, ?_, ?_, ?_,
    List.forall_mem_nil _⟩
  case vnop => exact fun _ _ _ => engineWork_refl
  case vunpk => exact fun _ _ _ => engineWork_vecOp ..
  case vst | vpack => exact fun _ _ _ => engineWork_vecStore ..
  all_goals
    refine worksOn_of_vqRun (fun _ => rfl) fun _ _ _ => ?_
    exact engineWork_vecOp ..

/-- Each repeat of a Bead command changes the Beads, a block's codes, the Tally or Rod memory. -/
theorem worksOn_beadRows (c : CoreId) (kept : Prop) : ∀ i ∈ beadRows c, WorksOn c kept i := by
  simp only [beadRows, List.forall_mem_cons]
  refine ⟨worksOn_of_vqRun (fun s => (rfl : execBexp c s = _)) ?bexp, worksOn_of_vqRun (fun _ => rfl) ?bacc, worksOn_of_vqRun (fun _ => rfl) ?bmac,
    worksOn_of_vqRun (fun _ => rfl) ?baddp, worksOn_of_vqRun (fun _ => rfl) ?bout, worksOn_of_vqRun (fun _ => rfl) ?bst,
    worksOn_of_vqRun (fun _ => rfl) ?bclr, worksOn_of_vqRun (fun _ => rfl) ?btal, worksOn_of_vqRun (fun s => (rfl : execBscat c s = _)) ?bscat,
    List.forall_mem_nil _⟩
  case bexp => exact fun _ _ _ => engineWork_bexpRep ..
  case bacc => exact fun _ _ _ => engineWork_enterRep ..
  case bmac => exact fun _ _ _ => engineWork_bmacRep ..
  case bout => exact fun _ _ _ => engineWork_boutRep ..
  case bscat => exact fun _ _ _ => engineWork_bscatRep ..
  case baddp => exact fun _ _ _ => engineWork_modCore fun _ => steady_addBeads ..
  case bst => exact fun _ _ _ => engineWork_modCore fun _ => steady_wrMem ..
  case bclr => exact fun _ _ _ => engineWork_modCore fun _ => steady_clearBeads ..
  case btal => exact fun _ _ _ => engineWork_modCore fun k => (steady_wrMem k ..).trans (steady_clearTally ..)

/-- A command of TQ or SQ that starts writes nothing yet; as it completes each repeat writes its output and counts, and TMM's may ask for a shadow check. -/
theorem worksOn_queueRows (c : CoreId) : ∀ i ∈ queueRows c, WorksOn c (i ≠ .tmmComplete c) i := by
  simp only [queueRows, List.forall_mem_cons]
  refine ⟨worksOn_of_nopCmd fun _ => rfl, worksOn_of_startCmd fun _ => rfl, worksOn_of_finishCmd (fun _ => rfl) ?tmm,
    worksOn_of_nopCmd fun _ => rfl, worksOn_of_startCmd fun _ => rfl, worksOn_of_finishCmd (fun _ => rfl) ?ssort,
    worksOn_of_startCmd fun _ => rfl, worksOn_of_finishCmd (fun _ => rfl) ?smerge, worksOn_of_startCmd fun _ => rfl,
    worksOn_of_finishCmd (fun _ => rfl) ?sfilt, worksOn_of_startCmd fun _ => rfl, worksOn_of_finishCmd (fun _ => rfl) ?scomp,
    worksOn_of_startCmd fun _ => rfl, worksOn_of_finishCmd (fun _ => rfl) ?sscan, worksOn_of_startCmd fun _ => rfl,
    worksOn_of_finishCmd (fun _ => rfl) ?spick, worksOn_of_startCmd fun s => (rfl : execSrand c s = _), worksOn_of_finishCmd (fun _ => rfl) ?srand,
    List.forall_mem_nil _⟩
  case tmm => exact fun _ _ _ => engineWork_tmmRep (· rfl) ..
  case ssort | sfilt => exact fun _ _ _ => (engineWork_sqWrite ..).trans (engineWork_countNan ..)
  case smerge => exact fun _ _ _ => ((engineWork_sqWrite ..).trans (engineWork_countNan ..)).trans (engineWork_of_recOnly (recOnly_bumpN ..))
  case scomp | sscan | spick => exact fun _ _ _ => engineWork_sqWrite ..
  case srand =>
    intro h r s
    split
    · exact engineWork_sqWrite ..
    · exact engineWork_refl

theorem onlyCoreAndChecks_of_engineWork {s t : State} {c : CoreId} {kept : Prop} (h : s.EngineWork t c kept) : s.OnlyCoreAndChecks t c := by
  refine ⟨h.others, ?_⟩
  rw [h.beside]
  exact ⟨rfl, rfl, rfl, rfl, rfl, rfl, rfl, rfl, rfl, rfl, rfl, rfl, rfl, rfl⟩

/-- Settles O31: every row of VQ, TQ and SQ is its engine's work, and but for TMM's completion one that keeps the shadow checks. -/
theorem engineFrame : Obligations.EngineFrame := by
  unfold Obligations.EngineFrame
  intro s t c i hi hst ht
  have hrows : i ∈ vectorRows c ++ (beadRows c ++ queueRows c) := hi
  have hworks : WorksOn c (i ≠ .tmmComplete c) i := by
    rcases List.mem_append.1 hrows with hvec | hrest
    · exact worksOn_vectorRows c _ i hvec
    · rcases List.mem_append.1 hrest with hbead | hqueue
      · exact worksOn_beadRows c _ i hbead
      · exact worksOn_queueRows c i hqueue
  have hwork := hworks s t ht
  have hbeside := onlyCoreAndChecks_of_engineWork hwork
  have hprog := hwork.program hst
  simp only [Core.program, Prod.mk.injEq] at hprog
  exact ⟨hbeside, fun hne => ⟨hbeside, hwork.shadow hne⟩, hprog⟩

end Sys2Proof.Machine
